-- ==== Sys2Proof/Word.lean ====
section
/-! DEFINITION. The word types of the LZ-9X model and the sparse keyed table. -/

namespace Sys2Proof

/-- A byte (R6). -/
abbrev Byte := BitVec 8
/-- A 32-bit word of a message, descriptor, record or register (R9). -/
abbrev W32 := BitVec 32
/-- The bits of an F32 value (R34). -/
abbrev F32 := BitVec 32
/-- The bits of an L16 value (R33). -/
abbrev L16 := BitVec 16

/-- A sparse table keyed by number, in rising order of key: panels, flows, sessions, settings. -/
abbrev Tab (α : Type) := List (Nat × α)

/-- The entry of `k`, or `d` where the table lists none. -/
def tabGet {α : Type} (d : α) : Tab α → Nat → α
  | [], _ => d
  | (j, v) :: t, k => if j = k then v else tabGet d t k

/-- The entry of `k`, if the table lists one. -/
def tabFind {α : Type} : Tab α → Nat → Option α
  | [], _ => none
  | (j, v) :: t, k => if j = k then some v else tabFind t k

/-- The table with `v` at `k`: the entry replaced, or inserted in rising order. -/
def tabPut {α : Type} : Tab α → Nat → α → Tab α
  | [], k, v => [(k, v)]
  | (j, w) :: t, k, v =>
    if j = k then (k, v) :: t
    else if k < j then (k, v) :: (j, w) :: t
    else (j, w) :: tabPut t k v

/-- The table without `k`. -/
def tabErase {α : Type} : Tab α → Nat → Tab α
  | [], _ => []
  | (j, w) :: t, k => if j = k then tabErase t k else (j, w) :: tabErase t k

end Sys2Proof
end

