-- ==== Sys2Proof/Machine/F32.lean ====
section
/-! DEFINITION. Exact dyadic numbers and the F32 and L16 operations of R33, R34, R61, R113, each
an exact result rounded once to nearest, ties to even. -/

namespace Sys2Proof.Machine

/-- The exact number `m × 2^e`. -/
structure Dy where
  m : Int
  e : Int
deriving DecidableEq, Repr

/-- `a - b` as a shift amount, 0 where `a ≤ b`. -/
def dySh (a b : Int) : Nat := (a - b).toNat

/-- Exact sum. -/
def dyAdd (a b : Dy) : Dy :=
  let e := min a.e b.e
  ⟨a.m * (2 ^ dySh a.e e : Nat) + b.m * (2 ^ dySh b.e e : Nat), e⟩

def dyNeg (a : Dy) : Dy := ⟨-a.m, a.e⟩
def dySub (a b : Dy) : Dy := dyAdd a (dyNeg b)
/-- Exact product. -/
def dyMul (a b : Dy) : Dy := ⟨a.m * b.m, a.e + b.e⟩
def dyAbs (a : Dy) : Dy := ⟨(a.m.natAbs : Int), a.e⟩
def dyScale (a : Dy) (k : Int) : Dy := ⟨a.m, a.e + k⟩
def dyZero : Dy := ⟨0, 0⟩
/-- `a ≤ b` exactly. -/
def dyLe (a b : Dy) : Bool := (dySub b a).m ≥ 0
/-- `a < b` exactly. -/
def dyLt (a b : Dy) : Bool := (dySub b a).m > 0
def dyEq (a b : Dy) : Bool := (dySub b a).m == 0
/-- The largest integer not above `a`. -/
def dyFloor (a : Dy) : Int :=
  if a.e ≥ 0 then a.m * (2 ^ a.e.toNat : Nat) else Int.fdiv a.m (2 ^ (-a.e).toNat : Nat)

/-- `n / 2^sh` rounded to nearest, ties to even. -/
def rneShift (n sh : Nat) : Nat :=
  let d := 2 ^ sh
  let q := n / d
  let r := n % d
  if 2 * r > d ∨ (2 * r = d ∧ q % 2 = 1) then q + 1 else q

/-- The integer nearest to `a`, ties to even (F2I of R101, the remnant of R141). -/
def dyRne (a : Dy) : Int :=
  let n := if a.e ≥ 0 then a.m.natAbs * 2 ^ a.e.toNat else rneShift a.m.natAbs (-a.e).toNat
  if a.m < 0 then -(n : Int) else (n : Int)

/-- `n × 2^e` rounded to nearest even in a format with an 8-bit exponent of bias 127 and `mb`
mantissa bits, as magnitude bits; beyond the largest finite value it is the infinity (R33, R34). -/
def fpRoundMag (mb n : Nat) (e : Int) : Nat :=
  if n = 0 then 0
  else
    let minq : Int := -126 - (mb : Int)
    let top : Int := e + (Nat.log2 n : Int)
    let q : Int := max (top - (mb : Int)) minq
    let mant := if e ≥ q then n * 2 ^ dySh e q else rneShift n (dySh q e)
    let bits := (q - minq).toNat * 2 ^ mb + mant
    min bits (255 * 2 ^ mb)

/-- A dyadic rounded to F32 with round-to-nearest-even; an exact zero gives +0. -/
def f32OfDy (a : Dy) : F32 :=
  BitVec.ofNat 32 ((if a.m < 0 then 2 ^ 31 else 0) + fpRoundMag 23 a.m.natAbs a.e)

/-- A dyadic rounded to F32; an exact zero takes the sign given. -/
def f32OfDyS (neg : Bool) (a : Dy) : F32 :=
  if a.m = 0 then (if neg then 0x80000000#32 else 0#32) else f32OfDy a

def f32NaN : F32 := 0x7FC00000#32
def f32Inf : F32 := 0x7F800000#32
def f32One : F32 := 0x3F800000#32

def f32Sign (x : F32) : Bool := x.getLsbD 31
def f32Exp (x : F32) : Nat := x.toNat / 2 ^ 23 % 256
def f32Frac (x : F32) : Nat := x.toNat % 2 ^ 23
def f32IsNaN (x : F32) : Bool := f32Exp x == 255 && f32Frac x != 0
def f32IsInf (x : F32) : Bool := f32Exp x == 255 && f32Frac x == 0
def f32IsFinite (x : F32) : Bool := f32Exp x != 255
def f32IsZero (x : F32) : Bool := x.toNat % 2 ^ 31 == 0
def f32Abs (x : F32) : F32 := BitVec.ofNat 32 (x.toNat % 2 ^ 31)
def f32Flip (x : F32) : F32 := x ^^^ 0x80000000#32
def f32SignedInf (neg : Bool) : F32 := if neg then 0xFF800000#32 else f32Inf

/-- The exact value of a finite F32. -/
def f32Dy (x : F32) : Dy :=
  let e := f32Exp x
  let m := if e = 0 then f32Frac x else f32Frac x + 2 ^ 23
  ⟨if f32Sign x then -(m : Int) else (m : Int), (max e 1 : Nat) - 150⟩

/-- The canonical NaN for a NaN, the value itself otherwise (R34). -/
def f32Canon (x : F32) : F32 := if f32IsNaN x then f32NaN else x

/-- F32 addition under R34. -/
def f32Add (x y : F32) : F32 :=
  if f32IsNaN x || f32IsNaN y then f32NaN
  else if f32IsInf x then (if f32IsInf y && f32Sign x != f32Sign y then f32NaN else x)
  else if f32IsInf y then y
  else f32OfDyS (f32IsZero x && f32IsZero y && f32Sign x && f32Sign y) (dyAdd (f32Dy x) (f32Dy y))

def f32Sub (x y : F32) : F32 := if f32IsNaN y then f32NaN else f32Add x (f32Flip y)

/-- F32 multiplication: the exact product rounded once (R34, R61). -/
def f32Mul (x y : F32) : F32 :=
  let neg := f32Sign x != f32Sign y
  if f32IsNaN x || f32IsNaN y then f32NaN
  else if f32IsInf x || f32IsInf y then
    (if f32IsZero x || f32IsZero y then f32NaN else f32SignedInf neg)
  else f32OfDyS neg (dyMul (f32Dy x) (f32Dy y))

/-- `x × y + z` with one rounding (FFMA of R101). -/
def f32Fma (x y z : F32) : F32 :=
  let neg := f32Sign x != f32Sign y
  if f32IsNaN x || f32IsNaN y || f32IsNaN z then f32NaN
  else if f32IsInf x || f32IsInf y then
    (if f32IsZero x || f32IsZero y then f32NaN
     else if f32IsInf z && f32Sign z != neg then f32NaN else f32SignedInf neg)
  else if f32IsInf z then z
  else
    let p := dyMul (f32Dy x) (f32Dy y)
    f32OfDyS (p.m == 0 && f32IsZero z && neg && f32Sign z) (dyAdd p (f32Dy z))

/-- Ordered comparison of two F32 values that are not NaNs: the infinities are beyond every finite
value, and +0 equals −0. -/
def f32Key (x : F32) : Int :=
  let n : Int := (x.toNat % 2 ^ 31 : Nat)
  if f32Sign x then -n else n

def f32Eq (x y : F32) : Bool := !(f32IsNaN x) && !(f32IsNaN y) && f32Key x == f32Key y
def f32Lt (x y : F32) : Bool := !(f32IsNaN x) && !(f32IsNaN y) && decide (f32Key x < f32Key y)
def f32Le (x y : F32) : Bool := !(f32IsNaN x) && !(f32IsNaN y) && decide (f32Key x ≤ f32Key y)
def f32Unord (x y : F32) : Bool := f32IsNaN x || f32IsNaN y

/-- FMIN of R101: −0 is below +0; a NaN operand gives the canonical NaN. -/
def f32Min (x y : F32) : F32 :=
  if f32IsNaN x || f32IsNaN y then f32NaN
  else if f32Key x < f32Key y then x
  else if f32Key y < f32Key x then y
  else if f32Sign x then x else y

/-- FMAX of R101. -/
def f32Max (x y : F32) : F32 :=
  if f32IsNaN x || f32IsNaN y then f32NaN
  else if f32Key y < f32Key x then x
  else if f32Key x < f32Key y then y
  else if f32Sign x then y else x

/-- FABS and FNEG of R101. -/
def f32AbsOp (x : F32) : F32 := if f32IsNaN x then f32NaN else f32Abs x
def f32NegOp (x : F32) : F32 := if f32IsNaN x then f32NaN else f32Flip x

/-- F2I of R101: to nearest even, saturating; NaN gives 0. -/
def f32ToInt (x : F32) : W32 :=
  if f32IsNaN x then 0#32
  else if f32IsInf x then (if f32Sign x then 0x80000000#32 else 0x7FFFFFFF#32)
  else
    let n := dyRne (f32Dy x)
    if n > 2147483647 then 0x7FFFFFFF#32
    else if n < -2147483648 then 0x80000000#32
    else BitVec.ofInt 32 n

/-- I2F of R101. -/
def f32OfInt (x : W32) : F32 := f32OfDy ⟨x.toInt, 0⟩
/-- An unsigned number rounded to F32 (RNE(u) of R113). -/
def f32OfNat (n : Nat) : F32 := f32OfDy ⟨(n : Int), 0⟩
/-- Exact scaling by a power of two, rounded where the result leaves the F32 grid. -/
def f32Scale (x : F32) (k : Int) : F32 :=
  if f32IsFinite x then f32OfDyS (f32Sign x) (dyScale (f32Dy x) k) else f32Canon x

/-- L16 to F32: 16 zero bits appended, exact (R33). -/
def l16ToF32 (c : L16) : F32 := BitVec.ofNat 32 (c.toNat * 65536)
/-- An exact value rounded to L16 to nearest even (R33, R141). -/
def l16OfDy (a : Dy) : L16 :=
  BitVec.ofNat 16 ((if a.m < 0 then 2 ^ 15 else 0) + fpRoundMag 7 a.m.natAbs a.e)
/-- F32 to L16, round to nearest even; every NaN becomes 0x7FC0 (R33). -/
def l16OfF32 (x : F32) : L16 :=
  if f32IsNaN x then 0x7FC0#16
  else if f32IsInf x then (if f32Sign x then 0xFF80#16 else 0x7F80#16)
  else if f32IsZero x then (if f32Sign x then 0x8000#16 else 0#16)
  else
    let m := (f32Dy x).m
    BitVec.ofNat 16 ((if m < 0 then 2 ^ 15 else 0) + fpRoundMag 7 m.natAbs (f32Dy x).e)
/-- F32 to L16 with the draw `u` (R73): up in magnitude if and only if u < x_bits[15:0] × 2^16. -/
def l16OfF32Sr (x : F32) (u : W32) : L16 :=
  if f32IsNaN x then 0x7FC0#16
  else
    let lo := x.toNat / 65536
    let up := u.toNat < x.toNat % 65536 * 65536
    if f32IsInf x then BitVec.ofNat 16 lo
    else BitVec.ofNat 16 (if up then lo + 1 else lo)

/-- The integer square root of `n`, for roots below `2^bits`. -/
def isqrtGo : Nat → Nat → Nat → Nat
  | 0, _, r => r
  | b + 1, n, r => isqrtGo b n (if (r + 2 ^ b) * (r + 2 ^ b) ≤ n then r + 2 ^ b else r)

def isqrt (bits n : Nat) : Nat := isqrtGo bits n 0

/-- `n × 2^e` rounded to F32 where the true value lies strictly between `n` and `n + 1` units
unless `exact`. -/
def f32Sticky (n : Nat) (e : Int) (exact : Bool) (neg : Bool) : F32 :=
  let k : Nat := if exact then 2 * n else 2 * n + 1
  f32OfDy ⟨if neg then -(k : Int) else (k : Int), e - 1⟩

/-- CR_RSQRT of R113, correctly rounded. Special operands follow IEEE 754 (R34). -/
def f32Rsqrt (x : F32) : F32 :=
  if f32IsNaN x then f32NaN
  else if f32IsZero x then f32SignedInf (f32Sign x)
  else if f32Sign x then f32NaN
  else if f32IsInf x then 0#32
  else
    let d := f32Dy x
    let odd := d.e % 2 ≠ 0
    let m := if odd then d.m.natAbs * 2 else d.m.natAbs
    let h : Int := (if odd then d.e - 1 else d.e) / 2
    let r := isqrt 64 (2 ^ 124 / m)
    f32Sticky r (-h - 62) (decide (r * r * m = 2 ^ 124)) false

/-- `2^p × atanh(n/d)` truncated: `k` terms of the odd series. -/
def atanhGo : Nat → Nat → Nat → Nat → Nat → Nat → Nat
  | 0, _, _, _, _, acc => acc
  | k + 1, n, d, t, j, acc => atanhGo k n d (t * n * n / (d * d)) (j + 2) (acc + t / j)

def atanhFix (p n d : Nat) : Nat := atanhGo 72 n d (2 ^ p * n / d) 1 0

/-- CR_LOG of R113, correctly rounded: the natural logarithm, evaluated with 220 fraction bits. -/
def f32Log (x : F32) : F32 :=
  if f32IsNaN x then f32NaN
  else if f32IsZero x then 0xFF800000#32
  else if f32Sign x then f32NaN
  else if f32IsInf x then f32Inf
  else if x = f32One then 0#32
  else
    let d := f32Dy x
    let n := d.m.natAbs
    let l := Nat.log2 n
    let e : Int := d.e + (l : Int)
    let frac := 2 * atanhFix 220 (n - 2 ^ l) (n + 2 ^ l)
    let ln2 := 2 * atanhFix 220 1 3
    let v : Int := e * (ln2 : Int) + (frac : Int)
    f32Sticky v.natAbs (-220) false (decide (v < 0))

end Sys2Proof.Machine
end

