-- ==== Sys2Proof/Machine/Formats.lean ====
section
/-! DEFINITION. Number formats, notch scales and the fold of source values into blocks, scales and
outlier entries: 02_number_formats.md, R26 to R51, R73. -/

namespace Sys2Proof.Machine

/-- Element formats, in the codes of a TENSOR descriptor's FMT (R171). -/
inductive Fmt where
  | l4 | l8e | l8g | l16 | f32 | rem8 | u32
deriving DecidableEq, Repr

def Fmt.ofCode : Nat → Option Fmt
  | 0 => some .l4 | 1 => some .l8e | 2 => some .l8g | 3 => some .l16
  | 4 => some .f32 | 5 => some .rem8 | 6 => some .u32 | _ => none

def fmtNarrow : Fmt → Bool
  | .l4 | .l8e | .l8g => true
  | _ => false

/-- Elements in a block (R37); 1 for a format without blocks. -/
def fmtBlock : Fmt → Nat
  | .l4 => 32 | .l8e | .l8g => 16 | _ => 1

/-- Bytes of one element outside the narrow formats (R33 to R36). -/
def fmtBytes : Fmt → Nat
  | .l16 => 2 | .f32 | .u32 => 4 | _ => 1

/-- The fray slot of a format (R51): L4, L8e, L8g, L16. -/
def fmtSlot : Fmt → Nat
  | .l4 => 0 | .l8e => 1 | .l8g => 2 | _ => 3

/-! ### Notches -/

/-- The notch constants of R27. -/
def notchConst (r : Nat) : F32 :=
  match r with
  | 0 => 0x3F800000#32
  | 1 => 0x3F9837F0#32
  | 2 => 0x3FB504F3#32
  | _ => 0x3FD744FD#32

def notchQ (n : Int) : Int := Int.fdiv n 4
def notchR (n : Int) : Nat := (Int.fmod n 4).toNat

/-- The significand and exponent of a narrow code (R56): sign, M, k with magnitude M × 2^k. -/
def splitCode (f : Fmt) (c : Nat) : Bool × Nat × Int :=
  match f with
  | .l4 =>
    let e := c / 2 % 4; let m := c % 2
    (c / 8 % 2 == 1, if e = 0 then m else 2 + m, if e = 0 then -1 else (e : Int) - 2)
  | .l8e =>
    let e := c / 8 % 16; let m := c % 8
    (c / 128 % 2 == 1, if e = 0 then m else 8 + m, if e = 0 then -9 else (e : Int) - 10)
  | .l8g =>
    let e := c / 4 % 32; let m := c % 4
    (c / 128 % 2 == 1, if e = 0 then m else 4 + m, if e = 0 then -16 else (e : Int) - 17)
  | _ => (false, 0, 0)

/-- The sign bit of a narrow code. -/
def signBit (f : Fmt) : Nat := match f with | .l4 => 8 | _ => 128
/-- The largest code magnitude as a code: 6, 480 or 114,688 (R44). -/
def maxCode (f : Fmt) : Nat := match f with | .l4 => 7 | _ => 127

/-- `RNE(v × c_r) × 2^q` for a magnitude `M × 2^k` and a scale of `s` notches (R28). -/
def scaleMag (M : Nat) (k s : Int) : Dy :=
  let p := f32OfDy (dyMul ⟨(M : Int), k⟩ (f32Dy (notchConst (notchR s))))
  dyScale (f32Dy p) (notchQ s)

/-- The magnitude that a code decodes to at scale `s` (R28). -/
def decMag (f : Fmt) (s : Int) (c : Nat) : Dy :=
  let (_, M, k) := splitCode f c
  scaleMag M k s

/-- The decoded value of a narrow code (R28, R29): the negative-zero code is zero. -/
def decode28 (f : Fmt) (s : Int) (c : Nat) : F32 :=
  let (neg, M, k) := splitCode f c
  if M = 0 then 0#32
  else
    let d := scaleMag M k s
    f32OfDy (if neg then dyNeg d else d)

/-- The scale byte read as notches (R26). -/
def scaleInt (b : Byte) : Int := b.toInt
/-- The mark of an empty or flushed group (R26, R47). -/
def scaleZero : Byte := 0x80#8

/-! ### Conversion of one element -/

/-- The largest code, up to `c`, whose magnitude at scale `s` is not above `x`. -/
def floorCode (f : Fmt) (s : Int) (x : Dy) : Nat → Nat
  | 0 => 0
  | c + 1 => if dyLe (decMag f s (c + 1)) x then c + 1 else floorCode f s x c

/-- The code magnitude of `x ≥ 0` under round-to-nearest, ties to the even code (R45). -/
def nearCode (f : Fmt) (s : Int) (x : Dy) : Nat :=
  let lo := floorCode f s x (maxCode f)
  if lo = maxCode f then lo
  else
    let a := dySub x (decMag f s lo)
    let b := dySub (decMag f s (lo + 1)) x
    if dyLt a b then lo else if dyLt b a then lo + 1 else if lo % 2 = 0 then lo else lo + 1

/-- The code magnitude of `x ≥ 0` under stochastic rounding with the draw `u` (R73): up if and only
if u × D < d × 2^32. -/
def srCode (f : Fmt) (s : Int) (x : Dy) (u : W32) : Nat :=
  let lo := floorCode f s x (maxCode f)
  if lo = maxCode f then lo
  else
    let d := dySub x (decMag f s lo)
    let w := dySub (decMag f s (lo + 1)) (decMag f s lo)
    if dyLt (dyMul ⟨(u.toNat : Int), 0⟩ w) (dyScale d 32) then lo + 1 else lo

/-- The signed code: a zero element is always the all-zero code (R29). -/
def signCode (f : Fmt) (neg : Bool) (mag : Nat) : Nat :=
  if mag = 0 then 0 else if neg then mag + signBit f else mag

/-- Source element after R42: NaN to zero, infinity to the largest finite L16 of its sign. The flag
says whether it was replaced. -/
def replace42 (x : F32) : F32 × Bool :=
  if f32IsNaN x then (0#32, true)
  else if f32IsInf x then (if f32Sign x then 0xFF7F0000#32 else 0x7F7F0000#32, true)
  else (x, false)

/-! ### Fray counts (R51) -/

/-- One set of fray counters. -/
structure Fray where
  elements : Nat := 0
  blocks : Nat := 0
  runs : Nat := 0
  overflow : Nat := 0
  vanish : Nat := 0
  zeroBlock : Nat := 0
  flushed : Nat := 0
  fallback : Nat := 0
  trunc : Nat := 0
deriving DecidableEq, Repr

/-- Saturation of a 64-bit counter (R52). -/
def sat64 (n : Nat) : Nat := min n (2 ^ 64 - 1)
/-- Saturation of a 32-bit status counter (R91). -/
def sat32 (n : Nat) : Nat := min n (2 ^ 32 - 1)

def frayAdd (a b : Fray) : Fray :=
  { elements := sat64 (a.elements + b.elements), blocks := sat64 (a.blocks + b.blocks)
    runs := sat64 (a.runs + b.runs), overflow := sat64 (a.overflow + b.overflow)
    vanish := sat64 (a.vanish + b.vanish), zeroBlock := sat64 (a.zeroBlock + b.zeroBlock)
    flushed := sat64 (a.flushed + b.flushed), fallback := sat64 (a.fallback + b.fallback)
    trunc := sat64 (a.trunc + b.trunc) }

/-- Conversion of F32 to L16 with its counts (R33, R42, R51): a source that is already an infinity or
a NaN is counted in neither column. -/
def l16Count (x : F32) (c : L16) : Fray :=
  let fin := f32IsFinite x
  { elements := 1
    overflow := if fin && f32IsInf (l16ToF32 c) then 1 else 0
    vanish := if fin && !(f32IsZero x) && c.toNat % 32768 == 0 then 1 else 0 }

/-! ### Fold of a tensor (R37 to R50) -/

/-- The settings of one fold: format, outlier budget, span, store capacity, stochastic rounding. -/
structure FoldCfg where
  fmt : Fmt
  k : Nat
  span : Nat
  cap : Nat
  sr : Bool
deriving DecidableEq, Repr

/-- One real (non-padding) source element of a block: its value and its draw. -/
structure SrcElem where
  val : F32
  draw : W32
deriving DecidableEq, Repr

def magDy (x : F32) : Dy := dyAbs (f32Dy x)

/-- The position of the largest nonzero magnitude outside `taken`; ties to the lower index (R43). -/
def bestOutlier (xs : List F32) (taken : List Nat) : Option Nat :=
  (xs.zipIdx).foldl (fun best (x, i) =>
    if f32IsZero x || taken.contains i then best
    else match best with
      | none => some i
      | some j => if dyLt (magDy (xs.getD j 0#32)) (magDy x) then some i else best) none

/-- The outliers of a block under budget `k`, as ascending element indices (R43, R50). -/
def outliers (xs : List F32) : Nat → List Nat
  | 0 => []
  | k + 1 =>
    let t := outliers xs k
    match bestOutlier xs t with
    | none => t
    | some i => (t.filter (· < i)) ++ [i] ++ (t.filter (i < ·))

/-- The claims of R50, carried from block to block. -/
structure Claim where
  used : Nat := 0
  closed : Bool := false
  fallbackFrom : Nat := 0xFFFFFFFF
deriving DecidableEq, Repr

/-- What R50 decides for one block: its outliers (none where it falls back), the index word of R400,
whether it fell back, and the claims that follow. -/
def claimBlock (cap b : Nat) (outs : List Nat) (c : Claim) : List Nat × Nat × Bool × Claim :=
  if outs = [] then ([], c.used, false, c)
  else if c.closed || decide (c.used + outs.length > cap) then
    ([], c.used, true, { c with closed := true, fallbackFrom := if c.closed then c.fallbackFrom else b })
  else (outs, c.used, false, { c with used := c.used + outs.length })

/-- A block after step 2 of R89. -/
structure ClaimedBlock where
  elems : List SrcElem      -- after R42
  replaced : List Nat       -- positions of the elements replaced under R42
  outs : List Nat
  index : Nat
  fellBack : Bool
deriving DecidableEq, Repr

def claimBlocks (cfg : FoldCfg) : List (List SrcElem) → Nat → Claim → List ClaimedBlock × Claim
  | [], _, c => ([], c)
  | blk :: rest, b, c =>
    let reps := blk.map (fun e => (replace42 e.val, e.draw))
    let vals := reps.map (fun r => r.1.1)
    let (outs, idx, fb, c') := claimBlock cfg.cap b (outliers vals cfg.k) c
    let (tl, cEnd) := claimBlocks cfg rest (b + 1) c'
    ({ elems := reps.map (fun r => ⟨r.1.1, r.2⟩)
       replaced := (reps.zipIdx.filter (fun r => r.1.1.2)).map (fun r => r.2)
       outs := outs, index := idx, fellBack := fb } :: tl, cEnd)

/-- The largest magnitude among the elements that are not outliers (R44). -/
def blockMax (b : ClaimedBlock) : Dy :=
  (b.elems.zipIdx).foldl (fun m (e, i) =>
    if b.outs.contains i then m else if dyLt m (magDy e.val) then magDy e.val else m) dyZero

/-- `wanted` of R44: the smallest s in −128..127 with m ≤ t(s), or 128. -/
def wantedScale (f : Fmt) (m : Dy) : Int :=
  match (List.range 256).find? (fun (i : Nat) => dyLe m (decMag f ((i : Int) - 128) (maxCode f))) with
  | some i => (i : Int) - 128
  | none => 128

/-- The outcome of R44 for a group. -/
inductive GroupScale where
  | empty | flushed | saturates | scale (s : Int)
deriving DecidableEq, Repr

def groupScale (f : Fmt) (bs : List ClaimedBlock) : GroupScale :=
  let ws := (bs.map blockMax).filter (fun m => m.m ≠ 0)
  match ws with
  | [] => .empty
  | m :: ms =>
    let w := wantedScale f (ms.foldl (fun a b => if dyLt a b then b else a) m)
    if w = -128 then .flushed else if w = 128 then .saturates else .scale w

def groupByte : GroupScale → Byte
  | .empty | .flushed => scaleZero
  | .saturates => 0x7F#8
  | .scale s => BitVec.ofInt 8 s

/-- One converted block. -/
structure FoldedBlock where
  codes : List Nat
  entries : List (Nat × L16)      -- (LANE, VALUE)
  index : Nat
  counts : Fray
deriving DecidableEq, Repr

/-- Code of one element of a block (R45), and whether it saturated or vanished. -/
def convElem (cfg : FoldCfg) (g : GroupScale) (e : SrcElem) : Nat × Nat × Nat :=
  if f32IsZero e.val then (0, 0, 0)
  else match g with
    | .empty | .flushed => (0, 0, 1)
    | .saturates | .scale _ =>
      let s : Int := match g with | .scale s => s | _ => 127
      let x := magDy e.val
      if dyLt (decMag cfg.fmt s (maxCode cfg.fmt)) x then
        (signCode cfg.fmt (f32Sign e.val) (maxCode cfg.fmt), 1, 0)
      else
        let m := if cfg.sr then srCode cfg.fmt s x e.draw else nearCode cfg.fmt s x
        (signCode cfg.fmt (f32Sign e.val) m, 0, if m = 0 then 1 else 0)

/-- Conversion of one block and its counts (R45, R46, R51). An element replaced under R42 is one overflow
and is not counted again where it saturates. -/
def foldBlock (cfg : FoldCfg) (g : GroupScale) (b : ClaimedBlock) : FoldedBlock :=
  let conv := (b.elems.zipIdx).map (fun (e, i) =>
    if b.outs.contains i then (0, 0, 0) else convElem cfg g e)
  let allZero := b.elems.all (fun e => f32IsZero e.val)
  let narrow := (b.elems.zipIdx).any (fun (e, i) => !(b.outs.contains i) && !(f32IsZero e.val))
  { codes := conv.map (fun c => c.1)
    entries := b.outs.map (fun i => (i, l16OfF32 ((b.elems.getD i ⟨0#32, 0#32⟩).val)))
    index := b.index
    counts :=
      { elements := b.elems.length, blocks := 1
        overflow := b.replaced.length +
          ((conv.zipIdx.filter (fun c => !(b.replaced.contains c.2))).map (fun c => c.1.2.1)).sum
        vanish := (conv.map (fun c => c.2.2)).sum
        zeroBlock := if allZero then 1 else 0
        flushed := if g == .flushed && narrow then 1 else 0
        fallback := if b.fellBack then 1 else 0 } }

/-- The groups of one line: `span` consecutive blocks share a scale (R39). -/
def foldLine (cfg : FoldCfg) : Nat → List ClaimedBlock → List (Byte × List FoldedBlock)
  | 0, _ => []
  | _, [] => []
  | n + 1, b :: bs =>
    let grp := (b :: bs).take cfg.span
    let g := groupScale cfg.fmt grp
    (groupByte g, grp.map (foldBlock cfg g)) :: foldLine cfg n ((b :: bs).drop cfg.span)

/-- Cut a list into pieces of `n`. -/
def chunks {α : Type} (n : Nat) : Nat → List α → List (List α)
  | 0, _ => []
  | _, [] => []
  | f + 1, a :: as => (a :: as).take (max n 1) :: chunks n f ((a :: as).drop (max n 1))

/-- The fold of pieces of lines, each a first block number and consecutive blocks from a group's start
(R37 to R50): claims in block order (R50, R89), scales and codes group by group. -/
def foldPieces (cfg : FoldCfg) : List (Nat × List (List SrcElem)) → Claim →
    List (Nat × List (Byte × List FoldedBlock)) × Claim
  | [], c => ([], c)
  | (b, blks) :: rest, c =>
    let (cl, c1) := claimBlocks cfg blks b c
    let (tl, c2) := foldPieces cfg rest c1
    ((b, foldLine cfg cl.length cl) :: tl, c2)

/-- The 16 bytes of a block's element plane (R38). -/
def blockBytes (f : Fmt) (codes : List Nat) : List Byte :=
  (List.range 16).map (fun i =>
    match f with
    | .l4 => BitVec.ofNat 8 (codes.getD (2 * i) 0 % 16 + codes.getD (2 * i + 1) 0 % 16 * 16)
    | _ => BitVec.ofNat 8 (codes.getD i 0))

/-- The unit u of a finite L16 code as an exponent of two (R35). -/
def l16Ulp (c : L16) : Int := (max (c.toNat / 128 % 256) 1 : Nat) - 134

end Sys2Proof.Machine
end

