-- ==== Sys2Proof/Machine/Types.lean ====
section
/-! DEFINITION. The records of a job package: stitches, panel sets, descriptors, chains, chalk
tables, variants, fabric plan, regions (R98, R106, R165, R170, R171, R178, R181, R191, R225, R229,
R250, R361). Fields hold the numbers of the layouts; Package.lean reads them from bytes. -/

namespace Sys2Proof.Machine

/-- A slot of a stitch (R166). -/
structure Slot where
  op : Nat
  pset : Nat
  desc : Nat
deriving DecidableEq, Repr

/-- A stitch (R165). -/
structure Stitch where
  flow : Nat
  ctr : Nat
  arg : Nat
  point : Nat
  microOp : Nat
  gp : Nat
  sync : Nat
  pmark : Bool
  gap : Nat
  mslots : List Slot
  nslots : List Slot
  rslots : List Slot
  vslots : List Slot
deriving DecidableEq, Repr

/-- A panel set entry (R170): the 256-bit mask and PHASES. -/
structure PanelSet where
  mask : Nat
  phases : Nat
deriving DecidableEq, Repr

/-- TENSOR (R171). Addresses are bits [39:8], as in the descriptor. -/
structure TensorDesc where
  fmt : Fmt
  tag : Nat
  axes : Nat
  caxis : Nat
  span : Nat
  kout : Nat
  sr : Bool
  spooled : Bool
  ext : List Nat
  elemBase : Nat
  scaleBase : Nat
  storeBase : Nat
  indexBase : Nat
  storeCap : Nat
  storeLen : Nat
  spoolBytes : Nat
  drop : Nat
  mstride : Nat
deriving DecidableEq, Repr

/-- PRODUCT (R171). -/
structure ProductDesc where
  tol : Nat
  stat : Bool
  a : Nat
  b : Nat
  c : Nat
  mT : Nat
  nT : Nat
  rotBase : Nat
  sliceRuns : Nat
  ranges : Nat
  rowSplit : Nat
  colSplit : Nat
  kSplit : Nat
deriving DecidableEq, Repr

/-- FOLD (R171). PATH: 0 quantise, 1 refold, 2 requantise. -/
structure FoldDesc where
  path : Nat
  src : Nat
  dst : Nat
  split : Nat
deriving DecidableEq, Repr

/-- ROW (R171, R110). -/
structure RowDesc where
  tag : Nat
  base : Nat
  rowLen : Nat
  sliceElems : Nat
  invN : F32
  eps : F32
  ovfBase : Nat
  ovfLen : Nat
  fwdBase : Nat
  count : Nat
  saveBase : Nat
  partner : Nat
deriving DecidableEq, Repr

/-- BIND (R171): the chain and the bindings 0 to 3 that are valid. -/
structure BindDesc where
  chain : Nat
  binds : List (Option Nat)
deriving DecidableEq, Repr

/-- MOVE (R171). -/
structure MoveDesc where
  srcSp : Bool
  dstSp : Bool
  src : Nat
  dst : Nat
  len : Nat
  srcMstride : Nat
  dstMstride : Nat
  srcPstride : Nat
  dstPstride : Nat
deriving DecidableEq, Repr

/-- COLL (R229). OP: 0 reduce-scatter, 1 all-gather, 2 all-reduce, 3 all-to-all. -/
structure CollDesc where
  op : Nat
  elemL16 : Bool
  group : Nat
  planes : Nat
  src : Nat
  dst : Nat
  count : Nat
  srcMstride : Nat
  dstMstride : Nat
deriving DecidableEq, Repr

/-- STREAM (R250). -/
structure StreamDesc where
  emit : Bool
  stream : Nat
  slots : Nat
  ahead : Nat
  region : Nat
  slotBytes : Nat
  records : Nat
  recordBytes : Nat
  loc : Nat
  len : Nat
  remote : Nat
  mstride : Nat
  remoteStep : Nat
deriving DecidableEq, Repr

/-- NOTE (R361). -/
structure NoteDesc where
  mailbox : Nat
  code : Nat
  src : Nat
  len : Nat
  mstride : Nat
deriving DecidableEq, Repr

/-- A descriptor by KIND (R171). -/
inductive Desc where
  | empty
  | tensor (d : TensorDesc)
  | product (d : ProductDesc)
  | fold (d : FoldDesc)
  | row (d : RowDesc)
  | bind (d : BindDesc)
  | move (d : MoveDesc)
  | coll (d : CollDesc)
  | stream (d : StreamDesc)
  | note (d : NoteDesc)
deriving DecidableEq, Repr

/-- A chain table entry (R98). -/
structure ChainEntry where
  entry : Nat
  length : Nat
  vl : Nat
  passGroups : Nat
  source : Nat
  consume : Bool
deriving DecidableEq, Repr

/-- The fields of a needle instruction word (R100), its opcode apart. -/
structure NArgs where
  vd : Nat
  va : Nat
  vb : Nat
  vc : Nat
  pred : Nat
  pneg : Bool
  bimm : Bool
  sr : Bool
  sub : Nat
  imm : W32
deriving DecidableEq, Repr

/-- A needle instruction (R100). -/
structure NInstr where
  op : Nat
  args : NArgs
deriving DecidableEq, Repr

/-- A chalk table (R106). -/
structure Chalk where
  octave : Bool
  quad : Bool
  below : Nat
  above : Nat
  x0 : F32
  hExp : Int
  e0 : Int
  low : F32
  high : F32
  coefs : List (F32 × F32 × F32)
deriving DecidableEq, Repr

/-- A variant with its grade point table (R178): stitch address, or none. -/
structure Variant where
  grade : Nat
  recipe : Nat
  recompute : Bool
  pAvg : Nat
  pPeak : Nat
  eStep : Nat
  tStep : Nat
  dtj : Nat
  spoolNeed : Nat
  points : List (Option Nat)
deriving DecidableEq, Repr

/-- An escalation entry (R178). -/
structure Escalation where
  tag : Nat
  src : Nat
  dst : Nat
  valid : Bool
deriving DecidableEq, Repr

/-- A layer table entry (R181). -/
structure LayerEntry where
  weight : Nat
  frozen : Bool
  site : Nat
deriving DecidableEq, Repr

/-- A region map entry (R191). -/
structure Region where
  lpddr : Bool
  jobState : Bool
  base : Bool
  frozen : Bool
  dataset : Bool
  spool : Bool
  number : Nat
  start : Nat
  len : Nat
deriving DecidableEq, Repr

/-- A port entry of the fabric plan (R225). -/
structure PlanPort where
  use : Nat
  farPort : Nat
  peerRank : Nat
  peerId : Nat
  keyHash : Nat
deriving DecidableEq, Repr

/-- The fabric plan (R225). -/
structure Plan where
  rank : Nat
  nranks : Nat
  jobId : Nat
  ports : List PlanPort
  ranks : List (Nat × Bool)          -- SWITCH_PORT, LOCAL
  groups : List (List Nat)
  gates : List (Nat × Nat × Bool)    -- GP, PORTS, WAKE
deriving DecidableEq, Repr

/-- A loaded job package (R181). -/
structure Package where
  lz7 : Bool
  nmicro : Nat
  ntags : Nat
  seed : Nat
  digest : Nat
  rankDigest : Nat
  baseDigest : Option Nat
  psets : List PanelSet
  descs : List Desc
  stitches : List Stitch
  chains : List ChainEntry
  needle : List NInstr
  chalk : List Chalk
  variants : List Variant
  escal : List Escalation
  ranges : List (List Nat)
  layers : List LayerEntry
  plan : Plan
  regions : List Region
deriving DecidableEq, Repr

/-- A seam flit header (R214). -/
structure FlitHdr where
  type : Nat             -- 0 IDLE, 1 HEAD, 2 DATA, 3 FIT, 4 POISON, 5 VOTE, 6 GATE, 7 to 15 reserved
  nak : Bool
  crd : Nat
  seq : Nat
  ack : Nat
  corr : Bool            -- the decoder corrected at least one byte of the flit (R215)
deriving DecidableEq, Repr

/-- A HEAD payload (R233). -/
structure Head where
  dstPort : Nat
  srcRank : Nat
  dstRank : Nat
  step : Nat
  desc : Nat
  phase : Nat
  micro : Nat
  segment : Nat
  bytes : Nat
  jobTag : Nat
deriving DecidableEq, Repr

/-- A POISON payload (R233). -/
structure Poison where
  step : Nat
  cause : Nat
  origin : Nat
  jobTag : Nat
deriving DecidableEq, Repr

/-- A VOTE payload (R233). -/
structure Vote where
  step : Nat
  vote : Nat
  rank : Nat
  jobTag : Nat
deriving DecidableEq, Repr

/-- An identity frame (R222); the public key and the signature as bytes. -/
structure Ident where
  port : Nat
  slotId : Nat
  moduleId : Nat
  state : Nat
  member : Nat
  rank : Nat
  jobTag : Nat
  nonce : Nat
  peerNonce : Nat
  pubkey : List Byte
  signature : List Byte
deriving DecidableEq, Repr

/-- What a seam flit carries (R214, R233). The last DATA flit of a segment names the mover operation
that sent it. -/
inductive FlitBody where
  | head (h : Head)
  | data (bs : List Byte) (last : Option Nat)
  | hello (i : Ident)
  | proof (i : Ident)
  | poison (p : Poison)
  | vote (v : Vote)
  | gate (wake : Bool)
  | idle
deriving DecidableEq, Repr

/-- What a port sees of a received frame that holds a hemline packet (R239, R240, R254): its length from destination
address to FCS, the bytes that lie in the receive buffer as it arrives, the VID of its tag, whether its destination MAC
address is one that the port takes for its kind, destination and source IP address (IPv4 as ::ffff:a.b.c.d), UDP destination
port, UDP length field and VERSION. -/
structure FrameIn where
  len : Nat
  fill : Nat
  vid : Option Nat
  mac : Bool
  ip : Nat
  src : Nat
  udp : Nat
  udpLen : Nat
  version : Nat
deriving DecidableEq, Repr

/-- A received frame that holds no hemline packet (R237 to R239), and its port. -/
structure PortFrame where
  port : Nat
  frame : FrameIn
deriving DecidableEq, Repr

/-- The header of a received hemline packet (R241) with its tag, and its frame, with what the port saw of it: whether it
came marked CE. -/
structure Pkt where
  port : Nat
  frame : FrameIn
  dstFlow : Nat
  psn : Nat
  srcFlow : Nat
  fenceW : Bool
  fenceAll : Bool
  ackReq : Bool
  enc : Bool
  length : Nat
  offset : Nat
  step : Nat
  epoch : Nat
  rsvBits : List Nat     -- the reserved bits of the header's eight words; none listed: all zero
  ce : Bool
  fec : Nat              -- codewords of its frame that FEC corrected
  tag : List Byte        -- the GCM tag, 16 bytes (R240)
deriving DecidableEq, Repr

/-- A reserved bit of the header is not zero (R10, R254). -/
def Pkt.rsv (k : Pkt) : Bool := k.rsvBits.any (· != 0)

/-- An ACK payload (R245). SACK as the offsets i whose PSN CUM + 1 + i was received. -/
structure AckBody where
  cum : Nat
  ece : Nat
  nakCode : Nat
  nakPsn : Nat
  fenceDone : Nat
  sack : List Nat
deriving DecidableEq, Repr

/-- A SETUP payload (R369) with its frame. -/
structure Setup where
  port : Nat
  frame : FrameIn
  ctrlFlow : Nat
  nonce : Nat
  ephemeral : List Byte
  chain : List Byte
  signature : List Byte
deriving DecidableEq, Repr

/-- The checks of R254 that a received frame can fail, in their order. -/
inductive DropCause where
  | fecUncorr | fcsErr | oversize | rxOverflow | other | vlan | notForUs | malformed
  | setupLimited | noFlow | authDrops | outOfWindow
deriving DecidableEq, Repr

/-- One sensor's raw reading, 0.1 °C units, or failed (R281). -/
structure SensorRead where
  sensor : Nat
  value : Int
  ok : Bool
deriving DecidableEq, Repr

/-- The outcome of a scan pass (R324): the failing sets, those whose repeat also failed, and the sets whose digest the
pass found wrong in flash copy A, and in copy B (R323). -/
structure ScanResult where
  fails : List Nat
  repeatFails : List Nat
  badA : List Nat
  badB : List Nat
deriving DecidableEq, Repr

/-- A compute rail (R382), named as R383 step 4 does. -/
inductive Rail where
  | vser | vdd1 | vdd2h | vdd2l | vddq | vsram | vcore
deriving DecidableEq, Repr

/-- The levels of the sideband pins as 72 V arrives (R383, R392, R399): the SLOT_ID straps, and whether SB_RX is held
low for the times of R393. -/
structure PowerUp where
  slotId : Nat
  sbRxLow : Bool
deriving DecidableEq, Repr

/-- An assertion of RESET_N (R385, R392): how long it is low, µs, and the levels of the SLOT_ID straps. -/
structure ResetPulse where
  us : Nat
  slotId : Nat
deriving DecidableEq, Repr

/-- An image header with what its verification needs (R365, R366). -/
structure Image where
  magic : Nat
  svn : Nat
  key : Nat
  recovery : Bool
  len : Nat
  release : Nat
  bodyDigest : Nat
  pubkey : List Byte
  signature : List Byte
  signed : List Byte       -- bytes 0x000 to 0x073
  digest : Nat             -- SHA-384 of the IMAGE_LEN bytes
  bodyOk : Bool            -- the body digest matches
deriving DecidableEq, Repr

end Sys2Proof.Machine
end

