-- ==== Sys2Proof/Syntax.lean ====
section
/-! DEFINITION. The commands of the LZ-9X: one constructor for each row of opcode_table.json. -/

namespace Sys2Proof

open Sys2Proof.Machine

/-- A slot of class matrix, needle or row: its panel set and descriptor (R166). -/
structure SlotRef where
  pset : Nat
  desc : Nat
deriving DecidableEq, Repr

/-- A mover slot: its position is its mover queue (R169). -/
structure MovRef where
  queue : Nat
  pset : Nat
  desc : Nat
deriving DecidableEq, Repr

/-- An event at a panel with the physical cycles it has waited since it was last looked at (R86, R91, R94, R118). -/
structure PanelWait where
  panel : Nat
  phys : Nat
deriving DecidableEq, Repr

/-- The outcome of a training attempt (R218, R223): the lanes that trained, 0 for none; `late` if t_train has passed. -/
structure TrainOutcome where
  width : Nat
  late : Bool
deriving DecidableEq, Repr

/-- The commands. A message takes the mailbox whose rung request it starts (R335); the fields of the
request are in that mailbox's buffer. -/
inductive Instr where
  -- matrix, needle, row slots
  | prod (x : SlotRef)
  | fold (x : SlotRef)
  | chain (x : SlotRef)
  | rclr (x : SlotRef)
  | rfinMean (x : SlotRef)
  | rfinRms (x : SlotRef)
  | rfinLse (x : SlotRef)
  | rfinRmsb (x : SlotRef)
  | rfinSample (x : SlotRef)
  | rfinPick (x : SlotRef)
  | rsave (x : SlotRef)
  | rload (x : SlotRef)
  | rchainSend (x : SlotRef)
  | rchainRecv (x : SlotRef)
  -- mover slots
  | copy (x : MovRef)
  | spush (x : MovRef)
  | spop (x : MovRef)
  | apply (x : MovRef)
  | coll (x : MovRef)
  | ingest (x : MovRef)
  | ingestCopy (op : Nat)
  | emit (x : MovRef)
  | note (x : MovRef)
  | moverCompletion (queue op : Nat)
  -- stitch control
  | syncRelease (mask : Nat) (phys : Nat)
  | syncLate (queue op : Nat)
  | jump (arg gap : Nat)
  | loop (ctr arg gap : Nat)
  | setc (ctr arg gap : Nat)
  | halt (gap : Nat)
  | microSetZero
  | microAdd
  | microSetNone
  | pmark
  | grade (gp : Nat)
  | gradeRecipe (gp : Nat)
  | stepOpen (gp entropy : Nat)
  | fence (gp : Nat)
  | stepClose (gp : Nat)
  | idleStitch
  | markLatch (mark cls unit : Nat)
  -- matrix engine and tile queue events
  | bankEmit (p : Nat)
  | tilePush (e : PanelWait) (draw : Nat) (flt : List (Nat × W32))
  | chainHopArrival (e : PanelWait)
  | headEntryArrival (p phys : Nat)
  | chainComplete (p : Nat)
  -- needle instructions on panel p
  | nop (p : Nat) (a : NArgs)
  | fadd (p : Nat) (a : NArgs)
  | fsub (p : Nat) (a : NArgs)
  | fmul (p : Nat) (a : NArgs)
  | ffma (p : Nat) (a : NArgs)
  | fmin (p : Nat) (a : NArgs)
  | fmax (p : Nat) (a : NArgs)
  | fabs (p : Nat) (a : NArgs)
  | fneg (p : Nat) (a : NArgs)
  | fcmp (p : Nat) (a : NArgs)
  | sel (p : Nat) (a : NArgs)
  | iadd (p : Nat) (a : NArgs)
  | iand (p : Nat) (a : NArgs)
  | ior (p : Nat) (a : NArgs)
  | ixor (p : Nat) (a : NArgs)
  | ishl (p : Nat) (a : NArgs)
  | ishr (p : Nat) (a : NArgs)
  | f2i (p : Nat) (a : NArgs)
  | i2f (p : Nat) (a : NArgs)
  | lane (p : Nat) (a : NArgs)
  | idx (p : Nat) (a : NArgs)
  | hdr (p : Nat) (a : NArgs)
  | chalk (p : Nat) (a : NArgs)
  | perm (p : Nat) (a : NArgs)
  | bcast (p : Nat) (a : NArgs)
  | ldt (p : Nat) (a : NArgs)
  | ldb (p : Nat) (a : NArgs)
  | stb (p : Nat) (a : NArgs)
  | qnt (e : PanelWait) (a : NArgs)
  | acc (p : Nat) (a : NArgs)
  | cvt16 (p : Nat) (a : NArgs)
  | rand (p : Nat) (a : NArgs)
  | drop (p : Nat) (a : NArgs)
  | rpush (p : Nat) (a : NArgs)
  | rget (p : Nat) (a : NArgs)
  -- spool and baste events
  | spill (p phys : Nat)
  | spoolReturnDone (p phys : Nat)
  | basteCaptureDone (hub : Nat)
  | basteCaptureAbandon (hub : Nat)
  | basteCheckDone (hub : Nat) (flt : List (Nat × W32))
  | fenceHoldEnd (phys : Nat)
  | caseResolve (hub slot : Nat) (fltW fltC flt3 : List (Nat × W32))
  | fenceTimeout (rank : Nat)
  -- seam links
  | idleFlit (port : Nat) (h : FlitHdr)
  | headFlit (port : Nat) (h : FlitHdr) (b : Head)
  | dataFlit (port : Nat) (h : FlitHdr) (b : List Byte)
  | collFold (desc micro segment : Nat)
  | poisonFlit (port : Nat) (h : FlitHdr) (b : Poison)
  | voteFlit (port : Nat) (h : FlitHdr) (b : Vote)
  | gateFlit (port : Nat) (h : FlitHdr) (wake : Bool)
  | hello (port : Nat) (h : FlitHdr) (b : Ident) (nonce : Nat)
  | proof (port : Nat) (h : FlitHdr) (b : Ident) (nonce : Nat)
  | reservedFlit (port : Nat) (h : FlitHdr)
  | badFlit (port : Nat)
  | seamReplay (port : Nat)
  | helloTimer (port nonce : Nat)
  | fitTimeout (port : Nat)
  | linkTraining (port : Nat) (r : TrainOutcome) (nonce : Nat)
  | laneWake (port : Nat)
  | portTest (port : Nat) (pass : Bool)
  -- hemline and Ethernet
  | write (k : Pkt) (bs : List Byte)
  | ready (k : Pkt) (count : Nat)
  | hemlineFence (k : Pkt)
  | fenceW (flow psn : Nat)
  | fenceAll (flow psn : Nat)
  | ack (k : Pkt) (b : AckBody)
  | ctrl (k : Pkt) (mailbox : Nat) (ring abort : Bool) (off : Nat) (bs : List Byte)
  | mbAbort (mailbox : Nat)
  | setupOffer (b : Setup) (answerNonce : Nat)
  | setupFinish (b : Setup)
  | close (k : Pkt)
  | arp (x : PortFrame) (target : Nat)
  | neighborDiscovery (x : PortFrame) (target : Nat)
  | icmpEcho (x : PortFrame)
  | pfc (x : PortFrame) (mask : Nat)
  | droppedFrame (port : Nat) (c : DropCause)
  | ackDelayExpiry (flow : Nat)
  | retransmitTimeout (flow : Nat)
  | ratePeriod (flow : Nat)
  | flowTimeout (flow : Nat)
  | hostLinkUp (port : Nat)
  | hostLinkDown (port : Nat)
  | mailboxClaimTimeout (mailbox : Nat)
  | sessionIdleTimeout (session : Nat)
  | setupExpiry (port addr : Nat)
  | epochAgeLimit (session : Nat)
  | epochGraceEnd (session : Nat)
  -- mailbox messages
  | identify (m : Nat)
  | jobLoadBegin (m : Nat)
  | jobLoadCommit (m : Nat)
  | jobRelease (m : Nat)
  | jobEnd (m : Nat)
  | jobStatus (m : Nat)
  | recipeSet (m : Nat)
  | flagClear (m : Nat)
  | remap (m : Nat)
  | baseLoadBegin (m : Nat)
  | baseLoadCommit (m : Nat)
  | flowOpen (m : Nat)
  | flowClose (m : Nat)
  | flowStatus (m : Nat)
  | snapshot (m : Nat)
  | snapshotCancel (m : Nat)
  | restore (m : Nat)
  | snapshotPageCopy (page : Nat)
  | restoreChunk (chunk : Nat)
  | spare (m : Nat)
  | spareExit (m : Nat)
  | fill (m : Nat)
  | drain (m : Nat)
  | undrain (m : Nat)
  | selfTest (m : Nat)
  | hibernate (m : Nat)
  | wake (m : Nat)
  | powerBudget (m : Nat)
  | coolingReport (m : Nat)
  | sensorRead (m : Nat)
  | sensorClear (m : Nat)
  | lifetimeRead (m : Nat)
  | txnBegin (m : Nat)
  | txnSet (m : Nat)
  | txnCommit (m : Nat)
  | txnRollback (m : Nat)
  | txnCommitPoint
  | txnExpired
  | configGet (m : Nat)
  | calRead (m : Nat)
  | eventRead (m : Nat)
  | markRequest (m : Nat)
  | counterRead (m : Nat)
  | frayReportRead (m : Nat)
  | verdictRead (m : Nat)
  | drainRecordRead (m : Nat)
  | alertCauses (m : Nat)
  | noteWatch (m : Nat)
  | noteRead (m : Nat)
  | traceRead (m : Nat)
  | memInject (m : Nat)
  | portRetrain (m : Nat)
  | certRead (m : Nat)
  | attest (m : Nat)
  | ownerSet (m : Nat)
  | keyUpdate (m : Nat)
  | sessionEnd (m : Nat)
  | fwBegin (m : Nat)
  | fwCommit (m : Nat)
  | fwActivate (m : Nat)
  | fwConfirm (m : Nat)
  | fwStatus (m : Nat)
  | clearRecordRead (m : Nat)
  | registerAccess (source : Nat)
  -- memory, clearing, scan
  | scrubRead (bolt : Bool) (unit : Nat) (overwritten : Bool)
  | memCeRate (bolt : Bool) (unit : Nat)
  | lpddrTracking (channel : Nat)
  | clearingDone (nonzero : Bool)
  | scanDone (r : ScanResult)
  | clearSigned
  | spareScan
  | thimbleLockstep
  -- power
  | powerWindow (p pCore vIn vCore : Nat)
  | capUnmet
  | budgetExpired
  -- heat
  | sensorSample (rs : List SensorRead)
  | sensorSkew (panel : Nat)
  | sensorSuspect (panel : Nat)
  | forcedStateEnd
  | thetaUpdate (pMean : Nat) (tjMean : Int) (steady : Bool)
  | coolStale
  | coolReportSkew
  -- pinches and clocks
  | pinch (sleeve : Nat)
  | pinchEnd (sleeve : Nat) (stillLow : Bool)
  | pinchRate (sleeve count : Nat)
  | clockSwitch
  | gradeDeferred
  | clockTrim (island : Nat)
  -- start-up, pins, entry
  | power72vPresent (p : PowerUp)
  | firmwareVerify (badConfig : List Nat)
  | pwrEnAssert
  | pwrEnRemove
  | resetNAssert (p : ResetPulse)
  | resetNRelease (sbRxLow : Bool)
  | pwrGood (slotId : Nat)
  | lpddrTraining (failed repaired values : List Nat)
  | boltSelfTest (slices layers : List Nat)
  | startUpComplete
  | railFault
  | undervoltage
  | overvoltage
  | overcurrent
  | overcurrentLatchRelease
  | power72vRemoved
  | trialTimeout
  | recoveryFrame (bs : List Byte) (crc : Nat)
  -- test access port
  | idcode
  | bypass
  | samplePreload (bits : Nat)
  | extest (bits : Nat)
  | next (gap : Nat)
deriving DecidableEq, Repr

end Sys2Proof
end

