-- ==== Sys2Proof/Decode.lean ====
section
/-! DEFINITION. The commands spelled by words: opcode_table.json gives no row any bits, so no word
spells a command. -/

namespace Sys2Proof

/-- The command that a word of a table row spells: none (log entry 12). -/
def decodeTableWord (_nbits _w : Nat) : Option Instr := none

end Sys2Proof
end

