-- ==== Sys2Proof/Machine/Crypto.lean ====
section
/-! DEFINITION. AES-128 (FIPS 197) of the counter-based streams, R71; SHA-384 of the digests, R181,
R305, R342, R366; CRC-32 of R213. The standards are named by the spec. -/

namespace Sys2Proof.Machine

/-! ### AES-128 -/

/-- Multiplication by x in GF(2^8) with the AES polynomial x^8 + x^4 + x^3 + x + 1. -/
def aesX (a : Nat) : Nat := if a < 128 then 2 * a else Nat.xor (2 * a - 256) 0x1B

def aesMulGo : Nat → Nat → Nat → Nat
  | 0, _, _ => 0
  | n + 1, a, b => Nat.xor (if b % 2 = 1 then a else 0) (aesMulGo n (aesX a) (b / 2))

def aesMul (a b : Nat) : Nat := aesMulGo 8 a b

/-- a^254, the inverse (0 for 0). -/
def aesInv (a : Nat) : Nat :=
  let a2 := aesMul a a
  let a3 := aesMul a2 a
  let a6 := aesMul a3 a3
  let a12 := aesMul a6 a6
  let a15 := aesMul a12 a3
  let a30 := aesMul a15 a15
  let a60 := aesMul a30 a30
  let a120 := aesMul a60 a60
  let a240 := aesMul a120 a120
  aesMul a240 (aesMul a12 a2)

def rotl8 (a k : Nat) : Nat := (a * 2 ^ k) % 256 + a / 2 ^ (8 - k)

def aesSub (a : Nat) : Nat :=
  let b := aesInv a
  Nat.xor 0x63 (Nat.xor b (Nat.xor (rotl8 b 1) (Nat.xor (rotl8 b 2) (Nat.xor (rotl8 b 3) (rotl8 b 4)))))

/-- The next four key words from the last four. -/
def aesNextKey (rcon : Nat) (k : List Nat) : List Nat :=
  let t := [Nat.xor (aesSub (k.getD 13 0)) rcon, aesSub (k.getD 14 0), aesSub (k.getD 15 0),
    aesSub (k.getD 12 0)]
  let w0 := List.zipWith Nat.xor (k.take 4) t
  let w1 := List.zipWith Nat.xor ((k.drop 4).take 4) w0
  let w2 := List.zipWith Nat.xor ((k.drop 8).take 4) w1
  let w3 := List.zipWith Nat.xor (k.drop 12) w2
  w0 ++ w1 ++ w2 ++ w3

/-- ShiftRows over the column-major state. -/
def aesShiftRows (s : List Nat) : List Nat :=
  (List.range 16).map (fun i => s.getD ((i + 4 * (i % 4)) % 16) 0)

def aesMixCol (c : List Nat) : List Nat :=
  (List.range 4).map (fun i =>
    Nat.xor (aesX (c.getD i 0))
      (Nat.xor (Nat.xor (aesX (c.getD ((i + 1) % 4) 0)) (c.getD ((i + 1) % 4) 0))
        (Nat.xor (c.getD ((i + 2) % 4) 0) (c.getD ((i + 3) % 4) 0))))

def aesMix (s : List Nat) : List Nat :=
  aesMixCol (s.take 4) ++ aesMixCol ((s.drop 4).take 4) ++ aesMixCol ((s.drop 8).take 4)
    ++ aesMixCol (s.drop 12)

/-- `n` rounds, the last without MixColumns. -/
def aesRounds : Nat → Nat → List Nat → List Nat → List Nat
  | 0, _, _, s => s
  | n + 1, rcon, k, s =>
    let k' := aesNextKey rcon k
    let t := aesShiftRows (s.map aesSub)
    aesRounds n (aesX rcon) k' (List.zipWith Nat.xor (if n = 0 then t else aesMix t) k')

def bytes16 (n : Nat) : List Nat := (List.range 16).map (fun i => n / 2 ^ (8 * (15 - i)) % 256)
def ofBytesBE (bs : List Nat) : Nat := bs.foldl (fun a b => a * 256 + b) 0

/-- AES-128 encryption of a block under a key, both as 128-bit numbers with byte 0 highest (R71). -/
def aes128 (key block : Nat) : Nat :=
  ofBytesBE (aesRounds 10 1 (bytes16 key) (List.zipWith Nat.xor (bytes16 block) (bytes16 key)))

/-- The counter block of R71. -/
def drawBlock (step micro tag group : Nat) : Nat :=
  step % 2 ^ 32 * 2 ^ 96 + micro % 2 ^ 16 * 2 ^ 80 + tag % 2 ^ 12 * 2 ^ 68 + group % 2 ^ 68

/-- The draw of element `x` (R71, R72): word x mod 4 of the output for group x / 4. -/
def drawAt (seed step micro tag x : Nat) : W32 :=
  BitVec.ofNat 32 (aes128 seed (drawBlock step micro tag (x / 4)) / 2 ^ (32 * (3 - x % 4)))

/-! ### SHA-384 -/

/-- The integer `k`-th root (k = 2 or 3) of `n`, below `2^b`. -/
def irootGo (k : Nat) : Nat → Nat → Nat → Nat
  | 0, _, r => r
  | b + 1, n, r => irootGo k b n (if (r + 2 ^ b) ^ k ≤ n then r + 2 ^ b else r)

def isPrime (n : Nat) : Bool := n ≥ 2 && (List.range (n - 2)).all (fun d => n % (d + 2) != 0)
def primes80 : List Nat := ((List.range 410).filter isPrime).take 80

/-- The first 64 bits of the fractional part of the cube roots of the first 80 primes. -/
def sha512K : List Nat := primes80.map (fun p => irootGo 3 68 (p * 2 ^ 192) 0 % 2 ^ 64)
/-- The first 64 bits of the fractional parts of the square roots of the 9th to 16th primes. -/
def sha384H : List Nat :=
  ((primes80.drop 8).take 8).map (fun p => irootGo 2 68 (p * 2 ^ 128) 0 % 2 ^ 64)

def rotr64 (x k : Nat) : Nat := x / 2 ^ k + x % 2 ^ k * 2 ^ (64 - k)
def shaCh (x y z : Nat) : Nat := Nat.xor (Nat.land x y) (Nat.land (Nat.xor x (2 ^ 64 - 1)) z)
def shaMaj (x y z : Nat) : Nat := Nat.xor (Nat.land x y) (Nat.xor (Nat.land x z) (Nat.land y z))
def shaS0 (x : Nat) : Nat := Nat.xor (rotr64 x 28) (Nat.xor (rotr64 x 34) (rotr64 x 39))
def shaS1 (x : Nat) : Nat := Nat.xor (rotr64 x 14) (Nat.xor (rotr64 x 18) (rotr64 x 41))
def shas0 (x : Nat) : Nat := Nat.xor (rotr64 x 1) (Nat.xor (rotr64 x 8) (x / 2 ^ 7))
def shas1 (x : Nat) : Nat := Nat.xor (rotr64 x 19) (Nat.xor (rotr64 x 61) (x / 2 ^ 6))

/-- One round for each constant; `w` is the window of the next 16 message words. -/
def shaRounds : List Nat → List Nat → List Nat → List Nat
  | [], _, v => v
  | k :: ks, w, v =>
    let g := fun i => v.getD i 0
    let t1 := (g 7 + shaS1 (g 4) + shaCh (g 4) (g 5) (g 6) + k + w.getD 0 0) % 2 ^ 64
    let t2 := (shaS0 (g 0) + shaMaj (g 0) (g 1) (g 2)) % 2 ^ 64
    let nw := (shas1 (w.getD 14 0) + w.getD 9 0 + shas0 (w.getD 1 0) + w.getD 0 0) % 2 ^ 64
    shaRounds ks (w.drop 1 ++ [nw])
      [(t1 + t2) % 2 ^ 64, g 0, g 1, g 2, (g 3 + t1) % 2 ^ 64, g 4, g 5, g 6]

def shaBlocks : Nat → List Nat → List Nat → List Nat
  | 0, _, h => h
  | n + 1, bs, h =>
    let w := (List.range 16).map (fun i => ofBytesBE ((bs.drop (8 * i)).take 8))
    shaBlocks n (bs.drop 128)
      (List.zipWith (fun a b => (a + b) % 2 ^ 64) h (shaRounds sha512K w h))

/-- SHA-384 of a byte string, as a 384-bit number with byte 0 highest. -/
def sha384 (bs : List Byte) : Nat :=
  let n := bs.length
  let pad := (239 - n % 128) % 128
  let msg := bs.map BitVec.toNat ++ [0x80] ++ List.replicate pad 0
    ++ (List.range 16).map (fun i => (8 * n) / 2 ^ (8 * (15 - i)) % 256)
  (shaBlocks (msg.length / 128) msg sha384H |>.take 6).foldl (fun a w => a * 2 ^ 64 + w) 0

/-! ### CRC-32 of the IEEE 802.3 frame check sequence (R213) -/

def crcBit : Nat → Nat → Nat
  | 0, c => c
  | n + 1, c => crcBit n (if c % 2 = 1 then Nat.xor (c / 2) 0xEDB88320 else c / 2)

def crc32 (bs : List Byte) : Nat :=
  Nat.xor 0xFFFFFFFF (bs.foldl (fun c b => crcBit 8 (Nat.xor c b.toNat)) 0xFFFFFFFF)

end Sys2Proof.Machine
end

