-- ==== Sys2Proof/Config.lean ====
section
/-! DEFINITION. The member's fixed parameters (R17, R25, LZ-9X column) and the open values of the
spec: uninterpreted constants, so that no proof can see a value of them. -/

namespace Sys2Proof.Config

/-- Sleeves of the member (R25). -/
def sleeves : Nat := 16
/-- Panels of the member (R25). -/
def panels : Nat := 256
/-- LPDDR5X channels (R25). -/
def channels : Nat := 128
/-- Usable bytes of one channel (R186). -/
def channelBytes : Nat := 0x1C0000000
/-- Bytes of one bolt slice (R186). -/
def sliceBytes : Nat := 0x2000000
/-- Start of bolt memory (R186). -/
def boltBase : Nat := 0xE000000000
/-- Start of the panel-local window (R186). -/
def localBase : Nat := 0xF000000000
/-- Panel set table entries (R25). -/
def panelSets : Nat := 1024
/-- Tensor descriptor table entries (R25). -/
def descriptors : Nat := 16384
/-- Fray counter tensor tags (R25). -/
def tensorTags : Nat := 4096
/-- Hemline flow contexts (R25). -/
def flowContexts : Nat := 262144
/-- Spare rows of each of the four SRAM layers of a bolt slice (R201). -/
def spareRows : Nat := 32

/-- A free 64-bit value: nothing constrains it (log entry 2). -/
opaque freeValue : Nat → BitVec 64
/-- The SRAM layer of its slice in which a bolt line's row lies (R201): the spec does not place rows (log entry 70). -/
opaque rowLayer : Nat → Fin 4
/-- CYCLE of an event record of a source (R353, R355): physical cycles, not modelled (log entry 3). -/
opaque cycle : Nat → Nat → BitVec 64
/-- Argument i of a trace record (R352, R353): the spec names none (log entry 2). -/
opaque traceWord : Nat → Nat → BitVec 32
/-- The factory's calibrated minimum V_cal of a grade in mV (R263): each module's own (log entry 4). -/
opaque vCal : Nat → Nat
/-- The factory offset of a sensor, 0.1 °C units (R351). -/
opaque sensorOffset : Nat → Int
/-- The factory's LPDDR5X training base of a channel (R351): each module's own (log entry 4). -/
opaque trainingBase : Nat → Nat
/-- What the boundary-scan register captures of the sideband pins' levels (R394): its cells are in a description file
that the spec does not give (log entry 2). -/
opaque scanCells : List Bool → Nat
/-- The serial number of the module (R222, R368). -/
opaque moduleId : BitVec 64
/-- The two MAC addresses (R238). -/
opaque macAddr : Nat → BitVec 48
/-- The private scalar of the device identity key, and the certificate chain in DER (R368). -/
opaque identityScalar : Nat
opaque certChain : List (BitVec 8)
/-- The random number of the signature of a message, and the private scalar of the device's ephemeral key of a setup
(R369): each the device's own (log entry 5). -/
opaque signRandom : List (BitVec 8) → Nat
opaque ephemeralScalar : Nat → Nat
/-- The payload of a GATE flit (R220): the spec gives it no layout (log entry 71). -/
opaque gatePayload : Bool → List (BitVec 8)
/-- Whether a certificate chain ends at one of the given anchors; whether it ends at the Kwadeaz root
(R306, R368, R370); the key of its first certificate. -/
opaque chainTo : List (BitVec 8) → List (List (BitVec 8)) → Bool
opaque chainToRoot : List (BitVec 8) → Bool
opaque chainKey : List (BitVec 8) → List (BitVec 8)
/-- The SHA-384 digests of the four firmware keys in ROM (R364). -/
opaque romKey : Nat → Nat
/-- The bytes of the state block numbered `n`, byte by byte, and its lines of 64 bytes less one: its
layout is internal to Apgiosh (R298). -/
opaque stateByte : Nat → Nat → BitVec 8
opaque stateLines : Nat → Nat
/-- Bytes of a state block: a multiple of 64, at most 4 MiB (R298, R305). -/
def stateLen (n : Nat) : Nat := 64 * (1 + stateLines n % 65536)

end Sys2Proof.Config
end

