-- ==== Sys2Proof/Machine/Ecc.lean ====
section
/-! DEFINITION. The cryptography of 17_security_and_firmware.md: P-384 with ECDSA and ECDH (FIPS 186, SEC 1), HMAC and
HKDF with SHA-384 (RFC 2104, RFC 5869), AES-256-GCM (FIPS 197, SP 800-38D). Private keys and the random numbers of
signatures are constants without a body (log entry 5). -/

namespace Sys2Proof.Machine

open Sys2Proof.Config

/-- A big-endian number, and `n` big-endian bytes: digests, keys and hemline headers (R6). -/
def beNat (bs : List Byte) : Nat := bs.foldl (fun a b => 256 * a + b.toNat) 0
def beBytes (n v : Nat) : List Byte := (List.range n).map (fun i => BitVec.ofNat 8 (v / 256 ^ (n - 1 - i) % 256))

/-! ### P-384 -/

/-- The field prime, the coefficient b (a is −3) and the order of the base point. -/
def p384 : Nat := 2 ^ 384 - 2 ^ 128 - 2 ^ 96 + 2 ^ 32 - 1
def p384b : Nat :=
  0xB3312FA7E23EE7E4988E056BE3F82D19181D9C6EFE8141120314088F5013875AC656398D8A2ED19D2A85C8EDD3EC2AEF
def p384n : Nat :=
  0xFFFFFFFFFFFFFFFFFFFFFFFFFFFFFFFFFFFFFFFFFFFFFFFFC7634D81F4372DDF581A0DB248B0A77AECEC196ACCC52973

/-- x^e modulo m; `k` bits of e. -/
def powMod (m : Nat) : Nat → Nat → Nat → Nat
  | 0, _, _ => 1 % m
  | k + 1, x, e =>
    let r := powMod m k (x * x % m) (e / 2)
    if e % 2 = 1 then x * r % m else r

/-- The inverse modulo a prime. -/
def invMod (m x : Nat) : Nat := powMod m 384 (x % m) (m - 2)

/-- A point of the curve other than the one at infinity: its coordinates. -/
abbrev EcPoint : Type := Nat × Nat

/-- The base point. -/
def p384g : EcPoint :=
  (0xAA87CA22BE8B05378EB1C71EF320AD746E1D3B628BA79B9859F741E082542A385502F25DBF55296C3A545E3872760AB7,
   0x3617DE4A96262C6F5D9E98BF9292DC29F8F41DBD289A147CE9DA3113B5F0B8C00A60B1CE1D7E819D7A431D7C90EA0E5F)

/-- x³ − 3x + b. -/
def curveRight (x : Nat) : Nat := (x * x % p384 * x + (p384 - 3) * x + p384b) % p384

/-- The point of a slope l through points with abscissas x1 and x2, the first of ordinate y1. -/
def chordPoint (l x1 y1 x2 : Nat) : EcPoint :=
  let x := (l * l + (p384 - x1) + (p384 - x2)) % p384
  (x, (l * (x1 + (p384 - x)) + (p384 - y1)) % p384)

/-- The group law; `none` is the point at infinity. -/
def ecAdd : Option EcPoint → Option EcPoint → Option EcPoint
  | none, q => q
  | p, none => p
  | some (x1, y1), some (x2, y2) =>
    if x1 = x2 then
      if (y1 + y2) % p384 = 0 then none
      else some (chordPoint ((3 * x1 * x1 + (p384 - 3)) * invMod p384 (2 * y1) % p384) x1 y1 x2)
    else some (chordPoint ((y2 + (p384 - y1)) * invMod p384 (x2 + (p384 - x1)) % p384) x1 y1 x2)

/-- k times a point; `n` bits of k. -/
def ecMul : Nat → Nat → Option EcPoint → Option EcPoint
  | 0, _, _ => none
  | n + 1, k, q =>
    let r := ecMul n (k / 2) (ecAdd q q)
    if k % 2 = 1 then ecAdd q r else r

def ecTimes (k : Nat) (q : EcPoint) : Option EcPoint := ecMul 384 k (some q)

/-- The 49 bytes of a compressed point (R222). -/
def ecBytes : Option EcPoint → List Byte
  | none => List.replicate 49 0#8
  | some (x, y) => (if y % 2 = 0 then 2#8 else 3#8) :: beBytes 48 x

/-- The point of 49 bytes, if they are a valid compressed point. -/
def ecPoint (bs : List Byte) : Option EcPoint :=
  let x := beNat (bs.drop 1)
  let y := powMod p384 384 (curveRight x) ((p384 + 1) / 4)
  let sgn := (bs.getD 0 0#8).toNat
  if bs.length = 49 ∧ (sgn = 2 ∨ sgn = 3) ∧ x < p384 ∧ y * y % p384 = curveRight x ∧ (y ≠ 0 ∨ sgn = 2) then
    some (x, if y % 2 = sgn % 2 then y else p384 - y)
  else none

/-- Whether 49 bytes are a valid compressed P-384 point (R380). -/
def validPoint (bs : List Byte) : Bool := (ecPoint bs).isSome

/-! ### ECDSA and ECDH -/

/-- A private scalar of a constant without a body: 1 to n − 1. -/
def scalarOf (k : Nat) : Nat := 1 + k % (p384n - 1)

/-- ECDSA P-384 with SHA-384: r, then s, 96 bytes. The random number of a signature is a free value of the message. -/
def sign (msg : List Byte) : List Byte :=
  let k := scalarOf (signRandom msg)
  let r := match ecTimes k p384g with | some q => q.1 % p384n | none => 0
  let s := invMod p384n k * (sha384 msg + r * scalarOf identityScalar) % p384n
  beBytes 48 r ++ beBytes 48 s

/-- A signature of 96 bytes checks against a key of 49 bytes. -/
def verify (key msg sig : List Byte) : Bool :=
  let r := beNat (sig.take 48)
  let s := beNat (sig.drop 48)
  let w := invMod p384n s
  match ecPoint key with
  | none => false
  | some q =>
    sig.length == 96 && decide (0 < r) && decide (r < p384n) && decide (0 < s) && decide (s < p384n) &&
      (match ecAdd (ecTimes (sha384 msg * w % p384n) p384g) (ecTimes (r * w % p384n) q) with
      | some v => v.1 % p384n == r
      | none => false)

/-- The device identity key, as the 49 bytes of R222 (R368). -/
def identityKey : List Byte := ecBytes (ecTimes (scalarOf identityScalar) p384g)

/-- The device's ephemeral key of a setup, as 49 bytes (R369). -/
def ephemeralKey (nonce : Nat) : List Byte := ecBytes (ecTimes (scalarOf (ephemeralScalar nonce)) p384g)

/-- The ECDH shared secret with a far ephemeral key, 48 bytes (R372); empty where the key is no point. -/
def sharedSecret (nonce : Nat) (far : List Byte) : List Byte :=
  match (ecPoint far).bind (ecTimes (scalarOf (ephemeralScalar nonce))) with
  | some q => beBytes 48 q.1
  | none => []

/-! ### HMAC and HKDF -/

def sha384Bytes (bs : List Byte) : List Byte := beBytes 48 (sha384 bs)

/-- HMAC-SHA-384: blocks of 128 bytes. -/
def hmac (key msg : List Byte) : List Byte :=
  let k := if 128 < key.length then sha384Bytes key else key
  let k128 := k ++ List.replicate (128 - k.length) 0#8
  sha384Bytes (k128.map (fun b => b ^^^ 0x5C#8) ++ sha384Bytes (k128.map (fun b => b ^^^ 0x36#8) ++ msg))

/-- HKDF (R372): extraction, and expansion to at most 48 bytes. -/
def hkdfExtract (salt ikm : List Byte) : List Byte := hmac salt ikm
def hkdfExpand (prk info : List Byte) (n : Nat) : List Byte := (hmac prk (info ++ [1#8])).take n

/-! ### AES-256-GCM -/

/-- The next eight key words from the last eight. -/
def aes256NextKey (rcon : Nat) (k : List Nat) : List Nat :=
  let w0 := List.zipWith Nat.xor (k.take 4)
    [Nat.xor (aesSub (k.getD 29 0)) rcon, aesSub (k.getD 30 0), aesSub (k.getD 31 0), aesSub (k.getD 28 0)]
  let w1 := List.zipWith Nat.xor ((k.drop 4).take 4) w0
  let w2 := List.zipWith Nat.xor ((k.drop 8).take 4) w1
  let w3 := List.zipWith Nat.xor ((k.drop 12).take 4) w2
  let w4 := List.zipWith Nat.xor ((k.drop 16).take 4) (w3.map aesSub)
  let w5 := List.zipWith Nat.xor ((k.drop 20).take 4) w4
  let w6 := List.zipWith Nat.xor ((k.drop 24).take 4) w5
  let w7 := List.zipWith Nat.xor ((k.drop 28).take 4) w6
  w0 ++ w1 ++ w2 ++ w3 ++ w4 ++ w5 ++ w6 ++ w7

/-- The round keys 2 to 15, two from each step of the schedule. -/
def aes256Keys : Nat → Nat → List Nat → List (List Nat)
  | 0, _, _ => []
  | n + 1, rcon, k =>
    let k' := aes256NextKey rcon k
    k'.take 16 :: k'.drop 16 :: aes256Keys n (aesX rcon) k'

/-- The rounds under a list of round keys, the last without MixColumns. -/
def aesRoundsWith : List (List Nat) → List Nat → List Nat
  | [], s => s
  | k :: ks, s =>
    let t := aesShiftRows (s.map aesSub)
    aesRoundsWith ks (List.zipWith Nat.xor (if ks.isEmpty then t else aesMix t) k)

/-- AES-256 of a block of 16 bytes. -/
def aes256 (key block : List Byte) : Nat :=
  let k := key.map BitVec.toNat
  ofBytesBE (aesRoundsWith (k.drop 16 :: (aes256Keys 7 1 k).take 13) (List.zipWith Nat.xor (block.map BitVec.toNat) (k.take 16)))

/-- Multiplication in GF(2^128) of SP 800-38D, bit 0 of a block its most significant: `n` bits of x, from the first. -/
def gcmMulGo : Nat → Nat → Nat → Nat → Nat
  | 0, _, _, z => z
  | n + 1, x, v, z =>
    gcmMulGo n x (if v % 2 = 1 then Nat.xor (v / 2) (0xE1 * 2 ^ 120) else v / 2)
      (if x / 2 ^ n % 2 = 1 then Nat.xor z v else z)

def gcmMul (x y : Nat) : Nat := gcmMulGo 128 x y 0

/-- Bytes padded with zeros to whole blocks, as blocks; `n` bounds their number. -/
def gcmBlocks : Nat → List Byte → List Nat
  | 0, _ => []
  | n + 1, bs =>
    if bs.isEmpty then []
    else
      let b := bs.take 16
      beNat (b ++ List.replicate (16 - b.length) 0#8) :: gcmBlocks n (bs.drop 16)

/-- GHASH under the hash key h. -/
def ghash (h : Nat) (xs : List Nat) : Nat := xs.foldl (fun y x => gcmMul (Nat.xor y x) h) 0

/-- The key stream of block i under a 12-byte nonce. -/
def gcmStream (key nonce : List Byte) (i : Nat) : List Byte := beBytes 16 (aes256 key (nonce ++ beBytes 4 i))

/-- Encryption, which is its own inverse (R240, R241). -/
def gcmSeal (key nonce bs : List Byte) : List Byte :=
  List.zipWith (· ^^^ ·) bs ((List.range (bs.length / 16 + 1)).flatMap (fun i => gcmStream key nonce (i + 2)))

/-- The tag over a header and a ciphertext, 16 bytes (R240, R241). -/
def gcmTag (key nonce head body : List Byte) : List Byte :=
  let s := ghash (aes256 key (List.replicate 16 0#8))
    (gcmBlocks (head.length / 16 + 1) head ++ gcmBlocks (body.length / 16 + 1) body ++
      [8 * head.length * 2 ^ 64 + 8 * body.length])
  beBytes 16 (Nat.xor s (aes256 key (nonce ++ beBytes 4 1)))

end Sys2Proof.Machine
end

