-- ==== Sys2Proof/Machine/RefOrder.lean ====
section
/-! DEFINITION. The reference order of operations: runs, promotion, outlier terms, slices, ranks and
reductions, 03_reference_arithmetic.md R54 to R67. -/

namespace Sys2Proof.Machine

/-- One contraction element of an operand: the stored code's split (R56), the value of R28 (or of the
L16 or F32 element) and the outlier entry there, if any. -/
structure Elem where
  neg : Bool := false
  M : Nat := 0
  k : Int := 0
  val : F32 := 0#32
  outl : Option L16 := none
deriving DecidableEq, Repr

/-- An operand along its contraction axis: elements, and one scale byte for each block. -/
structure Line where
  fmt : Fmt
  elems : List Elem
  scales : List Byte
deriving DecidableEq, Repr

/-- The format pairs of R55. -/
inductive Pair where
  | l4l4 | l8l4 | l8l8 | l16l16
deriving DecidableEq, Repr

def pairOf (a b : Fmt) : Option Pair :=
  match a, b with
  | .l4, .l4 => some .l4l4
  | .l8e, .l4 | .l8g, .l4 | .l4, .l8e | .l4, .l8g => some .l8l4
  | .l8e, .l8e | .l8e, .l8g | .l8g, .l8e | .l8g, .l8g => some .l8l8
  | .l16, .l16 => some .l16l16
  | _, _ => none

/-- Run length L (R55). -/
def runLen : Pair → Nat
  | .l4l4 => 32 | .l8l4 | .l8l8 => 16 | .l16l16 => 1

/-- Full tile K_t × N_t and output columns per column slice (R77). -/
def pairKt : Pair → Nat
  | .l4l4 => 128 | _ => 64
def pairNt : Pair → Nat
  | .l4l4 | .l8l4 => 128 | .l8l8 => 64 | .l16l16 => 16
def pairSliceCols : Pair → Nat
  | .l4l4 | .l8l4 => 16 | .l8l8 => 8 | .l16l16 => 2

/-- RUNS and TRUNC are kept in slot L8g when either operand is L8g, in slot L8e otherwise (R51). -/
def runSlot (a b : Fmt) : Nat := if a = .l8g ∨ b = .l8g then 2 else 1

/-- A term of R56 to R58: sign, p, k. An outlier position has p = 0. -/
def runTerm (a b : Elem) : Bool × Nat × Int :=
  let ma := if a.outl.isSome then 0 else a.M
  let mb := if b.outl.isSome then 0 else b.M
  (a.neg != b.neg, ma * mb, a.k + b.k)

/-- The aligned integer of an L8 term at k_max, truncated toward zero, and whether it lost a bit
(R58). -/
def alignTerm (kmax : Int) (t : Bool × Nat × Int) : Int × Bool :=
  let sh : Int := t.2.2 - kmax + 16
  let mag := if sh ≥ 0 then t.2.1 * 2 ^ sh.toNat else t.2.1 / 2 ^ (-sh).toNat
  let lost := decide (sh < 0) && decide (t.2.1 % 2 ^ (-sh).toNat ≠ 0)
  (if t.1 then -(mag : Int) else (mag : Int), lost)

/-- Promotion of a nonzero run sum `S` with exponent `e` (R60): RNE(S × c_r) × 2^(q + e). -/
def promote (S e : Int) (sa sb : Byte) : F32 :=
  if S = 0 then 0#32
  else
    let n := scaleInt sa + scaleInt sb
    f32Scale (f32OfDy (dyMul ⟨S, 0⟩ (f32Dy (notchConst (notchR n))))) (notchQ n + e)

/-- The promoted value of a run, with its RUNS and TRUNC counts (R57, R58, R60, R61). -/
def runValue (p : Pair) (a b : List Elem) (sa sb : Byte) : F32 × Nat × Nat :=
  match p with
  | .l16l16 => (match a, b with
    | x :: _, y :: _ => (f32Mul x.val y.val, 0, 0)
    | _, _ => (0#32, 0, 0))
  | .l4l4 =>
    if sa = scaleZero ∨ sb = scaleZero then (0#32, 0, 0)
    else
      let S := ((List.zipWith runTerm a b).map (fun t =>
        let v : Int := (t.2.1 * 2 ^ (t.2.2 + 2).toNat : Nat)
        if t.1 then -v else v)).sum
      (promote S (-2) sa sb, 0, 0)
  | _ =>
    if sa = scaleZero ∨ sb = scaleZero then (0#32, 1, 0)
    else
      let ts := List.zipWith runTerm a b
      let nz := ts.filter (fun t => t.2.1 ≠ 0)
      match nz with
      | [] => (0#32, 1, 0)
      | t :: rest =>
        let kmax := rest.foldl (fun m u => max m u.2.2) t.2.2
        let al := ts.map (alignTerm kmax)
        (promote ((al.map Prod.fst).sum) (kmax - 16) sa sb, 1,
          if al.any Prod.snd then 1 else 0)

/-- The value of an element in an outlier term (R62). -/
def outlVal (e : Elem) : F32 :=
  match e.outl with
  | some v => l16ToF32 v
  | none => e.val

/-- The outlier terms of a run, in ascending index (R62). -/
def outlierTerms (a b : List Elem) : List F32 :=
  (List.zip a b).filterMap (fun (x, y) =>
    if x.outl.isSome || y.outl.isSome then some (f32Mul (outlVal x) (outlVal y)) else none)

/-- Run `j` of a line: its elements and the scale byte of its block's group. A short last run is
padded with zero elements (R37). -/
def lineRun (p : Pair) (l : Line) (j : Nat) : List Elem × Byte :=
  let L := runLen p
  let es := (l.elems.drop (j * L)).take L
  (es ++ List.replicate (L - es.length) ({} : Elem), l.scales.getD (j * L / fmtBlock l.fmt) 0#8)

/-- The addends of run `j`: the promoted value, then its outlier terms (R63), with the counts. -/
def runAddends (p : Pair) (a b : Line) (j : Nat) : List F32 × Nat × Nat :=
  let (ea, sa) := lineRun p a j
  let (eb, sb) := lineRun p b j
  let (v, r, t) := runValue p ea eb sa sb
  (v :: outlierTerms ea eb, r, t)

/-- F32 addition of a list onto a start, in order (R63). -/
def f32Sum (start : F32) (xs : List F32) : F32 := xs.foldl f32Add start

/-- Runs of a contraction of extent `K` (R55). -/
def runCount (p : Pair) (K : Nat) : Nat := (K + runLen p - 1) / runLen p

/-- The slice partials of runs `lo` to `hi − 1`, slices of `sr` runs starting at `lo`, with RUNS and
TRUNC (R63). -/
def slicePartials (p : Pair) (a b : Line) (sr lo hi : Nat) : List F32 × Nat × Nat :=
  let runs := (List.range (hi - lo)).map (fun i => runAddends p a b (lo + i))
  let groups := chunks sr runs.length runs
  (groups.map (fun g => f32Sum 0#32 ((g.map (fun r => r.1)).flatten)),
   (runs.map (fun r => r.2.1)).sum, (runs.map (fun r => r.2.2)).sum)

/-- The rank sum: slice partials added in ascending order to a start (R63, R81). -/
def rankSum (start : F32) (partials : List F32) : F32 := f32Sum start partials

/-- The whole reference product of one element over rank ranges given as run boundaries (R63, R64). -/
def dotRanks (p : Pair) (a b : Line) (sr : Nat) : List (Nat × Nat) → Option F32 → F32
  | [], t => t.getD 0#32
  | (lo, hi) :: rest, t =>
    let r := rankSum 0#32 (slicePartials p a b sr lo hi).1
    dotRanks p a b sr rest (some (match t with | none => r | some v => f32Add v r))

/-- The fold of R67 over ranks in ascending order, starting from the lowest rank's value. -/
def reduceF32 : List F32 → F32
  | [] => 0#32
  | x :: xs => f32Sum x xs

/-- The L16 reduction of R67: exact widening, the F32 fold, one rounding. -/
def reduceL16 (xs : List L16) : L16 := l16OfF32 (reduceF32 (xs.map l16ToF32))

/-- The check value and P of the baste unit (R150): products in ascending index, F32 additions. -/
def basteDot (a b : List Elem) : F32 × F32 :=
  (List.zip a b).foldl (fun (acc : F32 × F32) (x, y) =>
    let t := f32Mul (outlVal x) (outlVal y)
    (f32Add acc.1 t, f32Add acc.2 (f32AbsOp t))) (0#32, 0#32)

/-- ε and δ of R151 as powers of two. -/
def tolEps : Pair → Int × Int
  | .l4l4 | .l16l16 => (-16, -16)
  | _ => (-10, -12)

/-- τ = 4^TOL × (ε |C1| + δ P), exact, for finite C1 and P (R151). -/
def tau (p : Pair) (tol : Nat) (c1 P : F32) : Dy :=
  let (e, d) := tolEps p
  dyScale (dyAdd (dyScale (dyAbs (f32Dy c1)) e) (dyScale (f32Dy P) d)) (2 * (tol : Int))

/-- Whether an element exceeds (R151). -/
def exceeds (p : Pair) (tol : Nat) (c0 c1 P : F32) : Bool :=
  if f32IsFinite c0 && f32IsFinite c1 then
    f32IsFinite P && dyLt (tau p tol c1 P) (dyAbs (dySub (f32Dy c0) (f32Dy c1)))
  else !((f32IsNaN c0 && f32IsNaN c1) ||
         (f32IsInf c0 && f32IsInf c1 && f32Sign c0 == f32Sign c1))

end Sys2Proof.Machine
end

