-- ==== Sys2Proof/Machine/State.lean ====
section
/-! DEFINITION. The state of the LZ-9X as plain data, its reset, faults and refusals. Each field's
docstring names its width, the rule that gives it, and its reset value. -/

namespace Sys2Proof.Machine

/-- Memory and buffers: (address, byte) pairs, addresses strictly rising, no zero byte listed; an
unlisted byte reads 0 (log entry 1). -/
abbrev Mem := List Host.Cell

/-- Device states (R331). -/
inductive DevState where
  | off | standby | boot | ready | running | draining | drained | spare | filling | safe | hibernate
deriving DecidableEq, Repr

/-- Seam port states, in the codes of R235. -/
inductive PortState where
  | off | training | linked | fitted | member | stranger | excluded | down
deriving DecidableEq, Repr

/-- Status codes (R340, R380). -/
inductive Status where
  | ok | badOpcode | badLength | badReserved | badRange | wrongState | aborted | authFailed
  | notWritable | badSetting | noTransaction | busyTransaction | notOwner | conflict
  | busyJob | noJob | busyStep | stateInvalid | replaceFlagged | notSpare | busyFill | noVariant
  | fabricMismatch | digestMismatch | baseMismatch | staleMark | noFlowContext
  | badPackage | badStitch | badPanelSet | tableOverflow | noFit | badDescriptor | badSchedule
  | badVariant | badGradePoint | badNeedle | badSpoolOrder | badRowSchedule | badBasteWindow
  | badFence | tiedWeightUnsupported | frozenWrite
  | staleBudget | budgetRate | staleReport | reportRate
  | busySnapshot | notRestorable | badManifest | packageMismatch | rankMismatch | streamSkew
  | spoolExhausted | baseWrite | stepLimit | verdictOverflow | microLimit
  | badImage | imageRollback | keyRevoked | updatePending | notTrial | badChallenge
  | ownerRequired | badCert | epochLimit
deriving DecidableEq, Repr

/-- Event codes (R356, R380). -/
inductive Ev where
  | jobBegin | jobEnd | flagSet | spoolDeficit | spoolShort | verdict | frayWatch | straggler
  | spoolExhausted | frozenWrite | baseWrite | stepLimit | verdictOverflow | microLimit
  | poisonSent | poisonReceived | slipWarn | syncLate | clockTrim | registerAccess
  | memCeRate | memUncorrectable | memRepair | memRepairFull | memTrainFail | scanDone
  | linkDegraded | linkDown | fitTimeout | fitBad | stranger | portTest | hostLinkDown | flowFailed
  | snapshotDone | snapshotFailed | restoreDone | restoreFailed | streamRecomputed | fillDone
  | fillFailed
  | gradeUnavailable | budgetExpired | predictionLow | capUnmet | fixedExit | pinchRate
  | gradeDeferred | suspect
  | sensorSkew | sensorSuspect | thermThrottle | thermMax | thermTrip | coolStale | coolInlet
  | coolReportSkew | coolWarn | coolAlarm | flowLoss
  | drainStart | txnExpired | configReset | notesLost
  | authFailed | sessionOpen | sessionEnd | keyUpdate | imageFallback | imageRepaired | fwActivated
  | fwConfirmed | ownerChanged | clearSigned | recoveryEntered
deriving DecidableEq, Repr

/-- An event record (R353); CYCLE is Config.cycle of its source and SEQ. -/
structure Event where
  source : Nat
  code : Ev
  seq : Nat
  step : Nat
  args : List Nat
deriving DecidableEq, Repr

/-- A row record of the row engine (R109). -/
structure RowRec where
  /-- 32 bits; R109 (05); reset +0. -/
  part : F32 := 0#32
  /-- 32 bits; R109 (05); reset +0. -/
  total : F32 := 0#32
  /-- 32 bits; R109 (05); reset −inf. -/
  maxv : F32 := 0xFF800000#32
  /-- 32 bits; R109 (05); reset +0. -/
  result : F32 := 0#32
  /-- 21 bits; R109 (05); reset 0x1F_FFFF. -/
  idx : Nat := 0x1FFFFF
  /-- 32 bits; R109 (05); reset 0. -/
  aux : F32 := 0#32
  /-- 21 bits; R109 (05); reset 0x1F_FFFF. -/
  last : Nat := 0x1FFFFF
  /-- 1 bit; R109 (05); reset 0. -/
  fixed : Bool := false
  /-- 1 bit; R109 (05); reset 0. -/
  seen : Bool := false
  /-- 21 bits; R109 (05); reset 0. -/
  prev : Nat := 0
deriving DecidableEq, Repr

/-- A tile: a tile-queue entry with its header (R85) and its micro-batch (R156). -/
structure Tile where
  tag : Nat
  rows : Nat
  cols : Nat
  row0 : Nat
  col0 : Nat
  desc : Nat
  nonfinite : Bool
  sampled : Bool
  seq : Nat
  micro : Nat
  chain : List Nat       -- panels of the contraction parts, ascending (R81, R149)
  data : List F32        -- element (r, c) at COLS × r + c
deriving DecidableEq, Repr

/-- An accumulator bank's product block (R79, R81): slice partials for each element, and the sums it
starts from. -/
structure Bank where
  desc : Nat
  tag : Nat
  micro : Nat
  row0 : Nat
  rows : Nat
  col0 : Nat
  cols : Nat
  partials : List (List F32)
  start : List F32
  needs : Nat            -- 32-row chain tiles still to arrive
  chainIn : Option Nat   -- the panel of the preceding slices
  chain : List Nat       -- panels of the contraction parts, ascending
  chainOut : Option Nat  -- the panel of the following slices
  emitted : Nat          -- rows emitted
deriving DecidableEq, Repr

/-- A 32-row tile of rank sums on its way to the panel of the following slices (R81): its sender and the product block
it belongs to. -/
structure Hop where
  src : Nat
  desc : Nat
  micro : Nat
  row0 : Nat
  col0 : Nat
  data : List F32
deriving DecidableEq, Repr

/-- A slot that waits in a panel's stitch FIFO (R17, R166, R172): class (0 matrix, 1 needle, 2 row, 3 mover), OP and DESC,
the STEP and MICRO of its stitch and that stitch, the panels of its set with the panel's position among them, and the mover
operation. -/
structure FifoSlot where
  cls : Nat
  op : Nat
  desc : Nat
  step : Nat
  micro : Nat
  stitch : Nat
  set : List Nat
  pos : Nat
  mov : Option Nat
deriving DecidableEq, Repr

/-- A lane of a group of the pass in progress (R99): position, P0 and logical index, V0 to V15 and
P1 to P3. -/
structure Lane where
  pos : Nat
  p0 : Bool
  index : Nat
  v : List F32
  p : List Bool
deriving DecidableEq, Repr

/-- An element in the fold unit's needle output path (R88): the tensor's descriptor and micro-batch, the logical
index, the value and the draw. -/
structure FoldElem where
  desc : Nat
  micro : Nat
  index : Nat
  val : F32
  draw : W32
deriving DecidableEq, Repr

/-- A chain that runs on a panel (R96 to R99): its entry and bindings, the pass and instruction
reached, and the lanes of the pass, group by group. -/
structure ChainRun where
  entry : ChainEntry
  bind : BindDesc
  step : Nat             -- STEP and MICRO of the stitch that started it (R71, R103)
  micro : Nat
  tag : Nat              -- tag of the index tensor, 0 without a source
  ext0 : Nat             -- extent of the index tensor's axis 0
  positions : Nat        -- positions of the source
  waiting : Bool         -- SOURCE 1 with an empty tile queue (R118)
  pass : Nat
  instr : Nat
  lanes : List Lane
  cycles : Nat           -- program cycles so far (R105)
deriving DecidableEq, Repr

/-- The matrix status counters and flags of a panel (R91). -/
structure MatStat where
  /-- sticky flag, 1 bit; R91 (04); reset 0. -/
  foldNonfinite : Bool := false
  /-- sticky flag, 1 bit; R91 (04); reset 0. -/
  storeClosed : Bool := false
  /-- sticky flag, 1 bit; R91 (04); reset 0. -/
  accNonfinite : Bool := false
  /-- sticky flag, 1 bit; R91 (04); reset 0. -/
  queueWait : Bool := false
  /-- STREAM, 64 bits; R91 (04); reset 0. -/
  stream : Nat := 0
  /-- PRODUCTS, 64 bits; R91 (04); reset 0. -/
  products : Nat := 0
  /-- TILE_LOADS, 32 bits; R91 (04); reset 0. -/
  tileLoads : Nat := 0
  /-- TILES_PUSHED, 32 bits; R91 (04); reset 0. -/
  tilesPushed : Nat := 0
  /-- WAIT_PHYS, 32 bits; R91 (04); reset 0. -/
  waitPhys : Nat := 0
  /-- FOLD_GROUPS, 64 bits; R91 (04); reset 0. -/
  foldGroups : Nat := 0
  /-- BASTE_SKIPS, 32 bits; R91 (04); reset 0. -/
  basteSkips : Nat := 0
  /-- ROT_START, 3 bits; R83, R91 (04); reset 0. -/
  rotStart : Nat := 0
deriving DecidableEq, Repr

/-- The needle and row status counters and flags of a panel (R117). -/
structure NeedleStat where
  /-- sticky flag, 1 bit; R117 (05); reset 0. -/
  laneRange : Bool := false
  /-- sticky flag, 1 bit; R117 (05); reset 0. -/
  rowOrder : Bool := false
  /-- sticky flag, 1 bit; R117 (05); reset 0. -/
  rowEmpty : Bool := false
  /-- sticky flag, 1 bit; R117 (05); reset 0. -/
  needleWait : Bool := false
  /-- CHAINS, 32 bits; R117 (05); reset 0. -/
  chains : Nat := 0
  /-- ISSUE, 32 bits; R117 (05); reset 0. -/
  issue : Nat := 0
  /-- LANE_RANGE_N, 32 bits; R117 (05); reset 0. -/
  laneRangeN : Nat := 0
  /-- WAIT_PHYS, 32 bits; R117 (05); reset 0. -/
  waitPhys : Nat := 0
  /-- ROW_TERMS, 32 bits; R117 (05); reset 0. -/
  rowTerms : Nat := 0
deriving DecidableEq, Repr

/-- A spool entry (R121, R122): its header fields and the offset of its header in the ring, or in the
extension share while it lies there. -/
structure SpoolEntry where
  tag : Nat
  micro : Nat
  desc : Nat
  bytes : Nat
  seq : Nat
  spilled : Bool
  isVoid : Bool
  off : Nat
deriving DecidableEq, Repr

/-- The spool and update status counters and flags of a panel (R132). -/
structure SpoolStat where
  /-- sticky flag, 1 bit; R132 (06); reset 0. -/
  spillSeen : Bool := false
  /-- sticky flag, 1 bit; R132 (06); reset 0. -/
  deficit : Bool := false
  /-- sticky flag, 1 bit; R132, R142 (06); reset 0. -/
  masterNonfinite : Bool := false
  /-- PUSHES, 32 bits; R132 (06); reset 0. -/
  pushes : Nat := 0
  /-- POPS, 32 bits; R132 (06); reset 0. -/
  pops : Nat := 0
  /-- SPILL_ENTRIES, 32 bits; R132 (06); reset 0. -/
  spillEntries : Nat := 0
  /-- RETURN_ENTRIES, 32 bits; R132 (06); reset 0. -/
  returnEntries : Nat := 0
  /-- SPILL_LINES, 64 bits; R132 (06); reset 0. -/
  spillLines : Nat := 0
  /-- HIGH_WATER, 32 bits; R132 (06); reset 0. -/
  highWater : Nat := 0
  /-- EXT_HIGH_WATER, 32 bits; R132 (06); reset 0. -/
  extHighWater : Nat := 0
  /-- SPILL_WAIT_PHYS, 32 bits; R132 (06); reset 0. -/
  spillWait : Nat := 0
  /-- RETURN_WAIT_PHYS, 32 bits; R132 (06); reset 0. -/
  returnWait : Nat := 0
  /-- VOID_PUSHES, 32 bits; R132 (06); reset 0. -/
  voidPushes : Nat := 0
  /-- STALLED_UPDATES, 32 bits; R132 (06); reset 0. -/
  stalled : Nat := 0
  /-- CARRIES, 32 bits; R132 (06); reset 0. -/
  carries : Nat := 0
deriving DecidableEq, Repr

/-- A spool operation that waits on a panel (R124, R125): its mover operation, its descriptor, and the MICRO of a
push. -/
inductive SpoolOp where
  | push (op desc micro : Nat)
  | pop (op desc : Nat)
deriving DecidableEq, Repr

/-- The spool of a panel (R120 to R128). -/
structure Spool where
  /-- ring entries, bottom to top; R120, R124 (06); reset empty. -/
  ring : List SpoolEntry := []
  /-- extension share entries, bottom to top; R123, R125 (06); reset empty. -/
  ext : List SpoolEntry := []
  /-- void entries, oldest first; R128 (06); reset empty. -/
  voids : List SpoolEntry := []
  /-- 1 bit: the step's later pushes are void; R127 (06); reset 0. -/
  voidMode : Bool := false
  /-- pushes that wait for a spill and pops that wait for a return, oldest first; R124, R125 (06); reset empty. -/
  waits : List SpoolOp := []
  /-- 1 bit: a return is in progress; R125 (06); reset 0. -/
  returning : Bool := false
  /-- next PUSH_SEQ, 32 bits; R122 (06); reset 0. -/
  seq : Nat := 0
  /-- status; R132 (06); reset all zero. -/
  stat : SpoolStat := {}
deriving DecidableEq, Repr

/-- A panel (R17). -/
structure Panel where
  /-- accumulator banks in use, oldest first (two banks); R79 (04); reset empty. -/
  banks : List Bank := []
  /-- product blocks that take a bank next; R79 (04); reset empty. -/
  blocks : List Bank := []
  /-- tiles emitted and not yet pushed; R82, R86 (04); reset empty. -/
  emitted : List Tile := []
  /-- tile queue, 8 entries; R85 (04); reset empty. -/
  queue : List Tile := []
  /-- chain inputs that arrived over the lining network; R81 (04); reset empty. -/
  hops : List Hop := []
  /-- stitch FIFO, 64 stitches: the slots that wait for the panel, oldest first; R17, R172 (01, 08); reset empty. -/
  fifo : List FifoSlot := []
  /-- next SEQ, 32 bits; R85 (04); reset 0. -/
  seq : Nat := 0
  /-- stationary-tile loads since the opening grade point (n of R83); R83 (04); reset 0. -/
  loads : Nat := 0
  /-- matrix status; R91 (04); reset all zero. -/
  mat : MatStat := {}
  /-- the running chain; R96 (05); reset none. -/
  chain : Option ChainRun := none
  /-- needle and row status; R117 (05); reset all zero. -/
  ndl : NeedleStat := {}
  /-- pocket memory records 0 to 8,191, 32 bytes each, unlisted at their Reset values; R109 (05). -/
  rows : Tab RowRec := []
  /-- elements sent by QNT whose group is not yet complete, newest first; R88 (04); reset empty. -/
  foldIn : List FoldElem := []
  /-- row records received, each with the panel that sent it; R112 (05); reset empty. -/
  rowIn : List (Nat × RowRec) := []
  /-- RCHAIN_RECV slots that wait for their records, as descriptor indices; R112, R172 (05, 08); reset empty. -/
  rowWait : List Nat := []
  /-- spool; R120 (06); reset empty. -/
  spool : Spool := {}
  /-- flags already reported in this step (first setting raises an event); R92 (04); reset empty. -/
  told : List Nat := []
  /-- trace buffer, last 2,048 records: CODE, STEP, SEQ and the free value its arguments take; R352 (16);
  reset empty. -/
  trace : List (Nat × Nat × Nat × Nat) := []
deriving DecidableEq, Repr

/-- What the baste unit captures of a tile (R149): the tile and its operand lines. -/
structure Capture where
  panel : Nat
  tile : Tile
  rowsA : List Line
  colsB : List Line
  pair : Pair
  tol : Nat
  sliceRuns : Nat
  lo : Nat               -- the rank's run range
  hi : Nat
deriving DecidableEq, Repr

/-- A held case (R154): the capture with its C1 and P values. -/
structure Case where
  slot : Nat
  cap : Capture
  c1 : List F32
  pp : List F32
deriving DecidableEq, Repr

/-- Baste unit activity (R148, R149). -/
inductive BasteAct where
  | idle | capturing (c : Capture) | checking (c : Capture)
deriving DecidableEq, Repr

/-- A sleeve hub (R17): baste unit and droop detector. -/
structure Hub where
  /-- activity of the baste unit with its 1 MiB check buffer; R149 (07); reset idle. -/
  act : BasteAct := .idle
  /-- 4 case slots; R154 (07); reset empty. -/
  cases : List Case := []
  /-- reseed value of the hub's generator; R148 (07); reset DESIGN CHOICE 0 (log entry 6). -/
  entropy : Nat := 0
  /-- SELECTIONS, 32 bits; R157 (07); reset 0. -/
  selections : Nat := 0
  /-- CHECKS, 32 bits; R157 (07); reset 0. -/
  checks : Nat := 0
  /-- SKIPS, 32 bits; R157 (07); reset 0. -/
  skips : Nat := 0
  /-- INELIGIBLE, 32 bits; R157 (07); reset 0. -/
  ineligible : Nat := 0
  /-- EXCEEDANCES, 32 bits; R157 (07); reset 0. -/
  exceedances : Nat := 0
  /-- CASES_OVERFLOW, 32 bits; R157 (07); reset 0. -/
  casesOverflow : Nat := 0
  /-- FENCE_WAIT_PHYS, 32 bits; R157 (07); reset 0. -/
  fenceWait : Nat := 0
  /-- 1 bit: a pinch is active; R275 (12); reset 0. -/
  pinched : Bool := false
  /-- times of the sleeve's pinches in the last second, µs, newest first; R275 (12); reset none. -/
  pinchTimes : List Nat := []
deriving DecidableEq, Repr

/-- A verdict record (R156). -/
structure Verdict where
  step : Nat
  tag : Nat
  panel : Nat
  witness : Nat
  third : Nat
  outcome : Nat
  micro : Nat
  desc : Nat
  row0 : Nat
  col0 : Nat
  elem : Nat
  c0 : F32
  c1 : F32
  tol : F32
  cw : F32
  c3 : F32
  c2 : F32
  mismatchW : Nat
  mismatchC : Nat
deriving DecidableEq, Repr

/-- The phases of the check fence (R160). -/
inductive FencePhase where
  | none | holding | resolving | voted
deriving DecidableEq, Repr

/-- The check fence and the poison of the step (R160 to R163). -/
structure Fence where
  /-- phase; R160 (07); reset none. -/
  phase : FencePhase := .none
  /-- 1 bit: the step's fence has passed; R138, R160 (06, 07); reset 0. -/
  passed : Bool := false
  /-- 1 bit: an exceedance of the step was not held; R154 (07); reset 0. -/
  overflow : Bool := false
  /-- 1 bit: a case of the step ended in a hardware verdict; R155 (07); reset 0. -/
  hardware : Bool := false
  /-- votes heard, (step, rank, vote); R160 (07); reset empty. -/
  votes : List (Nat × Nat × Nat) := []
  /-- poison in force for the step, (cause, origin): received, voted and own; R162 (07); reset empty. -/
  poisons : List (Nat × Nat) := []
  /-- POISON flits received for the step, (cause, origin); R162 (07); reset empty. -/
  received : List (Nat × Nat) := []
  /-- poison of its own that the device has sent for the step, (cause, origin); R161 (07); reset empty. -/
  mine : List (Nat × Nat) := []
  /-- 1 bit: this device has sent poison of its own for the step; R161, R321 (07, 15); reset 0. -/
  sent : Bool := false
  /-- 1 bit: the step is abandoned; R162, R180 (07, 08); reset 0. -/
  abandoned : Bool := false
  /-- the cause whose action the abandoned step has taken; R162 (07); reset none. -/
  acted : Option Nat := none
  /-- the step whose first VERDICT_OVERFLOW was answered with a repeat; R161 (07); reset none. -/
  overflowStep : Option Nat := none
  /-- 1 bit: a NUMERIC flag was set since that repeat; R161 (07); reset 0. -/
  newNumeric : Bool := false
deriving DecidableEq, Repr

/-- The shuttle flow state saved at STEP_OPEN (R180). -/
structure FlowState where
  variant : Nat := 0
  gp : Nat := 0
  ctrs : List Nat := [0, 0, 0, 0]
  micro : Nat := 0xFFFF
  addr : Nat := 0
deriving DecidableEq, Repr, Inhabited

/-- A mover operation in progress (R169). -/
inductive MovKind where
  | copy (dsts : List (Nat × Nat × Nat))   -- spooled destinations: panel, descriptor, micro-batch
  | spush | spop | apply
  | coll (desc micro : Nat)
  | ingestWait (desc micro : Nat) (panels : List Nat) | ingestCopy
  | emit (stream desc : Nat) (unsent : List (Nat × List Byte)) (fin : Nat) | note
deriving DecidableEq, Repr

structure MovOp where
  id : Nat
  queue : Nat
  kind : MovKind
deriving DecidableEq, Repr

/-- The shuttle (R165 to R185). -/
structure Shuttle where
  /-- loop counters C0 to C3, 20 bits each; R167 (08); reset 0. -/
  ctrs : List Nat := [0, 0, 0, 0]
  /-- MICRO, 16 bits; R167 (08); reset 0xFFFF. -/
  micro : Nat := 0xFFFF
  /-- address of the next stitch, 20 bits; R167 (08); reset DESIGN CHOICE 0 (log entry 6). -/
  addr : Nat := 0
  /-- variant in force, 6 bits; R183 (08); reset 0. -/
  variant : Nat := 0
  /-- variant selection written by Apgiosh, 6 bits; R177 (08); reset DESIGN CHOICE 0 (log entry 6). -/
  selection : Nat := 0
  /-- flow state saved at STEP_OPEN; R180 (08); reset DESIGN CHOICE zero (log entry 6). -/
  saved : FlowState := {}
  /-- 1 bit: a step is open, from its STEP_OPEN to its STEP_CLOSE or its abandonment; R177, R180 (08); reset 0. -/
  inStep : Bool := false
  /-- 1 bit: fetching has stopped at an abandoned step, until its STEP_OPEN; R180 (08); reset 0. -/
  cut : Bool := false
  /-- 1 bit: the shuttle has stopped (trip, reset, poison); R180, R285, R385; reset 0. -/
  stopped : Bool := false
  /-- mover operations in progress; R169 (08); reset empty. -/
  movers : List MovOp := []
  /-- number of the next mover operation; model's own; reset DESIGN CHOICE 0 (log entry 6). -/
  nextOp : Nat := 0
  /-- SYNC mask of a stitch that waits, 8 bits; R169 (08); reset 0. -/
  syncWait : Nat := 0
  /-- 1 bit: SYNC_LATE raised in the SYNC wait in progress; R184 (08); reset 0. -/
  syncTold : Bool := false
  /-- issue opportunities in the 64-window, and idle stitches in it; R175 (08); reset 0. -/
  window : Nat := 0
  windowIdle : Nat := 0
  /-- CYCLES, 64 bits; R183 (08); reset 0. -/
  cycles : Nat := 0
  /-- STITCHES, 32 bits; R183 (08); reset 0. -/
  stitches : Nat := 0
  /-- IDLE, 32 bits; R183 (08); reset 0. -/
  idle : Nat := 0
  /-- CREDIT_WAIT_PHYS, 32 bits; R183 (08); reset 0. -/
  creditWait : Nat := 0
  /-- SYNC_WAIT_PHYS, 32 bits; R183 (08); reset 0. -/
  syncWaitPhys : Nat := 0
  /-- FENCE_HOLD_PHYS, 32 bits; R183 (08); reset 0. -/
  fenceHold : Nat := 0
  /-- GRADE_POINTS, 32 bits; R183 (08); reset 0. -/
  gradePoints : Nat := 0
  /-- SWITCHES, 32 bits; R183 (08); reset 0. -/
  switches : Nat := 0
  /-- GSW_PHYS, 32 bits; R183 (08); reset 0. -/
  gswPhys : Nat := 0
  /-- PHYS, 64 bits; R183 (08); reset 0. -/
  phys : Nat := 0
  /-- MARKS, 32 bits; R183 (08); reset 0. -/
  marks : Nat := 0
deriving DecidableEq, Repr

/-- A recipe log entry (R159). -/
structure RecipeLog where
  step : Nat
  gp : Nat
  recipe : Nat
  tags : List Nat        -- tags whose NUMERIC flag the change cleared (R158)
deriving DecidableEq, Repr

/-- A fray report (R144 to R147): records are (tag, slot, six shares). -/
structure FrayReport where
  step : Nat
  records : List (Nat × Nat × List Nat)
  watch : Nat
  excess : Nat
deriving DecidableEq, Repr

/-- A fold through the needle output path that is under way with an outlier store (R48, R50, R89): the tensor and its
micro-batch, the panel of an instance that every panel holds for itself, the next block to claim, and the claims so far. -/
structure QntRun where
  desc : Nat
  micro : Nat
  panel : Option Nat
  next : Nat
  claim : Claim
deriving DecidableEq, Repr

/-- The loaded job (R18, R19, R341). -/
structure Job where
  /-- the loaded package; R19, R181 (01, 08); reset none. -/
  pkg : Option Package := none
  /-- 1 bit: held at a STEP_OPEN; R180 (08); reset 0. -/
  held : Bool := false
  /-- step counter STEP, 32 bits (2^32 after the last step); R71, R74, R139; reset 0. -/
  step : Nat := 0
  /-- reason the job stopped; R340 (16); reset none. -/
  fault : Option Status := none
  /-- 1 bit: job state INVALID; R313 (14); reset 0. -/
  invalid : Bool := false
  /-- folds with an outlier store under way through the needle output path; R48, R89 (02, 04); reset none. -/
  qnts : List QntRun := []
  /-- fray counters by 4 × tag + slot; R51, R52 (02); reset 0. -/
  fray : Tab Fray := []
  /-- fray counters at the step's opening mark; R53 (02); reset 0. -/
  frayOpen : Tab Fray := []
  /-- the most recent fray reports, newest first, two at most; R144 (07); reset empty. -/
  reports : List FrayReport := []
  /-- NUMERIC flags, as tags; R158 (07); reset empty. -/
  numeric : List Nat := []
  /-- recipe change wanted by RECIPE_SET or R158; R158, R345; reset none. -/
  wantRecipe : Option Nat := none
  /-- tags whose NUMERIC flag the wanted recipe change clears; R158 (07); reset empty. -/
  clearTags : List Nat := []
  /-- recompute state wanted; R129, R130 (06); reset none. -/
  wantRecompute : Option Bool := none
  /-- recipe log; R159 (07); reset empty. -/
  log : List RecipeLog := []
  /-- recipe changes to replay; R159 (07); reset empty. -/
  replay : List RecipeLog := []
  /-- recipe changes replayed since the step opened; R159, R180 (07, 08); reset empty. -/
  replayed : List RecipeLog := []
  /-- tags whose divergence was found after the step was abandoned; R163 (07); reset empty. -/
  lateTags : List Nat := []
  /-- 1 bit: a SPOOL_DEFICIT of this step awaits its grade point; R129 (06); reset 0. -/
  deficit : Bool := false
  /-- JOB_END waits for a STEP_CLOSE: its RETAIN_BASE; R344 (16); reset none. -/
  ending : Option Bool := none
  /-- 1 bit: the job has reached its end and waits for an EMIT or a snapshot; R259, R319 (11, 14); reset 0. -/
  endDue : Bool := false
  /-- job energy in 10 µJ (0.1 W × 100 µs); the counter is its 10,000th part, 64 bits; R262; reset 0. -/
  energy : Nat := 0
  /-- 1 bit: the energy counter integrates; R262 (12); reset 0. -/
  counting : Bool := false
  /-- energy at the step's opening mark; R267 (12); reset 0. -/
  energyOpen : Nat := 0
  /-- idle stitches and windows with q > 0 in the step; R272 (12); reset 0. -/
  stepIdle : Nat := 0
  stepCapped : Nat := 0
  /-- 1 bit: the forced G1 of R291 held during a collective of the step; R272, R297 (12, 13); reset 0. -/
  stepForced : Bool := false
  /-- 1 bit: a STEP_OPEN has issued since the job was loaded or restored; R310 (14); reset 0. -/
  stepped : Bool := false
  /-- 1 bit: the step ran one variant throughout; R267 (12); reset 1. -/
  oneVariant : Bool := true
  /-- shuttle waits at the opening mark: CREDIT_WAIT_PHYS, PHYS; R184 (08); reset 0. -/
  openWaits : Nat × Nat := (0, 0)
  /-- 1 bit: the staging window changed since the recompute variant was selected; R130; reset 0. -/
  staged : Bool := false
deriving DecidableEq, Repr

/-- A load window (R342, R377). -/
structure LoadWindow where
  kind : Nat             -- 0 job, 1 base, 2 firmware
  session : Nat
  len : Nat
  stream : Nat
  start : Nat            -- base load: byte address
  digest : Nat
  got : List (Nat × Nat) -- byte ranges received, (offset, length)
  buf : Mem              -- firmware load: the bytes of the inactive slot
deriving DecidableEq, Repr

/-- The resident base region (R21). -/
structure BaseRegion where
  start : Nat
  len : Nat
  digest : Nat
deriving DecidableEq, Repr

/-- One memory unit's status: a bolt slice or an LPDDR5X channel (R203). -/
structure MemUnit where
  /-- CORRECTED, 32 bits; R203 (09); reset 0. -/
  corrected : Nat := 0
  /-- SYMBOLS, 32 bits; R203 (09); reset 0. -/
  symbols : Nat := 0
  /-- UNCORRECTABLE, 32 bits; R203 (09); reset 0. -/
  uncorrectable : Nat := 0
  /-- SCRUB_PASSES, 32 bits; R203 (09); reset 0. -/
  scrubPasses : Nat := 0
  /-- RETRAINS, 32 bits; R203, R206 (09); reset 0. -/
  retrains : Nat := 0
  /-- SPARES_USED, 16 bits; R203 (09); reset DESIGN CHOICE 0 (log entry 6). -/
  sparesUsed : Nat := 0
  /-- times in µs at which CORRECTED grew in the last hour, newest first; R197 (09); reset none. -/
  ceTimes : List Nat := []
  /-- sticky CE_RATE; R197, R203 (09); reset 0. -/
  ceRate : Bool := false
  /-- next line of the patrol scrub; R199 (09); reset 0. -/
  scrubNext : Nat := 0
  /-- scrub passes completed since power-on; model's own for R199; reset 0. -/
  passNo : Nat := 0
  /-- lines corrected in the last passes: (line, passes in a row, pass number); R199 (09); reset none. -/
  hits : List (Nat × Nat × Nat) := []
  /-- lifetime totals in flash: CORRECTED, SYMBOLS, UNCORRECTABLE; R203 (09); reset 0. -/
  life : Nat × Nat × Nat := (0, 0, 0)
  /-- saved training values are those of a successful training; R205 (09); reset 0. -/
  trained : Bool := false
deriving DecidableEq, Repr

/-- What the memories hold beside their bytes (R195 to R203). -/
structure MemHealth where
  /-- stored error patterns by line address: (byte position 0 to 71, XOR); R196, R208; reset none. -/
  errors : Tab (List (Nat × Byte)) := []
  /-- addresses of poisoned lines; R195 (09); reset none. -/
  poison : List Nat := []
  /-- units: panel p at p, channel c at 256 + c; R203 (09); reset all zero. -/
  units : Tab MemUnit := []
  /-- repair list, row addresses, 1,024 at most; R202 (09); reset DESIGN CHOICE empty (entry 6). -/
  repairs : List Nat := []
  /-- the channels' training values saved in flash; R205 (09); reset DESIGN CHOICE none (entry 6). -/
  training : List Nat := []
  /-- the values from which the last training of the channels started; R205, R351 (09, 16); reset none. -/
  trainFrom : List Nat := []
  /-- 1 bit: scrubbing runs; R207 (09); reset 0. -/
  scrubbing : Bool := false
  /-- 1 bit: LPDDR5X is in self refresh; R204 (09); reset 0. -/
  selfRefresh : Bool := false
deriving DecidableEq, Repr

/-- The status counters of a seam port (R235). -/
structure PortStat where
  /-- sticky DEGRADED; R235 (10); reset 0. -/
  degraded : Bool := false
  /-- TX_FLITS, 32 bits; R235 (10); reset 0. -/
  txFlits : Nat := 0
  /-- RX_FLITS, 32 bits; R235 (10); reset 0. -/
  rxFlits : Nat := 0
  /-- CORRECTED, 32 bits; R235 (10); reset 0. -/
  corrected : Nat := 0
  /-- BAD, 32 bits; R235 (10); reset 0. -/
  bad : Nat := 0
  /-- REPLAYS, 32 bits; R235 (10); reset 0. -/
  replays : Nat := 0
  /-- RETRAINS, 32 bits; R235 (10); reset 0. -/
  retrains : Nat := 0
  /-- CREDIT_WAIT_PHYS, 32 bits; R235 (10); reset 0. -/
  creditWait : Nat := 0
  /-- GATE_MISS, 32 bits; R235 (10); reset 0. -/
  gateMiss : Nat := 0
  /-- GATED_US, 32 bits; R235 (10); reset 0. -/
  gatedUs : Nat := 0
  /-- STRANGER_DROPS, 32 bits; R235 (10); reset 0. -/
  strangerDrops : Nat := 0
  /-- STALE_DROPS, 32 bits; R235 (10); reset 0. -/
  staleDrops : Nat := 0
  /-- POISON_DUP, 32 bits; R235 (10); reset 0. -/
  poisonDup : Nat := 0
  /-- BAD_FLITS, 32 bits; R235 (10); reset 0. -/
  badFlits : Nat := 0
deriving DecidableEq, Repr

/-- A sent flit in the replay buffer, with its header as sent (R214, R216). -/
structure TxFlit where
  seq : Nat
  nak : Bool
  crd : Nat
  ack : Nat
  body : FlitBody
deriving DecidableEq, Repr

/-- A seam port (R210 to R223). -/
structure SeamPort where
  /-- state; R223 (10); reset OFF. -/
  st : PortState := .off
  /-- active lanes; R235 (10); reset DESIGN CHOICE 0 (log entry 6). -/
  width : Nat := 0
  /-- 1 bit: gated to lane 0; R220 (10); reset 0. -/
  gated : Bool := false
  /-- 1 bit: a wake is in progress; R220 (10); reset 0. -/
  waking : Bool := false
  /-- failed training attempts in a row; R218, R223 (10); reset 0. -/
  fails : Nat := 0
  /-- 1 bit: a retrain of a bound port awaits its proof; R218, R223 (10); reset 0. -/
  retraining : Bool := false
  /-- sequence number of the last flit sent, 11 bits; R214 (10); reset 0x7FF (log entry 6). -/
  txSeq : Nat := 0x7FF
  /-- next sequence number expected, 11 bits; R216 (10); reset DESIGN CHOICE 0 (log entry 6). -/
  rxNext : Nat := 0
  /-- 1 bit: a NAK is out and later flits are discarded; R216 (10); reset 0. -/
  nak : Bool := false
  /-- replay buffer, 512 flits, oldest first; R216 (10); reset empty. -/
  replay : List TxFlit := []
  /-- flits queued for want of credit or replay room; R216, R217 (10); reset empty. -/
  queue : List FlitBody := []
  /-- credits held, 256 at link-up; R217 (10); reset DESIGN CHOICE 0 (log entry 6). -/
  credits : Nat := 0
  /-- receive buffers to return through CRD; R217 (10); reset 0. -/
  owed : Nat := 0
  /-- 1 bit: the port returns no credits, since the reduction buffer is full; R231 (10); reset 0. -/
  credStop : Bool := false
  /-- the IDLE flit sent last, none before; R214, R216 (10); reset none. -/
  idle : Option TxFlit := none
  /-- 1 bit: a NAK has arrived and its replay is due; R216 (10); reset 0. -/
  nakIn : Bool := false
  /-- replays of the same flit in succession, and that flit's number; R216 (10); reset 0, none. -/
  sameReplay : Nat := 0
  lastReplay : Option Nat := none
  /-- 1 bit: a retrain attempt is in progress; R216, R218 (10); reset 0. -/
  retrainDue : Bool := false
  /-- 1 bit: a lost MEMBER port awaits its loopback test; R325 (15); reset 0. -/
  testDue : Bool := false
  /-- own nonce of the most recent HELLO, 128 bits; R221 (10); reset DESIGN CHOICE 0 (entry 6). -/
  nonce : Nat := 0
  /-- far nonce from the far end's HELLO; R221 (10); reset none. -/
  farNonce : Option Nat := none
  /-- 1 bit: PROOF sent in this exchange; R221 (10); reset 0. -/
  proofSent : Bool := false
  /-- 1 bit: HELLO interval is 1 s; R223 (10); reset 0. -/
  slow : Bool := false
  /-- the verified far frame; R223 (10); reset none. -/
  far : Option Ident := none
  /-- PEER_RANK bound; R223 (10); reset none. -/
  peerRank : Option Nat := none
  /-- segment whose DATA flits are arriving, with its bytes; R233 (10); reset none. -/
  rx : Option (Head × List Byte) := none
  /-- status; R235 (10); reset all zero. -/
  stat : PortStat := {}
deriving DecidableEq, Repr

/-- A contribution held in the reduction buffer (R231). -/
structure Contrib where
  head : Head
  bytes : List Byte
deriving DecidableEq, Repr

/-- A collective in progress on this rank (R230 to R232). -/
structure CollRun where
  op : Nat               -- mover operation
  desc : Nat
  micro : Nat
  panel : Nat            -- panel whose window an address in the panel-local window names
  folded : List Nat      -- segments of the own shard that are folded
  written : Nat          -- bytes of DST written
  unacked : Nat          -- segments sent and not yet acknowledged by the link
deriving DecidableEq, Repr

/-- The collective engine (R231). -/
structure CollEngine where
  /-- collectives in progress; R231 (10); reset empty. -/
  runs : List CollRun := []
  /-- reduction buffer, 16 MiB; R231 (10); reset empty. -/
  buffer : List Contrib := []
deriving DecidableEq, Repr

/-- The status counters of a host port (R256); they count from power-on. -/
structure HostStat where
  /-- RX_FRAMES, 32 bits; R256 (11); reset 0. -/
  rxFrames : Nat := 0
  /-- TX_FRAMES, 32 bits; R256 (11); reset 0. -/
  txFrames : Nat := 0
  /-- FEC_CORR, 32 bits; R256 (11); reset 0. -/
  fecCorr : Nat := 0
  /-- FEC_UNCORR, 32 bits; R256 (11); reset 0. -/
  fecUncorr : Nat := 0
  /-- FCS_ERR, 32 bits; R256 (11); reset 0. -/
  fcsErr : Nat := 0
  /-- OVERSIZE, 32 bits; R256 (11); reset 0. -/
  oversize : Nat := 0
  /-- RX_OVERFLOW, 32 bits; R256 (11); reset 0. -/
  rxOverflow : Nat := 0
  /-- OTHER, 32 bits; R256 (11); reset 0. -/
  other : Nat := 0
  /-- VLAN, 32 bits; R256 (11); reset 0. -/
  vlan : Nat := 0
  /-- NOT_FOR_US, 32 bits; R256 (11); reset 0. -/
  notForUs : Nat := 0
  /-- MALFORMED, 32 bits; R256 (11); reset 0. -/
  malformed : Nat := 0
  /-- SETUP_LIMITED, 32 bits; R256 (11); reset 0. -/
  setupLimited : Nat := 0
  /-- NO_FLOW, 32 bits; R256 (11); reset 0. -/
  noFlow : Nat := 0
  /-- AUTH_DROPS, 32 bits; R256 (11); reset 0. -/
  authDrops : Nat := 0
  /-- OUT_OF_WINDOW, a counter that no record shows; R245, R254 (11); reset DESIGN CHOICE 0 (log entry 6). -/
  outOfWindow : Nat := 0
deriving DecidableEq, Repr

/-- Packet types (R241). -/
inductive HemType where
  | write | ready | fence | ack | ctrl | setup | poison | close
deriving DecidableEq, Repr

/-- The header of a packet that the device sends (R241). -/
structure HemHdr where
  type : HemType
  fenceW : Bool
  fenceAll : Bool
  ackReq : Bool
  enc : Bool
  dstFlow : Nat
  psn : Nat
  srcFlow : Nat
  length : Nat
  offset : Nat
  step : Nat
  epoch : Nat
deriving DecidableEq, Repr

/-- Reasons of a CLOSE (R241, R243, R244): asked for by either end, PSN_LIMIT, JOB_END. -/
inductive CloseReason where
  | asked | psnLimit | jobEnd
deriving DecidableEq, Repr

/-- What a frame that the device sends holds (R237 to R241, R244): answers to ARP, Neighbor Discovery and echo, a PFC
frame with its priorities, or a hemline packet with its GCM tag; a CLOSE names its reason. -/
inductive FrameBody where
  | arp | neighbor | echo
  | pfc (mask : Nat)
  | hemline (h : HemHdr) (payload tag : List Byte) (reason : Option CloseReason)
deriving DecidableEq, Repr

/-- A frame that the device sends (R239, R240): its tag as (VID, PCP), its priority, destination IP address, UDP ports (0
for none), and whether it carries ECT(0). -/
structure Frame where
  vlan : Option (Nat × Nat)
  prio : Nat
  ip : Nat
  srcPort : Nat
  dstPort : Nat
  ect : Bool
  body : FrameBody
deriving DecidableEq, Repr

/-- A host port (R237 to R239). -/
structure HostPort where
  /-- 1 bit: link up; R256 (11); reset 0. -/
  up : Bool := false
  /-- 1 bit: the link went down and has not returned; R244, R358 (11, 16); reset 0. -/
  lost : Bool := false
  /-- bytes in the receive buffer of 4 MiB, as the last frame left it; R239 (11); reset 0. -/
  rxFill : Nat := 0
  /-- priorities paused by PFC, 8 bits; R239 (11); reset 0. -/
  paused : Nat := 0
  /-- frames that a paused priority holds, oldest first; R239 (11); reset empty. -/
  waiting : List Frame := []
  /-- frames that have left the port, oldest first; the model's own record of what it sends; reset empty. -/
  sent : List Frame := []
  /-- echo replies in the present second; R238 (11); reset 0. -/
  echoes : Nat := 0
  /-- echo requests dropped; R238 (11); reset 0. -/
  echoDrops : Nat := 0
  /-- SETUP packets taken above the rate, in millionths, and those of each source in the present second;
  R255 (11); reset 0. -/
  setups : Nat := 0
  setupFrom : Tab Nat := []
  /-- start of the present second, and time of the last SETUP taken, µs; model's own for R238 and R255; reset
  0 (log entry 6). -/
  second : Nat := 0
  setupAt : Nat := 0
  /-- status; R256 (11); reset all zero. -/
  stat : HostStat := {}
deriving DecidableEq, Repr

/-- Flow kinds (R243). -/
inductive FlowKind where
  | ctrl | dataset | emit | snapshot
deriving DecidableEq, Repr

/-- Flow states (R244); FREE is an absent context. -/
inductive FlowSt where
  | opened | closing | failed
deriving DecidableEq, Repr

/-- What a packet sent by the device carries (R245, R253, R304, R335, R257, R361). -/
inductive TxKind where
  | reply (mailbox : Nat) (last : Bool)
  | emitData (op off len : Nat)
  | chunk (j off len : Nat)
  | manifest (off len : Nat)
  | poison (p : Poison)
  | push (queue seq : Nat)
  | keyUpdate
deriving DecidableEq, Repr

/-- A packet sent and not yet acknowledged, as it is resent (R241, R246, R372). -/
structure TxPkt where
  psn : Nat
  kind : TxKind
  hdr : HemHdr
  payload : List Byte
deriving DecidableEq, Repr

/-- What an accepted packet does when it takes effect (R247, R251, R333). -/
inductive PktAct where
  | write (off : Nat) (bs : List Byte)
  | ready (step count : Nat)
  | fence
  | ctrl (mailbox : Nat) (ring abort : Bool) (off : Nat) (bs : List Byte)
  | close
deriving DecidableEq, Repr

/-- A received packet held by its fence (R247, R248): its own flow's PSNs below it that are missing,
the WRITEs of other flows it waits for, and its action. -/
structure HeldPkt where
  psn : Nat
  fenceW : Bool
  fenceAll : Bool
  deps : List (Nat × Nat)          -- WRITEs of other flows it waits for: flow, PSN
  act : PktAct
deriving DecidableEq, Repr

/-- A flow context (R243 to R248). -/
structure Flow where
  st : FlowSt
  kind : FlowKind
  port : Nat
  session : Nat
  payload : Nat
  enc : Bool
  stream : Nat
  farFlow : Nat
  farAddr : Nat          -- far IP address
  window : Bool          -- opened for a load window
  txNext : Nat           -- next PSN to send
  out : List TxPkt       -- sent, not acknowledged
  cum : Nat              -- CUM plus 1: the next PSN expected in order
  sack : List Nat        -- PSNs received beyond
  held : List HeldPkt
  unacked : Nat          -- accepted since the last ACK
  ece : Nat              -- of these, marked CE
  fenceDone : Nat
  naks : List (Nat × Nat)
  acks : Nat             -- ACKs sent (R372)
  rate : Rat             -- R, bytes/s (R246)
  alpha : Rat
  good : Nat             -- periods in a row with F = 0
  perAcked : Nat
  perEce : Nat
  backoff : Nat          -- timeouts in a row
  rtt : Nat              -- smoothed round trip, µs
  lowered : Option Nat   -- time of the last lowering, µs
  counts : List Nat      -- packets, retransmissions, ECE, refusals, holds (R256)
  reason : CloseReason   -- reason of its CLOSE
deriving DecidableEq, Repr

/-- A management session (R369 to R373). -/
structure Session where
  port : Nat
  ctrl : Nat             -- its CTRL flow
  prk : List Byte        -- PRK of its traffic keys (R372)
  epoch : Nat
  grace : Option Nat     -- the old epoch within its 100 ms
  provisioning : Bool    -- opened with the anchor list empty (R370)
deriving DecidableEq, Repr

/-- A half-open setup (R371). -/
structure HalfOpen where
  port : Nat
  addr : Nat
  ctrlFlow : Nat
  flow : Nat
  prior : List Byte      -- payload bytes of the exchange: OFFER and ANSWER
  prk : List Byte        -- PRK of its traffic keys (R372)
  chain : List Byte
deriving DecidableEq, Repr

/-- Dataset slot states (R251). -/
inductive SlotSt where
  | free | filling | held (step : Nat)
deriving DecidableEq, Repr

/-- The host edge (R237 to R257). -/
structure HostEdge where
  /-- E0 and E1; R237 (11); reset down, all zero. -/
  ports : Tab HostPort := []
  /-- flow contexts in use; R243 (11); reset empty. -/
  flows : Tab Flow := []
  /-- open sessions; R243, R371 (11, 17); reset empty. -/
  sessions : Tab Session := []
  /-- status with which the last SETUP that passed its limits ended: OK, AUTH_FAILED or OWNER_REQUIRED; R370, R371 (17);
  reset none. -/
  setupStatus : Option Status := none
  /-- half-open setups, 16 at most; R371 (17); reset empty. -/
  half : List HalfOpen := []
  /-- dataset slots by 16 × stream + slot; R251 (11); reset FREE. -/
  slots : Tab SlotSt := []
  /-- number of the next session; model's own; reset DESIGN CHOICE 1 (log entry 6). -/
  nextSession : Nat := 1
deriving DecidableEq, Repr

/-- Points a request can wait for (R335). -/
inductive WaitPoint where
  | commit | jobEnd | mark (m : Nat) | fitting | snapshot
deriving DecidableEq, Repr

/-- Mailbox states (R334). -/
inductive MbState where
  | free | claimed (session : Nat) | busy (session : Nat)
deriving DecidableEq, Repr

/-- A mailbox (R333, R334). -/
structure Mailbox where
  /-- state; R334 (16); reset FREE. -/
  st : MbState := .free
  /-- request buffer, 4 KiB; R333 (16); reset zero (log entry 1). -/
  req : Mem := []
  /-- reply buffer, 4 KiB; R333 (16); reset zero (log entry 1). -/
  reply : Mem := []
  /-- bytes of the reply not yet fully acknowledged; R334 (16); reset none. -/
  sent : Option Nat := none
  /-- 1 bit: rung and not yet started; R335 (16); reset 0. -/
  rung : Bool := false
  /-- the point a started request waits for; R335 (16); reset none. -/
  waits : Option WaitPoint := none
  /-- 1 bit: the session has ended and the reply is to be discarded; R334 (16); reset 0. -/
  orphan : Bool := false
  /-- 1 bit: the request was rung by a provisioning session; R370 (17); reset 0. -/
  provisioning : Bool := false
  /-- ENERGY etc. kept for a waiting reply; model's own; reset empty. -/
  note : List Nat := []
deriving DecidableEq, Repr

/-- A staged setting entry (R347). -/
structure TxnEntry where
  num : Nat
  id : Nat
  index : Nat
  pfx : Nat
  value : Nat
  ext : Nat
deriving DecidableEq, Repr

/-- The transaction (R346). -/
inductive TxnState where
  | idle | opened | pending
deriving DecidableEq, Repr

structure Txn where
  /-- state; R346 (16); reset NONE. -/
  st : TxnState := .idle
  /-- transaction number, 32 bits; R346 (16); reset DESIGN CHOICE 0 (log entry 6). -/
  number : Nat := 0
  /-- owner session; R346 (16); reset 0 with state NONE. -/
  owner : Nat := 0
  /-- staged entries in order; R347 (16); reset empty. -/
  staged : List TxnEntry := []
  /-- entries staged so far; R347 (16); reset 0. -/
  count : Nat := 0
  /-- mailbox of the pending commit; R348 (16); reset 0 with state NONE. -/
  mailbox : Nat := 0
deriving DecidableEq, Repr

/-- A committed setting's value (R347, R349). -/
structure SetVal where
  value : Nat
  pfx : Nat := 0
  ext : Nat := 0
deriving DecidableEq, Repr

/-- A job note (R361): header words and payload. -/
structure NoteRec where
  code : Nat
  seq : Nat
  step : Nat
  micro : Nat
  variant : Nat
  rank : Nat
  payload : List Byte
deriving DecidableEq, Repr

/-- A note queue (R362). -/
structure NoteQueue where
  /-- notes, 64 at most, oldest first; R362 (16); reset empty. -/
  notes : List NoteRec := []
  /-- next sequence number, 32 bits; R361 (16); reset DESIGN CHOICE 0 (log entry 6). -/
  seq : Nat := 0
  /-- watching session; R362 (16); reset none. -/
  watcher : Option Nat := none
deriving DecidableEq, Repr

/-- A mark's latched records (R359, R360). -/
structure MarkRec where
  number : Nat
  kind : Nat             -- 0 opening, 1 closing, 2 PMARK, 3 request
  step : Nat
  records : List (Nat × Nat × List W32)   -- class, unit, words
  fray : Tab Fray        -- the fray counters at the mark, by 4 × tag + slot (R144)
deriving DecidableEq, Repr

/-- Mailboxes, settings, events, marks and notes (16). -/
structure Mgmt where
  /-- 16 mailboxes; R333 (16); reset FREE and zero. -/
  boxes : Tab Mailbox := []
  /-- mailboxes rung, in order; R335 (16); reset empty. -/
  rings : List Nat := []
  /-- the transaction; R346 (16); reset NONE. -/
  txn : Txn := {}
  /-- committed settings by 65,536 × ID + INDEX, unlisted at their Reset values; R349 (16). -/
  settings : Tab SetVal := []
  /-- settings in flash; R350 (16); reset DESIGN CHOICE none (log entry 6). -/
  flash : Tab SetVal := []
  /-- event log, 65,536 records, oldest first; R355 (16); reset empty. -/
  log : List Event := []
  /-- log position of the oldest record: records dropped; R355 (16); reset 0. -/
  dropped : Nat := 0
  /-- next SEQ of each source, 32 bits; R355 (16); reset 0. -/
  seqs : Tab Nat := []
  /-- alert causes, 8 bits; R358 (16); reset 0. -/
  causes : Nat := 0
  /-- next mark number, 32 bits; R359 (16); reset 1. -/
  markNext : Nat := 1
  /-- the last 8 marks, oldest first; R359 (16); reset empty. -/
  marks : List MarkRec := []
  /-- 16 note queues; R362 (16); reset empty. -/
  notes : Tab NoteQueue := []
  /-- the last 64 verdict records, oldest first, and the number of the oldest; R156; reset empty. -/
  verdicts : List Verdict := []
  verdictBase : Nat := 0
deriving DecidableEq, Repr

/-- Power, budgets and grades (12). -/
structure Power where
  /-- SEQ of the budget in force, 32 bits; R264 (12); reset 0. -/
  seq : Nat := 0
  /-- SOFT in force, 0.1 W; R264 (12); reset FALLBACK_SOFT 5,600. -/
  soft : Nat := 5600
  /-- HARD in force, 0.1 W; R264 (12); reset FALLBACK_HARD 8,000. -/
  hard : Nat := 8000
  /-- HOLD_MS in force; R264 (12); reset 0. -/
  hold : Nat := 0
  /-- an accepted budget for the next window: SOFT, HARD; R265 (12); reset none. -/
  next : Option (Nat × Nat) := none
  /-- 1 bit: the fallback values are the budget in force; R265 (12); reset 1. -/
  fallback : Bool := true
  /-- time of the last accepted budget, µs; R265 (12); reset none. -/
  accepted : Option Nat := none
  /-- idle duty q of R268, 6 bits; R268 (12); reset 0. -/
  q : Nat := 0
  /-- windows in a row under 98 %; R268 (12); reset DESIGN CHOICE 0 (log entry 6). -/
  under : Nat := 0
  /-- ramp ceiling c, 0.1 mW units; R268 (12); reset 800 W. -/
  ceiling : Nat := 8000000
  /-- ramp values of the windows within RAMP_HOLD, newest first, 0.1 mW; R268 (12); reset none. -/
  ramp : List Nat := []
  /-- windows in a row at q 63 and the lowest grade, and windows in a row below the limit; R269 (12); reset 0. -/
  unmetRun : Nat := 0
  metRun : Nat := 0
  /-- p and limit of the last window, 0.1 W and 0.1 mW; R269 (12); reset 0. -/
  lastP : Nat := 0
  lastLimit : Nat := 0
  /-- p and VCORE power of the last 10 windows, newest first; R278 (12); reset none. -/
  recent : List (Nat × Nat) := []
  /-- input voltage and VCORE of the last window; R278 (12); reset 0. -/
  telem : Nat × Nat := (0, 0)
  /-- RAMP_RATE, RAMP_HOLD and PINCH_WARN of the window in progress; R271 (12); reset as the settings. -/
  rampRate : Nat := 20
  rampHold : Nat := 50
  pinchWarn : Nat := 10000
  /-- 1 bit: CAP_UNMET holds ALERT_N for POWER; R269 (12); reset 0. -/
  capAlert : Bool := false
  /-- time of the last PINCH_RATE event, µs; R275 (12); reset none. -/
  pinchTold : Option Nat := none
  /-- time of the last second over PINCH_WARN, µs, while it holds ALERT_N for POWER; R275 (12); reset none. -/
  pinchAlert : Option Nat := none
  /-- ratios of k_E, newest first, 8 at most; R267 (12); reset empty. -/
  ratios : List Rat := []
  /-- k_E; R267 (12); reset 1.0. -/
  kE : Rat := 1
  /-- 1 bit: PREDICTION_LOW raised in this job; R267 (12); reset 0. -/
  toldLow : Bool := false
  /-- clock grade in force, 1 to 8; R278 (12); reset 1 (start-up clocks start at G1, R383). -/
  grade : Nat := 1
  /-- VCORE set point in mV; R263 (12); reset 0 (rails off). -/
  vset : Nat := 0
  /-- V_USER applied for each grade; R271 (12); reset 0. -/
  vUser : Tab Nat := []
  /-- fixed grade in force, 0 if fixed mode is not in force; R273, R278 (12); reset 0. -/
  fixedGrade : Nat := 0
  /-- 1 bit: a new commit of FIXED = 1 waits for its grade point; R274 (12); reset 0. -/
  fixedNew : Bool := false
  /-- sticky FIXED_EXIT; R274 (12); reset 0. -/
  fixedExit : Bool := false
  /-- sticky CAP_UNMET; R269 (12); reset 0. -/
  capUnmet : Bool := false
  /-- sticky DEFERRED; R276 (12); reset 0. -/
  deferred : Bool := false
  /-- a clock switch that is deferred: old grade, new grade and time, µs; R276 (12); reset none. -/
  switching : Option (Nat × Nat × Nat) := none
  /-- the grade that a cancelled switch keeps at the next grade point; R276 (12); reset none. -/
  stay : Option Nat := none
  /-- 1 bit: no pinch has been active for 1 µs; R276 (12); reset 1. -/
  quiet : Bool := true
  /-- PINCHES, 32 bits; R278 (12); reset 0. -/
  pinches : Nat := 0
  /-- DEFERRALS, 32 bits; R278 (12); reset 0. -/
  deferrals : Nat := 0
  /-- CAP_WINDOWS, 32 bits; R278 (12); reset 0. -/
  capWindows : Nat := 0
  /-- RAMP_WINDOWS, 32 bits; R278 (12); reset 0. -/
  rampWindows : Nat := 0
  /-- BUDGETS_TAKEN, 32 bits; R278 (12); reset 0. -/
  taken : Nat := 0
  /-- BUDGETS_REFUSED, 32 bits; R278 (12); reset 0. -/
  refusedN : Nat := 0
  /-- lifetime input energy in 10 µJ; R262 (12); reset 0. -/
  lifetime : Nat := 0
deriving DecidableEq, Repr

/-- What the Thimble keeps of the difference d of a panel's pair (R283): the times in µs since which d has been above 6 °C,
above 15 °C, and at or below 6 °C, each without a break, and whether SENSOR_SKEW has been raised and not yet rearmed. -/
structure SkewWatch where
  high : Option Nat := none
  wide : Option Nat := none
  low : Option Nat := none
  told : Bool := false
deriving DecidableEq, Repr

/-- Heat, sensors and cooling (13). -/
structure Thermal where
  /-- readings by sensor 2p, 2p + 1, 512 + s, trimmed, 0.1 °C, or failed; R281 (13); reset none read. -/
  sensors : Tab (Option Int) := []
  /-- panels whose pair is suspect, in flash; R283 (13); reset DESIGN CHOICE none (log entry 6). -/
  suspects : List Nat := []
  /-- the watch over each panel's pair; R283 (13); reset none. -/
  skews : Tab SkewWatch := []
  /-- sticky SKEW; R283 (13); reset 0. -/
  skew : Bool := false
  /-- T_j, 0.1 °C, signed; R282 (13); reset DESIGN CHOICE 0 (log entry 6). -/
  tj : Int := 0
  /-- panel that sets T_j; R295 (13); reset DESIGN CHOICE 0 (log entry 6). -/
  tjPanel : Nat := 0
  /-- q_therm, 6 bits; R284 (13); reset 0. -/
  q : Nat := 0
  /-- 1 bit: forced state; R291 (13); reset 0. -/
  forced : Bool := false
  /-- T_j samples of the last 200 ms, newest first; R291 (13); reset none. -/
  history : List Int := []
  /-- time since which T_j has stayed below 85 °C without rising, µs; R291 (13); reset none. -/
  coolSince : Option Nat := none
  /-- sum and count of the T_j samples of the second in progress; R288 (13); reset 0. -/
  tjSum : Int := 0
  tjN : Nat := 0
  /-- the last ten 100 ms means of input power, newest first; R291 (13); reset none. -/
  means : List Nat := []
  /-- sum and count of the 100 ms mean being formed; R291 (13); reset 0. -/
  meanSum : Nat := 0
  meanN : Nat := 0
  /-- SEQ of the cooling report in force, 32 bits; R286 (13); reset 0. -/
  seq : Nat := 0
  /-- T_IN, 0.01 °C; R286 (13); reset 4,500. -/
  tIn : Nat := 4500
  /-- T_OUT, 0.01 °C; R286 (13); reset 0. -/
  tOut : Nat := 0
  /-- FLOW, mL/min; R286 (13); reset 0. -/
  flow : Nat := 0
  /-- 1 bit: the report is fresh; R287 (13); reset 0. -/
  fresh : Bool := false
  /-- time of the last accepted report, µs; R286 (13); reset none. -/
  accepted : Option Nat := none
  /-- time since which the reported heat has differed from the input power by more than 30 %, µs, and 1 bit:
  COOL_REPORT_SKEW raised for it; R287 (13); reset none, 0. -/
  skewSince : Option Nat := none
  skewTold : Bool := false
  /-- θ_est in °C/W; R288 (13); reset THETA_NOM 0.080. -/
  theta : Rat := 8 / 100
  /-- 1 bit each: COOL_WARN, COOL_ALARM raised and not yet rearmed; R290 (13); reset 0. -/
  warned : Bool := false
  alarmed : Bool := false
  /-- time of the last COOL_ALARM, FLOW_LOSS or THERM_MAX, µs; R285 (13); reset none. -/
  lastAlarm : Option Nat := none
  /-- THROTTLE_WINDOWS, 32 bits; R295 (13); reset 0. -/
  throttleWindows : Nat := 0
  /-- FORCED_G1, 32 bits; R295 (13); reset 0. -/
  forcedG1 : Nat := 0
  /-- SKEW_EVENTS, 32 bits; R295 (13); reset 0. -/
  skewEvents : Nat := 0
  /-- THERM_TRIP record in flash: panel, reading, and the last cooling report's SEQ, T_IN, T_OUT and FLOW;
  R285 (13); reset none. -/
  trip : Option (Nat × Int × List Nat) := none
deriving DecidableEq, Repr

/-- A chunk of a snapshot image (R304, R305). -/
structure Chunk where
  off : Nat              -- image offset
  region : Nat           -- REGION of the manifest; 0xFFFF the state block
  entry : Nat            -- index in the region map, or in the layer table of a portable image
  len : Nat
  index : Nat            -- WHERE: number within its entry or tensor
  digest : Nat
  st : Nat               -- 0 staging, 1 staged and sent, 2 acknowledged
deriving DecidableEq, Repr

/-- A snapshot in progress (R300 to R304). -/
structure Snap where
  id : Nat
  portable : Bool
  layout : Nat
  frozen : Bool
  session : Nat
  flows : List Nat
  remote : Nat
  mailbox : Nat
  step : Nat
  captured : Bool
  chunks : List Chunk
  staged : Tab Nat       -- pages staged, by page number: the address of the copy in the snapshot share
  unsent : List (Nat × Nat × Nat)   -- pieces to send: chunk (or one past the last: the manifest), offset, length
  manifest : Nat         -- 0 not sent, 1 sent
  block : Nat            -- number of its state block
  variant : Nat          -- variant in force at capture
deriving DecidableEq, Repr

/-- A write held by first-touch protection (R303). -/
structure HeldWrite where
  addr : Nat
  bytes : List Byte
  op : Option Nat := none   -- the mover operation that made it
deriving DecidableEq, Repr

/-- What a restore needs of its manifest (R305). -/
structure Manifest where
  ok : Bool              -- MAGIC, VERSION, field ranges
  portable : Bool
  layout : Nat
  snapId : Nat
  step : Nat
  rank : Nat
  nranks : Nat
  variant : Nat
  pkgDigest : Nat
  baseDigest : Nat
  streams : List (Nat × Nat × Nat)   -- STREAM, AHEAD, DATA_NEXT
  chunks : List Chunk
  cert : List Byte
  signature : List Byte
  signed : List Byte
deriving DecidableEq, Repr

/-- A restore in progress (R310 to R314). -/
structure RestoreRun where
  snapId : Nat
  stream : Nat
  authoritative : Bool
  overrides : Option (List (Nat × Nat))
  mlen : Nat
  mbuf : Mem             -- manifest bytes received
  mgot : List (Nat × Nat)
  man : Option Manifest  -- once R311 has passed
  step : Nat             -- the step to restore
  lines : Tab (List Nat) -- by chunk: 64-byte lines received
  matched : List Nat
deriving DecidableEq, Repr

/-- What a checkpoint's state block holds (R298, R314); `block` numbers the block in this model. -/
structure SavedState where
  block : Nat
  mark : Option Nat      -- the mark of its capture, at which units latch; none for a capture of a held job
  step : Nat
  data : List (Nat × Nat)   -- DATA_NEXT of each INGEST stream (R299)
  fray : Tab Fray
  numeric : List Nat
  log : List RecipeLog
  flow : FlowState
  mats : Tab MatStat
  ndls : Tab NeedleStat
  spools : Tab SpoolStat
  hubs : Tab Hub
  memUnits : Tab MemUnit
  portStats : Tab PortStat
  shut : List Nat        -- the shuttle's counters, in the order of R183
  power : List Nat       -- the power counters, in the order of R278
deriving DecidableEq, Repr, Inhabited

/-- What the state block of another module holds: its layout is internal to Apgiosh, so its contents are a
free value of its bytes (R298; log entry 2). -/
opaque foreignBlock : List Byte → SavedState

/-- Snapshots, restore and fills (14). -/
structure SnapEngine where
  /-- the snapshot in progress; R300 (14); reset none. -/
  snap : Option Snap := none
  /-- protected pages, as page numbers; R301 (14); reset none. -/
  guarded : List Nat := []
  /-- held writes, oldest first; R303 (14); reset none. -/
  heldWrites : List HeldWrite := []
  /-- time since which no named flow of the snapshot has been open, µs; R318 (14); reset none. -/
  starvedAt : Option Nat := none
  /-- the restore in progress; R310 (14); reset none. -/
  rest : Option RestoreRun := none
  /-- state blocks captured, by SNAP_ID: the block of R298 as this model keeps it; reset none. -/
  blocks : List SavedState := []
  /-- the fill in progress: rank, NRANKS, base digest; R315 (14); reset none. -/
  filling : Option (Nat × Nat × Nat) := none
  /-- sticky FAILED; R307 (14); reset 0. -/
  failed : Bool := false
  /-- PAGES_COPIED, 32 bits; R307 (14); reset 0. -/
  pages : Nat := 0
  /-- PAGES_PROMOTED, 32 bits; R307 (14); reset 0. -/
  promoted : Nat := 0
  /-- HELD_WRITES, 32 bits; R307 (14); reset 0. -/
  heldN : Nat := 0
  /-- HOLD_US, 32 bits, of the holds that have ended; R307 (14); reset 0. -/
  holdUs : Nat := 0
  /-- time since which at least one write has been held, µs; R307 (14); reset none. -/
  holdSince : Option Nat := none
  /-- CHUNKS_SENT, 32 bits; R307 (14); reset 0. -/
  chunksSent : Nat := 0
  /-- CHUNKS_VERIFIED, 32 bits; R307 (14); reset 0. -/
  chunksVerified : Nat := 0
deriving DecidableEq, Repr

/-- A drain record (R329). -/
structure DrainRec where
  seq : Nat
  cause : Nat
  replace : Bool
  clearOk : Bool
  resumed : Bool
  step : Nat
  unit : Nat
  jobTag : Nat
  scanFails : Nat
  scanFirst : Nat
  repeatFails : Nat
  verdictIdx : Nat
deriving DecidableEq, Repr

/-- A clear record (R376). -/
structure ClearRec where
  kind : Nat
  clearOk : Bool
  scanOk : Bool
  retained : Bool
  seq : Nat
  cause : Nat
  scanFirst : Nat
  energy : Nat
  pkgDigest : Nat
  baseDigest : Nat
deriving DecidableEq, Repr

/-- What a clearing or scan in progress belongs to (R20, R327, R331, R324). -/
inductive Work where
  | none | jobClear | drainClear | resetClear
  | jobScan | drainScan | drainJobScan | selfScan | spareScan | undrainScan
  | jobSign | drainSign | resetSign
deriving DecidableEq, Repr

/-- The device's states and records (15). -/
structure Device where
  /-- device state; R331 (15); reset OFF. -/
  st : DevState := .off
  /-- suspect: first cause and its unit, in flash; R321 (15); reset none. -/
  suspect : Option (Nat × Nat) := none
  /-- persistent replacement flag; R201, R327 (09, 15); reset DESIGN CHOICE 0 (log entry 6). -/
  replace : Bool := false
  /-- 1 bit: the persistent replacement flag of a full repair list, with which the device still enters READY; R202 (09);
  reset DESIGN CHOICE 0 (log entry 6). -/
  replaceFull : Bool := false
  /-- service flag, in flash; R283 (13); reset DESIGN CHOICE 0 (log entry 6). -/
  service : Bool := false
  /-- clearing, scan or signing in progress; R20, R327 (01, 15); reset none. -/
  work : Work := .none
  /-- cause of the drain in progress: code, unit, step, verdict, job tag; R327 (15); reset none. -/
  drain : Option (Nat × Nat × Nat × Nat × Nat) := none
  /-- 1 bit: the drain was interrupted and resumes; R327 (15); reset 0. -/
  resumed : Bool := false
  /-- 1 bit: REPLACE of a requested drain; R328 (15); reset 0. -/
  drainReplace : Bool := false
  /-- result of the clearing in progress; R207 (09); reset 1. -/
  clearOk : Bool := true
  /-- result of the scan in progress: fails, repeat fails; R324 (15); reset empty. -/
  scan : ScanResult := ⟨[], [], [], []⟩
  /-- the scan image in flash: the sets whose digest fails in copy A, and in copy B; R323 (15); reset DESIGN CHOICE none
  (log entry 6). -/
  scanA : List Nat := []
  scanB : List Nat := []
  /-- the base region is retained by the clearing in progress; R20, R21 (01); reset 0. -/
  retain : Bool := false
  /-- 1 bit: the clear record of a JOB_END is still to be signed; R20, R376 (01, 17); reset 0. -/
  signDue : Bool := false
  /-- 1 bit: the last job ended with reason DRAIN; R327 (15); reset 0. -/
  endDrain : Bool := false
  /-- package digest for the clear record; R20 (01); reset 0. -/
  endDigest : Nat := 0
  /-- 1 bit: the job ended while FILLING; R317 (14); reset 0. -/
  fromFill : Bool := false
  /-- 1 bit, in flash: a job was lost to a reset or with 72 V, and is not yet cleared; R18, R331 (01, 15); reset 0. -/
  lostJob : Bool := false
  /-- 1 bit: HIBERNATE was entered from SPARE; R331 (15); reset 0. -/
  hibSpare : Bool := false
  /-- 1 bit: a scan pass must be repeated after the job; R315, R324; reset 0. -/
  scanDue : Bool := false
  /-- the last 16 drain records in flash, oldest first; R329 (15); reset DESIGN CHOICE none (entry 6). -/
  drains : List DrainRec := []
  /-- drains over the module's life; R329 (15); reset DESIGN CHOICE 0 (log entry 6). -/
  drainSeq : Nat := 0
  /-- the last 64 clear records in flash, oldest first; R376 (17); reset DESIGN CHOICE none (entry 6). -/
  clears : List ClearRec := []
  /-- clear records over the module's life; R376 (17); reset DESIGN CHOICE 0 (log entry 6). -/
  clearSeq : Nat := 0
deriving DecidableEq, Repr

/-- Firmware, fuses and anchors (17). -/
structure Firmware where
  /-- image slots A and B; R364 (17); reset DESIGN CHOICE absent (log entry 6). -/
  slotA : Option Image := none
  slotB : Option Image := none
  /-- selector, 0 A, 1 B; R364 (17); reset DESIGN CHOICE 0 (log entry 6). -/
  active : Nat := 0
  /-- slot that runs; R374 (17); reset none. -/
  running : Option Nat := none
  /-- the image that runs, as it was verified; R366, R374 (17); reset none. -/
  image : Option Image := none
  /-- 1 bit: TRIAL; R364, R378 (17); reset DESIGN CHOICE 0 (log entry 6). -/
  trial : Bool := false
  /-- 1 bit: a committed image waits in the inactive slot; R377 (17); reset 0. -/
  committed : Bool := false
  /-- security version floor F, 63 fuses; R364 (17); reset DESIGN CHOICE 0 (log entry 6). -/
  floor : Nat := 0
  /-- revoked keys; R364 (17); reset DESIGN CHOICE none (log entry 6). -/
  revoked : List Nat := []
  /-- owner anchors, four at most, in flash; R370 (17); reset DESIGN CHOICE none (log entry 6). -/
  anchors : List (List Byte) := []
  /-- 1 bit each: IMAGE_FALLBACK is to be raised once firmware runs; the bad slot is to be repaired;
  R367, R378 (17); reset 0. -/
  fallback : Bool := false
  repair : Bool := false
  /-- 1 bit: the ROM is in recovery; R379 (17); reset 0. -/
  recovery : Bool := false
  /-- recovery image bytes accepted, and the bytes, 8 MiB at most; R379 (17); reset 0, zero. -/
  received : Nat := 0
  recBuf : Mem := []
  /-- last byte answered on SB_TX; R379 (17); reset none. -/
  answer : Option Nat := none
deriving DecidableEq, Repr

/-- Pins, rails and the test access port (18). -/
structure Pins where
  /-- 1 bit: 72 V present above the thresholds; R383, R387 (18); reset 0. -/
  v72 : Bool := false
  /-- 1 bit: overcurrent latch; R387 (18); reset 0. -/
  latch : Bool := false
  /-- 1 bit: PWR_EN; R390 (18); reset 0 (pull-down). -/
  pwrEn : Bool := false
  /-- 1 bit: RESET_N low; R385 (18); reset 0 (pull-up). -/
  resetLow : Bool := false
  /-- 1 bit: PWR_GOOD; R390 (18); reset 0. -/
  pwrGood : Bool := false
  /-- 1 bit: ALERT_N asserted; R358 (16); reset 0. -/
  alert : Bool := false
  /-- 1 bit: THERM_TRIP_N asserted; R285 (13); reset 0. -/
  tripped : Bool := false
  /-- level of PRESENT_N; R390 (18); reset DESIGN CHOICE low, the module is mated (log entry 6). -/
  presentN : Bool := false
  /-- levels of the SLOT_ID straps, 6 bits; R390, R392 (18); reset 0x3F (pull-ups). -/
  straps : Nat := 0x3F
  /-- SLOT_ID sampled, 6 bits; R392 (18); reset 0x3F (pins open). -/
  slotId : Nat := 0x3F
  /-- level of SB_TX; R390, R391, R393 (18); reset low, the housekeeping rail is down. -/
  sbTx : Bool := false
  /-- level of SB_RX; R390, R393 (18); reset high (pull-up). -/
  sbRx : Bool := true
  /-- levels of TCK, TMS, TDI and TDO; R390, R394 (18); reset DESIGN CHOICE low (log entry 6). -/
  tck : Bool := false
  tms : Bool := false
  tdi : Bool := false
  tdo : Bool := false
  /-- 1 bit: firmware verified, steps 2 and 3 of R383 complete; reset 0. -/
  verified : Bool := false
  /-- the compute rails that are on, in the order in which they came up; R382, R383 (18); reset none. -/
  rails : List Rail := []
  /-- 1 bit: VSER supplies the lanes of E0 and E1 only, and only the host edge and memory edges are clocked; R382 (18);
  reset 0. -/
  lowPower : Bool := false
  /-- start-up step reached, 0 to 9; R383 (18); reset 0. -/
  startup : Nat := 0
  /-- time at which step 7 of R383 ended, µs: no port was left in TRAINING; reset none. -/
  trainedAt : Option Nat := none
  /-- time at which start-up ended, µs; model's own for R226; reset none. -/
  upAt : Option Nat := none
  /-- time of the last rail fault, µs, and 1 bit: rails kept off by a second one; R386 (18); reset none. -/
  railFault : Option Nat := none
  railsOff : Bool := false
  /-- TAP instruction: 0 BYPASS, 1 IDCODE, 2 SAMPLE/PRELOAD, 3 EXTEST; R394 (18); reset IDCODE, PRESUMED
  (IEEE 1149.1, log entry 7). -/
  tapIr : Nat := 1
  /-- TAP data register selected; R394 (18); reset IDCODE value, PRESUMED (log entry 7). -/
  tapDr : Nat := 0x1A9094C7
  /-- boundary-scan register over the sideband pins; R394 (18); reset DESIGN CHOICE 0 (log entry 6). -/
  boundary : Nat := 0
  /-- 1 bit: EXTEST drives the sideband pins; R394 (18); reset 0. -/
  driven : Bool := false
deriving DecidableEq, Repr

/-- The state of the machine. -/
structure State where
  /-- commands that wait, first in, first out; the model's own queue; reset empty. -/
  pending : List Instr
  /-- counter of free values; the model's own; reset DESIGN CHOICE 0 (log entry 2). -/
  free : Nat
  /-- time base of the model, µs, advanced by POWER_WINDOW; the model's own; reset DESIGN CHOICE 0 (entry 8). -/
  nowUs : Nat
  /-- bolt and LPDDR5X bytes; R186 (09); reset DESIGN CHOICE zero (log entry 1). -/
  mem : Mem
  /-- codewords, poison, scrub, repair; R195 to R203 (09). -/
  health : MemHealth
  /-- device state and records; R331 (15). -/
  dev : Device
  /-- pins and rails; R382 to R394 (18). -/
  pins : Pins
  /-- firmware; R364 to R380 (17). -/
  fw : Firmware
  /-- the job; R18 (01). -/
  job : Job
  /-- the load window; R342 (16); reset none. -/
  load : Option LoadWindow
  /-- resident base region; R21 (01); reset none. -/
  base : Option BaseRegion
  /-- shuttle; R165 (08). -/
  shut : Shuttle
  /-- 256 panels, unlisted at reset; R17 (01). -/
  panels : Tab Panel
  /-- 16 sleeve hubs, unlisted at reset; R17 (01). -/
  hubs : Tab Hub
  /-- check fence; R160 (07). -/
  fence : Fence
  /-- 12 seam ports, unlisted at reset; R223 (10). -/
  ports : Tab SeamPort
  /-- collective engine; R231 (10). -/
  coll : CollEngine
  /-- host edge; R237 (11). -/
  host : HostEdge
  /-- mailboxes, settings, events, marks; R333 (16). -/
  mgmt : Mgmt
  /-- power; R260 (12). -/
  power : Power
  /-- heat; R281 (13). -/
  therm : Thermal
  /-- snapshots; R298 (14). -/
  snap : SnapEngine
deriving DecidableEq, Repr

/-- The machine right after reset: the module before 72 V arrives, state OFF (R331), every unit at its
Reset values. -/
def State.reset : State :=
  { pending := [], free := 0, nowUs := 0, mem := [], health := {}, dev := {}, pins := {}, fw := {}
    job := {}, load := none, base := none, shut := {}, panels := [], hubs := [], fence := {}
    ports := [], coll := {}, host := {}, mgmt := {}, power := {}, therm := {}, snap := {} }

/-- Faults of the model: steps that the spec says cannot arise. Each is safe: a run stops. -/
inductive Fault where
  /-- Raised by a slot, a stitch or an engine's step when the shuttle issues nothing: no job runs (R18), the job is held
  at a STEP_OPEN (R180), a stitch waits under SYNC or for FIFO credit (R169, R172), the check fence holds (R160), or the
  step is abandoned (R180). Safe. -/
  | noJob
  /-- Raised by an operation of a package that R182 refuses at load, so that it never executes. Safe. -/
  | notAdmitted
  /-- Raised by an access to an address that R186 reserves: a package with such an access is refused with NO_FIT. Safe. -/
  | reservedAddress
deriving DecidableEq, Repr

/-- Refusals of the model. -/
inductive Refusal where
  /-- Raised by exec for a command that has no meaning yet. Safe. -/
  | notModelled (mnemonic : String)
deriving DecidableEq, Repr

/-- The outcome of a command. -/
abbrev Out := Host.Outcome State Fault Refusal

end Sys2Proof.Machine
end

