-- ==== Sys2Proof/Machine/Tensors.lean ====
section
/-! DEFINITION. The shape of a tensor from its descriptor: extents, lines, blocks, groups and the bytes of its planes
(R37 to R40, R49, R72, R171, R400). -/

namespace Sys2Proof.Machine

open Sys2Proof.Config

def ceilDiv (a b : Nat) : Nat := (a + b - 1) / b
def roundUp (a b : Nat) : Nat := ceilDiv a b * b

/-- Whether a base lies in the panel-local window (R186). -/
def isLocal (base : Nat) : Bool :=
  decide (localBase ≤ 256 * base) && decide (256 * base < localBase + sliceBytes)

/-- Extents of the axes in use (R171). -/
def axesOf (t : TensorDesc) : List Nat := t.ext.take (t.axes + 1)
/-- Elements of a tensor; an extent of 0 makes it empty (R171). -/
def tensorSize (t : TensorDesc) : Nat := (axesOf t).foldl (· * ·) 1
/-- Contraction axis, its extent and its stride in logical order (R37, R72). -/
def caxisOf (t : TensorDesc) : Nat := if fmtNarrow t.fmt then t.caxis else 0
def extC (t : TensorDesc) : Nat := (axesOf t).getD (caxisOf t) 1
def strideC (t : TensorDesc) : Nat := ((axesOf t).take (caxisOf t)).foldl (· * ·) 1
/-- Lines along the contraction axis: the product of the other extents, so that a contraction of extent 0 still has
its lines (R55). -/
def lineCount (t : TensorDesc) : Nat :=
  ((axesOf t).zipIdx.map (fun e => if e.2 = caxisOf t then 1 else e.1)).foldl (· * ·) 1
/-- Element index of position c of line l, and back (R40, R72). -/
def elemIndex (t : TensorDesc) (l c : Nat) : Nat :=
  l % max (strideC t) 1 + strideC t * (c + extC t * (l / max (strideC t) 1))
def lineOfElem (t : TensorDesc) (x : Nat) : Nat × Nat :=
  let st := max (strideC t) 1
  let e := max (extC t) 1
  (x % st + st * (x / (st * e)), x / st % e)
/-- Scale span g (R39). -/
def spanOf (t : TensorDesc) : Nat := 2 ^ t.span
/-- Blocks and groups of one line (R37, R39, R40). -/
def lineBlocks (t : TensorDesc) : Nat := ceilDiv (extC t) (fmtBlock t.fmt)
def lineGroups (t : TensorDesc) : Nat := ceilDiv (lineBlocks t) (spanOf t)
def blockCount (t : TensorDesc) : Nat := lineCount t * lineBlocks t

/-- Bytes of each plane (R38, R49, R400). -/
def elemBytes (t : TensorDesc) : Nat :=
  if fmtNarrow t.fmt then 16 * blockCount t else fmtBytes t.fmt * tensorSize t
def scaleBytesOf (t : TensorDesc) : Nat := if fmtNarrow t.fmt then lineCount t * lineGroups t else 0
def storeBytesOf (t : TensorDesc) : Nat := if t.kout = 0 then 0 else 16 + 8 * t.storeCap
def indexBytesOf (t : TensorDesc) : Nat := if t.kout = 0 then 0 else 4 * blockCount t

/-- The descriptor of an entry, and a tensor's (R171). -/
def descOf (p : Package) (i : Nat) : Desc := p.descs.getD i .empty
def tensorOf (p : Package) (i : Nat) : Option TensorDesc :=
  match descOf p i with | .tensor t => some t | _ => none

/-- Group of block b, counted over the tensor. -/
def groupOf (t : TensorDesc) (b : Nat) : Nat :=
  let n := max (lineBlocks t) 1
  b / n * lineGroups t + b % n / spanOf t

/-- The planes of a tensor as (base in units of 256 bytes, bytes). -/
def planeSpans (t : TensorDesc) : List (Nat × Nat) :=
  [(t.elemBase, elemBytes t), (t.scaleBase, scaleBytesOf t), (t.storeBase, storeBytesOf t), (t.indexBase, indexBytesOf t)]

end Sys2Proof.Machine
end

