-- ==== Sys2Proof/Machine/Ops.lean ====
section
/-! DEFINITION. The named operations over memory, tables, counters, settings, events and alerts that
the meanings share. -/

namespace Sys2Proof.Machine

open Sys2Proof.Config

/-! ### Numbers and bytes (R6, R9) -/

/-- A little-endian number (R6). -/
def leNat : List Byte → Nat
  | [] => 0
  | b :: bs => b.toNat + 256 * leNat bs

/-- `n` little-endian bytes of `v` (R6). -/
def leBytes : Nat → Nat → List Byte
  | 0, _ => []
  | n + 1, v => BitVec.ofNat 8 (v % 256) :: leBytes n (v / 256)

/-- Bits [lo + n − 1 : lo] of a word. -/
def fieldOf (v lo n : Nat) : Nat := v / 2 ^ lo % 2 ^ n

/-- Bit i of a word. -/
def bitOf (v i : Nat) : Bool := v / 2 ^ i % 2 == 1

def boolNat (b : Bool) : Nat := if b then 1 else 0

/-- The word `w` words into a byte string. -/
def wordAt (bs : List Byte) (off : Nat) : Nat := leNat ((bs.drop off).take 4)


/-! ### Memory in canonical form (R186; log entry 1) -/

/-- A byte: an unlisted address reads 0. -/
def memGet (m : Mem) (a : Nat) : Byte := tabGet 0#8 m a

/-- Write one byte, keeping the canonical form. -/
def memSet (m : Mem) (a : Nat) (b : Byte) : Mem := if b = 0#8 then tabErase m a else tabPut m a b

/-- `n` bytes from `a`. -/
def memBytes (m : Mem) (a n : Nat) : List Byte := (List.range n).map (fun i => memGet m (a + i))

/-- Write bytes from `a` upwards. -/
def memPut (m : Mem) (a : Nat) : List Byte → Mem
  | [] => m
  | b :: bs => memPut (memSet m a b) (a + 1) bs

/-- Zero every byte outside a kept range (R207). -/
def memKeep (m : Mem) (keep : Nat → Bool) : Mem := m.filter (fun c => keep c.1)

/-- Drop the bytes of a range: they read 0 (R207). -/
def memErase (m : Mem) (a n : Nat) : Mem := m.filter (fun c => c.1 < a || decide (a + n ≤ c.1))

/-- Addresses strictly rising from `lo`, and no listed zero. -/
def memSorted : Nat → Mem → Bool
  | _, [] => true
  | lo, (a, b) :: t => decide (lo ≤ a) && !(b == 0#8) && memSorted (a + 1) t

/-- The canonical form of memory. -/
def Memory.wf (m : Mem) : Bool := memSorted 0 m

/-! ### Units -/

def panelOf (s : State) (p : Nat) : Panel := tabGet {} s.panels p
def setPanel (s : State) (p : Nat) (v : Panel) : State := { s with panels := tabPut s.panels p v }
def modPanel (s : State) (p : Nat) (f : Panel → Panel) : State := setPanel s p (f (panelOf s p))

def hubOf (s : State) (h : Nat) : Hub := tabGet {} s.hubs h
def setHub (s : State) (h : Nat) (v : Hub) : State := { s with hubs := tabPut s.hubs h v }
def modHub (s : State) (h : Nat) (f : Hub → Hub) : State := setHub s h (f (hubOf s h))

def portOf (s : State) (p : Nat) : SeamPort := tabGet {} s.ports p
def setPort (s : State) (p : Nat) (v : SeamPort) : State := { s with ports := tabPut s.ports p v }
def modPort (s : State) (p : Nat) (f : SeamPort → SeamPort) : State := setPort s p (f (portOf s p))

def hostPortOf (s : State) (e : Nat) : HostPort := tabGet {} s.host.ports e
def modHostPort (s : State) (e : Nat) (f : HostPort → HostPort) : State :=
  { s with host := { s.host with ports := tabPut s.host.ports e (f (hostPortOf s e)) } }

def flowOf (s : State) (f : Nat) : Option Flow := tabFind s.host.flows f
def setFlow (s : State) (f : Nat) (v : Flow) : State :=
  { s with host := { s.host with flows := tabPut s.host.flows f v } }
/-- The context becomes FREE (R244). -/
def freeFlow (s : State) (f : Nat) : State :=
  { s with host := { s.host with flows := tabErase s.host.flows f } }
def modFlow (s : State) (f : Nat) (g : Flow → Flow) : State :=
  match flowOf s f with
  | none => s
  | some v => setFlow s f (g v)

def boxOf (s : State) (m : Nat) : Mailbox := tabGet {} s.mgmt.boxes m
def setBox (s : State) (m : Nat) (v : Mailbox) : State :=
  { s with mgmt := { s.mgmt with boxes := tabPut s.mgmt.boxes m v } }
def modBox (s : State) (m : Nat) (f : Mailbox → Mailbox) : State := setBox s m (f (boxOf s m))

def memUnitOf (s : State) (u : Nat) : MemUnit := tabGet {} s.health.units u
def modMemUnit (s : State) (u : Nat) (f : MemUnit → MemUnit) : State :=
  { s with health := { s.health with units := tabPut s.health.units u (f (memUnitOf s u)) } }

/-- Every panel of the member (R25). -/
def allPanels : List Nat := List.range panels

/-- The 12 seam ports, N0 to N7 and U0 to U3 (R210). -/
def allPorts : List Nat := List.range 12

/-- The 16 mailboxes (R333). -/
def allBoxes : List Nat := List.range 16

def modJob (s : State) (f : Job → Job) : State := { s with job := f s.job }

/-! ### Free values (log entry 2) -/

/-- The next free value and the state that has consumed it. -/
def takeFree (s : State) : BitVec 64 × State := (freeValue s.free, { s with free := s.free + 1 })

/-! ### Settings (R349) -/

/-- The Reset value of a setting (R153, R184, R193, R197, R199, R239, R246, R255, R268, R264, R271,
R273, R275, R281, R287 to R290, R324, R352). -/
def settingReset (id : Nat) : Nat :=
  match id with
  | 0x100 => 12 | 0x101 => 100 | 0x102 => 1 | 0x103 => 1 | 0x104 => 0xFFFFFFFF
  | 0x110 => 2 | 0x111 => 10
  | 0x120 => 4096 | 0x121 => 1024 | 0x122 => 256 | 0x123 => 60 | 0x124 => 24
  | 0x130 => 9216 | 0x131 => 0 | 0x132 => 6 | 0x133 => 0 | 0x134 => 0 | 0x135 => 0 | 0x136 => 46310
  | 0x138 => 100 | 0x139 => 2000 | 0x13A => 25 | 0x13B => 32
  | 0x140 => 20 | 0x141 => 50 | 0x142 => 5600 | 0x143 => 8000 | 0x144 => 0 | 0x145 => 6
  | 0x146 => 0 | 0x147 => 10000
  | 0x150 => 800 | 0x151 => 50 | 0x152 => 125 | 0x153 => 150 | 0x154 => 10 | 0x155 => 0
  | 0x160 => 60
  | 0x170 => 0 | 0x171 => 0xFF | 0x172 => 0
  | _ => 0

def settingKey (id idx : Nat) : Nat := 65536 * id + idx

/-- The committed value of a setting. -/
def setting (s : State) (id idx : Nat) : Nat :=
  match tabFind s.mgmt.settings (settingKey id idx) with
  | some v => v.value
  | none => settingReset id

/-- A signed 32-bit value. -/
def toSigned (v : Nat) : Int := (BitVec.ofNat 32 v).toInt

/-- STAGING_SIZE in bytes of a channel (R193). -/
def stagingBytes (s : State) : Nat := setting s 0x120 0 * 0x10000
/-- SPOOL_EXT in bytes of a channel (R193). -/
def spoolExtBytes (s : State) : Nat := setting s 0x121 0 * 0x20000
/-- Start of the staging window of channel c (R193). -/
def stagingStart (s : State) (c : Nat) : Nat := channelBytes * c + channelBytes - stagingBytes s
/-- Bytes of the snapshot share of a channel (R193). -/
def snapShareBytes (s : State) : Nat := stagingBytes s - spoolExtBytes s
/-- The byte `i` of the snapshot shares taken in channel order (R342). -/
def snapShareAddr (s : State) (i : Nat) : Nat :=
  let n := max (snapShareBytes s) 1
  stagingStart s (i / n) + spoolExtBytes s + i % n
/-- Start of panel p's extension share (R123, R193). -/
def extStart (s : State) (p : Nat) : Nat :=
  stagingStart s (p / 2) + p % 2 * (spoolExtBytes s / 2)
/-- Bytes of a panel's extension share, a multiple of 64 KiB (R123). -/
def extBytes (s : State) : Nat := spoolExtBytes s / 2 / 0x10000 * 0x10000

/-! ### Grades (R263) -/

/-- V_set(g) in mV, with the V_USER applied for the grade. -/
def vSet (s : State) (g : Nat) : Nat := vCal g + 40 + tabGet 0 s.power.vUser g

/-- A grade whose V_set exceeds 0.68 V is unavailable. -/
def gradeAvailable (s : State) (g : Nat) : Bool := decide (vSet s g ≤ 680)

/-! ### Events (R353 to R356) -/

/-- Sources (R354). -/
def srcHub (h : Nat) : Nat := 0x100 + h
def srcShuttle : Nat := 0x110
def srcEdge (e : Nat) : Nat := 0x111 + e
def srcPort (p : Nat) : Nat := 0x118 + p
def srcColl : Nat := 0x124
def srcHost (e : Nat) : Nat := 0x126 + e
def srcHostEdge : Nat := 0x128
def srcThimble : Nat := 0x130
/-- The source of a memory unit: the panel of a slice, the memory edge of a channel (R188, R354). -/
def srcMem (bolt : Bool) (u : Nat) : Nat := if bolt then u else srcEdge (u / 32)

/-- Whether a job package is loaded (R19). -/
def jobLoaded (s : State) : Bool := s.job.pkg.isSome

/-- STEP of an event record (R353). -/
def eventStep (s : State) : Nat := if jobLoaded s then s.job.step else 0xFFFFFFFF

/-- Append to the log of 65,536 records; a full log drops its oldest and counts the loss (R355). -/
def pushLog (m : Mgmt) (e : Event) : Mgmt :=
  if m.log.length < 65536 then { m with log := m.log ++ [e] }
  else { m with log := (m.log ++ [e]).drop 1, dropped := m.dropped + 1 }

/-- Raise an event: the source numbers it and the Thimble logs it (R353, R355). -/
def raiseEv (s : State) (src : Nat) (c : Ev) (args : List Nat) : State :=
  let q := tabGet 0 s.mgmt.seqs src
  let m := pushLog s.mgmt ⟨src, c, q, eventStep s, args⟩
  { s with mgmt := { m with seqs := tabPut m.seqs src ((q + 1) % 2 ^ 32) } }

/-! ### Alerts (R358) -/

inductive Cause where
  | power | thermal | cooling | sensor | link | hostLink | memCe | device
deriving DecidableEq, Repr

def causeBit : Cause → Nat
  | .power => 0 | .thermal => 1 | .cooling => 2 | .sensor => 3
  | .link => 4 | .hostLink => 5 | .memCe => 6 | .device => 7

/-- ALERT_N follows the causes under ALERT_MASK (R358). -/
def driveAlert (s : State) : State :=
  { s with pins := { s.pins with alert := Nat.land s.mgmt.causes (setting s 0x171 0) != 0 } }

def setCause (s : State) (c : Cause) : State :=
  driveAlert { s with mgmt := { s.mgmt with causes := Nat.lor s.mgmt.causes (2 ^ causeBit c) } }

def clearCause (s : State) (c : Cause) : State :=
  if bitOf s.mgmt.causes (causeBit c) then
    driveAlert { s with mgmt := { s.mgmt with causes := s.mgmt.causes - 2 ^ causeBit c } }
  else s

/-! ### Device states -/

/-- EXTEST returns to 0 (R352). -/
def dropExtest (s : State) : State :=
  driveAlert { s with mgmt := { s.mgmt with settings := tabErase s.mgmt.settings (settingKey 0x172 0) }
                      pins := { s.pins with driven := false } }

/-- The device enters a state (R331); on leaving READY or DRAINED, EXTEST returns to 0 (R352). -/
def goState (s : State) (st : DevState) : State :=
  let s1 := { s with dev := { s.dev with st := st } }
  if s.dev.st ≠ st ∧ (s.dev.st = .ready ∨ s.dev.st = .drained) then dropExtest s1 else s1

/-- The image that runs (R374): the one verified as it started, whatever its slot holds since. -/
def runningImage (s : State) : Option Image := s.fw.image

/-- The compute rails are on (R382). -/
def railsUp (s : State) : Bool := !s.pins.rails.isEmpty

/-- A recovery image runs (R379). -/
def runsRecovery (s : State) : Bool := (runningImage s).any (fun i => i.recovery)

/-- A report of something that has not happened: an engine with nothing of the kind in progress, a timer that does not
run, an end without a beginning. Nothing changes (DESIGN CHOICE, log entry 17). -/
def noEvent (s : State) : Out := .next s

/-- RUNNING covers a job that is held; the job issues only when it is neither held nor stopped
(R18, R180). -/
def running (s : State) : Bool :=
  jobLoaded s && !s.job.held && !s.shut.stopped && s.dev.st == .running

/-- A meaning that needs an issuing job (R18, R180). -/
def whenRunning (s : State) (k : Package → Out) : Out :=
  match s.job.pkg with
  | none => .fault .noJob
  | some p => if running s then k p else .fault .noJob

/-- The step in hand is abandoned, or its job has ended with it: nothing more of it is done (R95, R119, R131, R321). -/
def stepGone (s : State) : Bool := s.fence.abandoned || s.job.pkg.isNone

/-- The stitch stream is neither held at the check fence (R160) nor stopped by an abandoned step, after which the
shuttle stands at the STEP_OPEN (R180). -/
def streamOn (s : State) : Bool := s.fence.phase == .none && !s.shut.cut

/-- The shuttle issues: the stream is on and no stitch waits under SYNC (R169). -/
def issuing (s : State) : Bool := s.shut.syncWait == 0 && streamOn s

/-- A meaning of a stitch or a slot: it runs when the shuttle issues (R172). -/
def whenIssuing (s : State) (k : Package → Out) : Out :=
  whenRunning s (fun p => if issuing s then k p else .fault .noJob)

/-! ### The state of a run of several parts -/

/-- Apply a meaning's parts in order, stopping at the first fault. -/
def eachDo {α : Type} (f : State → α → Out) : List α → State → Out
  | [], s => .next s
  | x :: xs, s =>
    match f s x with
    | .next s' => eachDo f xs s'
    | .fault r => .fault r
    | .refused r => .refused r

/-- Sequencing of outcomes. -/
def outThen (o : Out) (k : State → Out) : Out :=
  match o with
  | .next s => k s
  | .fault r => .fault r
  | .refused r => .refused r

end Sys2Proof.Machine
end

