-- ==== Sys2Proof/Machine/Selvedge.lean ====
section
/-! DEFINITION. Reed-Solomon codes over GF(2^8): the selvedge code RS(72,64) and its RS(16,8) (09_memory.md R194 to
R196), RS(128,122) of the seam link (10_links_and_fitting.md R215). The encoder, the syndromes of an error pattern, and
what the decoder makes of the pattern. -/

namespace Sys2Proof.Machine

/-- Multiplication by α = 2 under x^8 + x^4 + x^3 + x^2 + 1 (R194). -/
def gfX (a : Nat) : Nat := if a < 128 then 2 * a else Nat.xor (2 * a - 256) 0x1D

def gfMulGo : Nat → Nat → Nat → Nat
  | 0, _, _ => 0
  | n + 1, a, b => Nat.xor (if b % 2 = 1 then a else 0) (gfMulGo n (gfX a) (b / 2))

def gfMul (a b : Nat) : Nat := gfMulGo 8 a b

def gfPow (a : Nat) : Nat → Nat
  | 0 => 1
  | n + 1 => gfMul a (gfPow a n)

/-- α^n. -/
def gfAlpha : Nat → Nat
  | 0 => 1
  | n + 1 => gfX (gfAlpha n)

/-- a^254, the inverse. -/
def gfInv (a : Nat) : Nat := gfPow a 254

/-- Coefficients, highest first, of a polynomial times (x + r). -/
def polyMulRoot (p : List Nat) (r : Nat) : List Nat :=
  List.zipWith Nat.xor (p ++ [0]) (0 :: p.map (gfMul r))

/-- g(x) = (x + α^0) … (x + α^(n−1)), highest coefficient first (R194, R215). -/
def rsGen : Nat → List Nat
  | 0 => [1]
  | n + 1 => polyMulRoot (rsGen n) (gfAlpha n)

/-- Division by a monic generator: the remainder of `data × x^n` (R194). -/
def rsDiv (g : List Nat) : List Nat → List Nat → List Nat
  | [], rem => rem
  | d :: ds, rem =>
    let f := Nat.xor d (rem.getD 0 0)
    rsDiv g ds (List.zipWith (fun r c => Nat.xor r (gfMul f c)) (rem.drop 1 ++ [0]) (g.drop 1))

/-- The `n` check bytes of a line (R194). -/
def rsCheck (n : Nat) (data : List Byte) : List Byte :=
  (rsDiv (rsGen n) (data.map BitVec.toNat) (List.replicate n 0)).map (BitVec.ofNat 8)

/-- Syndrome i of an error pattern of a codeword of `n` bytes, given as (byte position, XOR value) pairs; position p is
the coefficient of x^(n − 1 − p). -/
def syndromeOf (n : Nat) (pat : List (Nat × Byte)) (i : Nat) : Nat :=
  pat.foldl (fun a (p, x) => Nat.xor a (gfMul x.toNat (gfAlpha (i * (n - 1 - p) % 255)))) 0

/-- Syndrome i of an error pattern of a line's codeword (R194). -/
def syndrome (pat : List (Nat × Byte)) (i : Nat) : Nat := syndromeOf 72 pat i

/-- One elimination step for the rows of a linear system over GF(2^8), each row a coefficient list. -/
def gfReduce (piv : List Nat) (c : Nat) (row : List Nat) : List Nat :=
  let f := row.getD c 0
  List.zipWith (fun r p => Nat.xor r (gfMul f p)) row piv

/-- Gaussian elimination on columns `c` to `n − 1`; `none` for a singular system. -/
def gfSolveGo : Nat → Nat → List (List Nat) → List (List Nat) → Option (List (List Nat))
  | 0, _, done, _ => some done
  | k + 1, c, done, rows =>
    match rows.find? (fun r => r.getD c 0 ≠ 0) with
    | none => none
    | some r =>
      let inv := gfInv (r.getD c 0)
      let piv := r.map (gfMul inv)
      gfSolveGo k (c + 1) (done.map (gfReduce piv c) ++ [piv])
        ((rows.erase r).map (gfReduce piv c))

/-- The solution of an n × n system given as augmented rows. -/
def gfSolve (n : Nat) (rows : List (List Nat)) : Option (List Nat) :=
  (gfSolveGo n 0 [] rows).map (fun rs => rs.map (fun r => r.getD n 0))

/-- The error pattern of exactly `v` positions of a codeword of `n` bytes with the `c` syndromes `s`, if there is one: the
locator from the Newton identities, its roots among the positions, the values from the syndromes. -/
def rsLocateIn (n c : Nat) (s : List Nat) (v : Nat) : Option (List (Nat × Byte)) :=
  let sy := fun i => s.getD i 0
  let rows := (List.range v).map (fun i => (List.range v).map (fun j => sy (i + j)) ++ [sy (i + v)])
  match gfSolve v rows with
  | none => none
  | some lam =>
    -- lam j is the coefficient of x^j in x^v + … ; a locator root is X = α^(n − 1 − p)
    let pos := (List.range n).filter (fun p =>
      let X := gfAlpha (n - 1 - p)
      ((List.range v).foldl (fun a j => Nat.xor a (gfMul (lam.getD j 0) (gfPow X j))) (gfPow X v)) == 0)
    if pos.length ≠ v then none
    else
      let vr := (List.range v).map (fun i =>
        pos.map (fun p => gfAlpha (i * (n - 1 - p) % 255)) ++ [sy i])
      match gfSolve v vr with
      | none => none
      | some vals =>
        let pat := List.zipWith (fun p x => (p, BitVec.ofNat 8 x)) pos vals
        if vals.all (· ≠ 0) && (List.range c).all (fun i => syndromeOf n pat i == sy i) then some pat
        else none

/-- The error pattern of a line's codeword (R194, R196). -/
def rsLocate (s : List Nat) (v : Nat) : Option (List (Nat × Byte)) := rsLocateIn 72 8 s v

/-- RS(128,122) (R215): a received codeword with at most 3 bytes in error corrected, and whether a byte was; none if no
codeword lies that near. -/
def rsFix (w : List Byte) : Option (List Byte × Bool) :=
  let pat := (w.zipIdx).map (fun e => (e.2, e.1))
  let s := (List.range 6).map (syndromeOf 128 pat)
  if s.all (· == 0) then some (w, false)
  else ([1, 2, 3].findSome? (rsLocateIn 128 6 s)).map (fun e =>
    ((w.zipIdx).map (fun b => b.1 ^^^ ((e.find? (fun x => x.1 == b.2)).map Prod.snd).getD 0#8), true))

/-- What the decoder makes of a stored error pattern (R196). -/
inductive EccResult where
  | clean
  | corrected (symbols : Nat)
  | miscorrected (symbols : Nat) (residue : List (Nat × Byte))
  | uncorrectable
deriving DecidableEq, Repr

/-- XOR of two patterns, position by position, zeros dropped. -/
def patXor (a b : List (Nat × Byte)) : List (Nat × Byte) :=
  (List.range 72).filterMap (fun p =>
    let x := (a.filter (fun q => q.1 == p)).foldl (fun v q => v ^^^ q.2) 0#8
    let y := (b.filter (fun q => q.1 == p)).foldl (fun v q => v ^^^ q.2) 0#8
    if x ^^^ y = 0#8 then none else some (p, x ^^^ y))

/-- The decoder (R196): every pattern of at most 4 byte positions is corrected; a larger one is
uncorrectable, unless it lies within 4 positions of another codeword, where it is miscorrected. -/
def eccDecode (pat : List (Nat × Byte)) : EccResult :=
  let p := patXor pat []
  if p = [] then .clean
  else if p.length ≤ 4 then .corrected p.length
  else
    let s := (List.range 8).map (syndrome p)
    if s.all (· == 0) then .miscorrected 0 p
    else match [1, 2, 3, 4].findSome? (rsLocate s) with
      | some e => .miscorrected e.length (patXor p e)
      | none => .uncorrectable

end Sys2Proof.Machine
end

