-- ==== Sys2Proof/Machine/Lines.lean ====
section
/-! DEFINITION. The address map (R186) and the lines of the memories: what a read delivers and what a write stores
(R189, R196 to R198), and the writes that first-touch protection holds (R303). -/

namespace Sys2Proof.Machine

open Sys2Proof.Config

/-! ### The address map (R186) -/

def lpddrEnd : Nat := channels * channelBytes
def boltEnd : Nat := boltBase + panels * sliceBytes

/-- The `n` bytes from `a` lie in LPDDR5X or in bolt memory (R186); no bytes lie anywhere (R171, R361). -/
def rangeOk (a n : Nat) : Bool :=
  decide (n = 0) || decide (a + n ≤ lpddrEnd) || (decide (boltBase ≤ a) && decide (a + n ≤ boltEnd))

/-- An address of a slot executed by panel p: the panel-local window is its own slice (R171, R186). -/
def resolveAddr (p a : Nat) : Nat :=
  if localBase ≤ a ∧ a < localBase + sliceBytes then boltBase + sliceBytes * p + (a - localBase) else a

/-- The unit of an address: panel p at p, channel c at 256 + c; and whether it is bolt (R203). -/
def unitOf (a : Nat) : Nat × Bool :=
  if boltBase ≤ a then ((a - boltBase) / sliceBytes, true) else (a / channelBytes, false)

def unitKey (u : Nat × Bool) : Nat := if u.2 then u.1 else 256 + u.1

/-- The start of a slice's job area (R187): after the table, program and pattern stores. -/
def jobAreaOffset (p : Package) : Nat :=
  0x100000 + 0x20000 + roundUp (ceilDiv p.stitches.length panels * 128) 0x10000

/-- Whether a region of the map covers an address (R191): a bolt region lies in the job area of every
slice. -/
def regionHas (p : Package) (r : Region) (a : Nat) : Bool :=
  if r.lpddr then decide (r.start ≤ a) && decide (a < r.start + r.len)
  else decide (boltBase ≤ a) && decide (a < boltEnd) &&
    (let o := (a - boltBase) % sliceBytes
     decide (jobAreaOffset p + r.start ≤ o) && decide (o < jobAreaOffset p + r.start + r.len))

/-- The resident base region is write-protected (R21). -/
def inBase (s : State) (a : Nat) : Bool :=
  match s.base with
  | none => false
  | some b => decide (b.start ≤ a) && decide (a < b.start + b.len)

/-! ### Lines and the selvedge code -/

def linesOf (a n : Nat) : List Nat :=
  if n = 0 then [] else (List.range ((a + n - 1) / 64 - a / 64 + 1)).map (fun i => a / 64 + i)

def pageOf (a : Nat) : Nat := a / 0x10000

/-- Whether any byte of a range satisfies a test on pages or regions; a range is tested by its lines,
since regions begin and end on 64 KiB pages (R192). -/
def anyLine (a n : Nat) (f : Nat → Bool) : Bool := (linesOf a n).any (fun l => f (64 * l))

/-- A line wholly covered by a range. -/
def coversLine (a n l : Nat) : Bool := decide (a ≤ 64 * l) && decide (64 * l + 64 ≤ a + n)

/-- The lines that a write covers only in part: it reads and corrects them first (R189). -/
def partialLines (a n : Nat) : List Nat := (linesOf a n).filter (fun l => !(coversLine a n l))

/-- The bytes of a line with a stored error pattern as a miscorrecting decoder delivers them. -/
def xorBytes (bs : List Byte) (pat : List (Nat × Byte)) : List Byte :=
  (bs.zipIdx).map (fun (b, i) => b ^^^ tabGet 0#8 pat i)

/-- A stored line through the decoder (R196 to R198): its 64 bytes and the symbols corrected; no number of symbols
where the line is uncorrectable or poisoned. -/
def lineRead (s : State) (l : Nat) : List Byte × Option Nat :=
  let bs := memBytes s.mem (64 * l) 64
  if s.health.poison.contains l then (List.replicate 64 0#8, none)
  else match tabFind s.health.errors l with
    | none => (bs, some 0)
    | some pat =>
      match eccDecode pat with
      | .clean => (bs, some 0)
      | .corrected n => (bs, some n)
      | .miscorrected n res => (xorBytes bs res, some n)
      | .uncorrectable => (List.replicate 64 0#8, none)

/-- Whether no line of the memories holds an error or poison. -/
def memClean (s : State) : Bool := s.health.errors.isEmpty && s.health.poison.isEmpty

/-- The lines of a written range are re-encoded: stored errors are gone, and poison too where the whole
line was written; a partial write to a poisoned line writes nothing (R189, R196). -/
def cleanLines (h : MemHealth) (ls : List Nat) : MemHealth :=
  { h with errors := h.errors.filter (fun e => !(ls.contains e.1))
           poison := h.poison.filter (fun x => !(ls.contains x)) }

/-- The bytes of a range that lie in lines a write can store to. -/
def storeLines (a : Nat) (bs : List Byte) (bad : List Nat) (m : Mem) : Mem :=
  match bad with
  | [] => memPut m a bs
  | _ => (bs.zipIdx).foldl (fun t (b, i) => if bad.contains ((a + i) / 64) then t else memSet t (a + i) b) m

/-- What a write makes of the stored lines: a line covered in part is read, corrected, merged and encoded again; an
uncorrectable one is poisoned and not written (R189, R196). -/
def putLines (s : State) (a : Nat) (bs : List Byte) : State :=
  if memClean s then { s with mem := memPut s.mem a bs }
  else
    let ps := partialLines a bs.length
    let bad := ps.filter (fun l => (lineRead s l).2.isNone)
    let fix := ps.filter (fun l => (tabFind s.health.errors l).isSome && !(bad.contains l))
    let m := fix.foldl (fun m l => memPut m (64 * l) (lineRead s l).1) s.mem
    let h := cleanLines s.health ((linesOf a bs.length).filter (fun l => !(bad.contains l)))
    { s with mem := storeLines a bs bad m
             health := { h with poison := h.poison ++ bad.filter (fun l => !(h.poison.contains l)) } }

/-- The memories as a job reads them: held writes are in force for every reader but the snapshot engine, since a hold
changes timing only (R70, R303). -/
def heldIn (s : State) : State := s.snap.heldWrites.foldl (fun t w => putLines t w.addr w.bytes) s

/-- HOLD_US (R307): of the holds that have ended, and of the one in progress. -/
def holdTime (s : State) : Nat :=
  sat32 (s.snap.holdUs + (match s.snap.holdSince with | some t => s.nowUs - t | none => 0))

/-- Only the writes `rest` stay held: a hold with none left is over (R307). -/
def endHold (s : State) (rest : List HeldWrite) : State :=
  { s with snap := { s.snap with
      heldWrites := rest
      holdUs := if rest.isEmpty then holdTime s else s.snap.holdUs
      holdSince := if rest.isEmpty then none else s.snap.holdSince } }

/-- A write is held (R303). -/
def holdWrite (s : State) (w : HeldWrite) : State :=
  { s with snap := { s.snap with
      heldWrites := s.snap.heldWrites ++ [w]
      holdSince := if s.snap.heldWrites.isEmpty then some s.nowUs else s.snap.holdSince } }

/-- The stored bytes as reads deliver them (R196 to R198): errors decoded, poisoned and uncorrectable lines zero. -/
def decodedMem (s : State) : Mem :=
  if memClean s then s.mem
  else
    let m1 := s.health.errors.foldl (fun m e => memPut m (64 * e.1) (lineRead s e.1).1) s.mem
    s.health.poison.foldl (fun m l => memErase m (64 * l) 64) m1

/-- Memory as reads deliver it, held writes in force. -/
def viewMem (s : State) : Mem := decodedMem (heldIn s)

/-- An hour in µs (R197). -/
def hourUs : Nat := 3600000000

/-- Counts of a corrected read (R197). -/
def countCorrected (s : State) (u : Nat) (n : Nat) : State :=
  modMemUnit s u (fun m => { m with
    corrected := sat32 (m.corrected + 1), symbols := sat32 (m.symbols + n)
    ceTimes := s.nowUs :: m.ceTimes.filter (fun t => decide (s.nowUs < t + hourUs))
    life := (m.life.1 + 1, m.life.2.1 + n, m.life.2.2) })

/-- An uncorrectable read is noted (R198): the line is poisoned and counted, an event names unit and address. -/
def noteUncorrectable (s : State) (l : Nat) : State :=
  let u := unitOf (64 * l)
  let s1 := modMemUnit { s with health := { s.health with
        poison := if s.health.poison.contains l then s.health.poison else s.health.poison ++ [l] } }
      (unitKey u) (fun m => { m with
        uncorrectable := sat32 (m.uncorrectable + 1), life := (m.life.1, m.life.2.1, m.life.2.2 + 1) })
  raiseEv s1 (srcMem u.2 u.1) .memUncorrectable [u.1, 64 * l % 2 ^ 32, 64 * l / 2 ^ 32]

end Sys2Proof.Machine
end

