-- ==== Sys2Proof/Machine/Wire.lean ====
section
/-! DEFINITION. The bytes of frames, most significant byte first (R6): seam flits, their payloads, lanes and codewords
(R213 to R215, R222, R233), hemline headers, payloads, nonces and keys (R241, R245, R333, R361, R369, R372). -/

namespace Sys2Proof.Machine

open Sys2Proof.Config

/-- Words of a frame (R6). -/
def beWords (ws : List Nat) : List Byte := ws.flatMap (beBytes 4)
/-- The word at an offset of a frame. -/
def beAt (bs : List Byte) (off : Nat) : Nat := beNat ((bs.drop off).take 4)

/-- `bs` padded with zeros to `n` bytes. -/
def padTo (n : Nat) (bs : List Byte) : List Byte := bs ++ List.replicate (n - bs.length) 0#8

/-- JOB_TAG as words, bits [31:0] first (R222, R225). -/
def tagWords (t : Nat) : List Nat := [t % 2 ^ 32, t / 2 ^ 32 % 2 ^ 32, t / 2 ^ 64 % 2 ^ 32]
def tagAt (bs : List Byte) (off : Nat) : Nat :=
  beAt bs off + 2 ^ 32 * beAt bs (off + 4) + 2 ^ 64 * beAt bs (off + 8)

/-! ### Seam flits (R213 to R215) -/

/-- TYPE of a flit (R214). -/
def flitType : FlitBody → Nat
  | .idle => 0 | .head _ => 1 | .data _ _ => 2 | .hello _ => 3 | .proof _ => 3 | .poison _ => 4 | .vote _ => 5 | .gate _ => 6

/-- The header word (R214). -/
def flitWord (f : TxFlit) : Nat :=
  2 ^ 28 * flitType f.body + 2 ^ 27 * boolNat f.nak + 2 ^ 22 * (f.crd % 32) + 2 ^ 11 * (f.seq % 2048) + f.ack % 2048

/-- A received header word; `corr` is what the decoder did (R214, R215). -/
def readFlit (w : Nat) (corr : Bool) : FlitHdr :=
  { type := fieldOf w 28 4, nak := bitOf w 27, crd := fieldOf w 22 5, seq := fieldOf w 11 11, ack := fieldOf w 0 11, corr := corr }

/-- HEAD (R233). -/
def headBytes (h : Head) : List Byte :=
  beWords ([h.dstPort % 256 + 256 * (h.srcRank % 256) + 65536 * (h.dstRank % 256), h.step,
    h.desc % 16384 + 16384 * (h.phase % 4) + 65536 * (h.micro % 65536), h.segment, h.bytes] ++ tagWords h.jobTag)

def readHead (bs : List Byte) : Head :=
  { dstPort := fieldOf (beAt bs 0) 0 8, srcRank := fieldOf (beAt bs 0) 8 8, dstRank := fieldOf (beAt bs 0) 16 8
    step := beAt bs 4, desc := fieldOf (beAt bs 8) 0 14, phase := fieldOf (beAt bs 8) 14 2
    micro := fieldOf (beAt bs 8) 16 16, segment := beAt bs 12, bytes := fieldOf (beAt bs 16) 0 17, jobTag := tagAt bs 20 }

/-- POISON, 20 bytes (R233, R257). -/
def poisonBytes (p : Poison) : List Byte :=
  beWords ([p.step, p.cause % 256 + 256 * (p.origin % 256)] ++ tagWords p.jobTag)

def readPoison (bs : List Byte) : Poison :=
  { step := beAt bs 0, cause := fieldOf (beAt bs 4) 0 8, origin := fieldOf (beAt bs 4) 8 8, jobTag := tagAt bs 8 }

/-- VOTE, 20 bytes (R233). -/
def voteBytes (v : Vote) : List Byte := beWords ([v.step, v.vote % 256 + 256 * (v.rank % 256)] ++ tagWords v.jobTag)

def readVote (bs : List Byte) : Vote :=
  { step := beAt bs 0, vote := fieldOf (beAt bs 4) 0 8, rank := fieldOf (beAt bs 4) 8 8, jobTag := tagAt bs 8 }

/-- Bytes 0x00 to 0x73 of an identity frame (R222). -/
def identBytes (kind : Nat) (i : Ident) : List Byte :=
  beWords ([1 + 256 * kind + 65536 * (i.port % 256) + 2 ^ 24 * (i.slotId % 64), i.moduleId / 2 ^ 32 % 2 ^ 32,
    i.moduleId % 2 ^ 32, i.state % 256 + 256 * (i.member % 256) + 65536 * 0xB0, i.rank % 65536] ++ tagWords i.jobTag)
    ++ beBytes 16 i.nonce ++ beBytes 16 i.peerNonce ++ padTo 52 (i.pubkey.take 49)

/-- The payload of a flit before its zeros (R222, R233). -/
def flitPayload : FlitBody → List Byte
  | .head h => headBytes h
  | .data bs _ => bs
  | .hello i => identBytes 1 i
  | .proof i => identBytes 2 i ++ padTo 96 (i.signature.take 96)
  | .poison p => poisonBytes p
  | .vote v => voteBytes v
  | .gate w => gatePayload w
  | .idle => []

/-- Wire bytes 0 to 487 of a flit: header, payload, CRC-32 over bytes 0 to 483 (R213). -/
def flitData (f : TxFlit) : List Byte :=
  let d := beBytes 4 (flitWord f) ++ (padTo 480 (flitPayload f.body)).take 480
  d ++ beBytes 4 (crc32 d)

/-- Codeword of a wire byte and its position there; the lane that sends it, of `l` active lanes (R213). -/
def codeOf (j : Nat) : Nat × Nat := (j % 4, j / 4)
def laneOf (l j : Nat) : Nat := j / 4 % l

/-- Codeword c of wire bytes: every fourth byte from byte c (R213). -/
def codeword (bs : List Byte) (c : Nat) : List Byte :=
  (bs.zipIdx).filterMap (fun e => if e.2 % 4 = c then some e.1 else none)

/-- The 512 wire bytes of a flit: data, then the 6 check bytes of each of the 4 codewords (R213, R215). -/
def flitBytes (f : TxFlit) : List Byte :=
  let d := flitData f
  let cs := (List.range 4).map (fun c => rsCheck 6 (codeword d c))
  d ++ (List.range 24).map (fun k => (cs.getD (k % 4) []).getD (k / 4) 0#8)

/-- The 488 data bytes of received wire bytes, and whether a byte was corrected; none for a bad flit: a codeword that does
not decode, or a CRC that does not match (R215). -/
def decodeFlit (bs : List Byte) : Option (List Byte × Bool) :=
  let ws := (List.range 4).map (fun c => rsFix (codeword bs c))
  if ws.all Option.isSome then
    let ok := ws.filterMap id
    let d := (List.range 488).map (fun j => ((ok.getD (j % 4) ([], false)).1).getD (j / 4) 0#8)
    if beAt d 484 = crc32 (d.take 484) then some (d, ok.any Prod.snd) else none
  else none

/-! ### Hemline packets (R240, R241, R372) -/

/-- TYPE of a packet (R241). -/
def hemCode : HemType → Nat
  | .write => 1 | .ready => 2 | .fence => 3 | .ack => 4 | .ctrl => 5 | .setup => 6 | .poison => 7 | .close => 8

/-- The 32-byte header (R241). -/
def hemBytes (h : HemHdr) : List Byte :=
  beWords [2 ^ 28 + 2 ^ 24 * hemCode h.type + 2 ^ 23 * boolNat h.fenceW + 2 ^ 22 * boolNat h.fenceAll + 2 ^ 21 * boolNat h.ackReq
      + 2 ^ 20 * boolNat h.enc + h.dstFlow % 2 ^ 18, h.psn, h.srcFlow % 2 ^ 18, h.length % 2 ^ 14, h.offset % 2 ^ 32,
    h.offset / 2 ^ 32 % 256, h.step, h.epoch % 65536]

/-- The GCM nonce of a packet that the device sends (R372): for an ACK the PSN field holds the flow's count of ACKs. -/
def hemNonce (h : HemHdr) : List Byte :=
  beBytes 1 1 ++ beBytes 3 (h.srcFlow % 2 ^ 18) ++ beBytes 4 h.psn ++ beBytes 1 (boolNat (h.type == .ack)) ++ beBytes 3 0

/-- The device-to-host key of an epoch (R372): the label "LZ9 d2h" and two bytes of the epoch. -/
def sendKey (prk : List Byte) (epoch : Nat) : List Byte :=
  hkdfExpand prk ([0x4C#8, 0x5A#8, 0x39#8, 0x20#8, 0x64#8, 0x32#8, 0x68#8] ++ beBytes 2 epoch) 32

/-- The host-to-device key of an epoch (R372): the label "LZ9 h2d". -/
def recvKey (prk : List Byte) (epoch : Nat) : List Byte :=
  hkdfExpand prk ([0x4C#8, 0x5A#8, 0x39#8, 0x20#8, 0x68#8, 0x32#8, 0x64#8] ++ beBytes 2 epoch) 32

/-- The header of a received packet of a type, its reserved bits among them (R241). -/
def pktHead (k : Pkt) (t : HemType) : List Byte :=
  let h : HemHdr := { type := t, fenceW := k.fenceW, fenceAll := k.fenceAll, ackReq := k.ackReq, enc := k.enc, dstFlow := k.dstFlow
                      psn := k.psn, srcFlow := k.srcFlow, length := k.length, offset := k.offset, step := k.step, epoch := k.epoch }
  beWords ((List.range 8).map (fun i => beAt (hemBytes h) (4 * i) + k.rsvBits.getD i 0))

/-- The GCM nonce of a received packet (R372): direction 0. -/
def pktNonce (k : Pkt) (t : HemType) : List Byte :=
  beBytes 1 0 ++ beBytes 3 (k.srcFlow % 2 ^ 18) ++ beBytes 4 k.psn ++ beBytes 1 (boolNat (t == .ack)) ++ beBytes 3 0

/-- The tag of a packet of a type with a payload under the traffic key of its epoch (R240, R241, R372). -/
def pktTag (prk : List Byte) (k : Pkt) (t : HemType) (bs : List Byte) : List Byte :=
  let key := recvKey prk k.epoch
  gcmTag key (pktNonce k t) (pktHead k t) (if k.enc then gcmSeal key (pktNonce k t) bs else bs)

/-- The payload of a received ACK (R245). -/
def ackInBytes (b : AckBody) : List Byte :=
  beWords ([b.cum, b.ece + 65536 * b.nakCode, b.nakPsn, b.fenceDone] ++
    (List.range 32).map (fun k => ((List.range 32).map (fun i => if b.sack.contains (32 * k + i) then 2 ^ i else 0)).sum))

/-- The payload of a received CTRL packet: its header and the bytes (R333). -/
def ctrlInBytes (mailbox : Nat) (ring abort : Bool) (off : Nat) (bs : List Byte) : List Byte :=
  beWords [mailbox + 16 * boolNat ring + 32 * boolNat abort, off] ++ bs

/-- A packet as it leaves: its payload encrypted under ENC, and its tag (R240, R241). -/
def sealPkt (prk : List Byte) (h : HemHdr) (bs : List Byte) (reason : Option CloseReason) : FrameBody :=
  let k := sendKey prk h.epoch
  let c := if h.enc then gcmSeal k (hemNonce h) bs else bs
  .hemline h c (gcmTag k (hemNonce h) (hemBytes h) c) reason

/-- The ACK payload, 144 bytes (R245): `v.cum` is CUM plus 1. -/
def ackBytes (v : Flow) (nak : Option (Nat × Nat)) : List Byte :=
  let n := nak.getD (0, 0)
  beWords ([(v.cum + 2 ^ 32 - 1) % 2 ^ 32, v.ece + 65536 * n.1, n.2, v.fenceDone] ++
    (List.range 32).map (fun k => ((List.range 32).map (fun i => if v.sack.contains (v.cum + 32 * k + i) then 2 ^ i else 0)).sum))

/-- The 8-byte CTRL header of a packet that the device sends (R333). -/
def ctrlHdr (mailbox : Nat) (reply last push : Bool) (off : Nat) : List Byte :=
  beWords [mailbox % 16 + 64 * boolNat reply + 128 * boolNat last + 256 * boolNat push, off % 4096]

/-- A note record: its header and payload (R361). -/
def noteBytes (q : Nat) (n : NoteRec) : List Byte :=
  [n.code + 65536 * q, n.seq, n.step, n.micro + 65536 * n.variant, n.rank, 0, 0, 0].flatMap (leBytes 4) ++ n.payload

/-- A SETUP payload before its signature (R369): phase 1 OFFER, 2 ANSWER, 3 FINISH. -/
def setupBytes (phase flow nonce : Nat) (key chain : List Byte) : List Byte :=
  beWords [phase, flow] ++ beBytes 32 nonce ++ padTo 52 (key.take 49) ++ beBytes 4 chain.length ++ chain

end Sys2Proof.Machine
end

