-- ==== Sys2Proof/Machine/Links.lean ====
section
/-! DEFINITION. What the device sends: seam flits (R214, R216, R217, R220), hemline packets and ACKs
(R241, R244 to R246), and the closing of flows (R244). -/

namespace Sys2Proof.Machine

open Sys2Proof.Config

/-! ### Seam ports -/

/-- A flit that takes the next sequence number ahead of queued HEAD and DATA flits (R233). -/
def isControl : FlitBody → Bool
  | .head _ | .data _ _ => false
  | _ => true

/-- Job traffic: HEAD, DATA, VOTE and POISON flits (R223). -/
def isJobTraffic : FlitBody → Bool
  | .head _ | .data _ _ | .poison _ | .vote _ => true
  | _ => false

/-- A port that is trained (R223). -/
def portTrained (p : SeamPort) : Bool :=
  match p.st with
  | .linked | .fitted | .member | .stranger | .excluded => true
  | _ => false

/-- A FIT flit (R214). -/
def isFit : FlitBody → Bool
  | .hello _ | .proof _ => true
  | _ => false

/-- Whether a flit can leave now: the port is trained, and not retraining (a FIT flit excepted), with credit and replay
room (R216 to R218). A gated port carries every flit on lane 0 (R220). -/
def canSend (p : SeamPort) (b : FlitBody) : Bool :=
  portTrained p && (isFit b || !p.retraining) && decide (0 < p.credits) && decide (p.replay.length < 512)

/-- CRD of the next flit: the receive buffers owed, at most 31, none while the reduction buffer is full (R214, R217, R231). -/
def nextCrd (p : SeamPort) : Nat := if p.credStop then 0 else min 31 p.owed

/-- A flit as the port sends it: NAK, CRD and ACK stand for the receiver's side (R214). -/
def outFlit (p : SeamPort) (seq crd : Nat) (b : FlitBody) : TxFlit :=
  { seq := seq, nak := p.nak, crd := crd, ack := (p.rxNext + 2047) % 2048, body := b }

/-- Both ends switch their lanes with a GATE flit: a wake begins, or lane 0 alone is left (R220). -/
def switchLanes (p : SeamPort) (wake : Bool) : SeamPort :=
  if wake then { p with waking := p.gated } else { p with gated := true, waking := false }

/-- A GATE flit leaves before the lanes change (R220). -/
def gateSent (p : SeamPort) : FlitBody → SeamPort
  | .gate w => switchLanes p w
  | _ => p

/-- Send one flit: next sequence number, one credit, the buffers owed in CRD, into the replay buffer (R214, R216, R217). -/
def txFlit (p : SeamPort) (b : FlitBody) : SeamPort :=
  let q := (p.txSeq + 1) % 2048
  gateSent { p with
    txSeq := q, credits := p.credits - 1, owed := p.owed - nextCrd p
    replay := p.replay ++ [outFlit p q (nextCrd p) b]
    stat := { p.stat with txFlits := sat32 (p.stat.txFlits + 1) } } b

/-- IDLE flits: the number last sent, no credit, never replayed; they bring back every buffer owed, and the last of them
stays (R214, R216, R217; log entry 71). -/
def sendIdle (p : SeamPort) : SeamPort :=
  if !(portTrained p) then p
  else if p.credStop || p.owed == 0 then { p with idle := some (outFlit p p.txSeq 0 .idle) }
  else { p with idle := some (outFlit p p.txSeq ((p.owed - 1) % 31 + 1) .idle), owed := 0 }

/-- The next flit to leave, and the queue behind it: on a retraining port the first FIT flit (R218, R221). -/
def nextFlit (p : SeamPort) : Option (FlitBody × List FlitBody) :=
  if p.retraining then (p.queue.find? isFit).map (fun b => (b, p.queue.erase b))
  else match p.queue with
    | [] => none
    | b :: rest => some (b, rest)

/-- The place of a control flit: after queued control flits, before HEAD and DATA flits (R233). -/
def enqueueFlit (q : List FlitBody) (b : FlitBody) : List FlitBody :=
  if isControl b then q.takeWhile isControl ++ [b] ++ q.dropWhile isControl else q ++ [b]

/-- A HEAD or DATA flit queued for a gated port starts its wake at once, counted in GATE_MISS: a GATE flit tells the far end
before the lanes change (R220). -/
def wakePort (p : SeamPort) : SeamPort :=
  if p.gated && !p.waking && !(p.queue.all isControl) && !(p.queue.contains (.gate true)) then
    { p with queue := enqueueFlit p.queue (.gate true), stat := { p.stat with gateMiss := sat32 (p.stat.gateMiss + 1) } }
  else p

/-- Send from the queue while flits can leave; the fuel bounds the flits sent. -/
def drainPort : Nat → SeamPort → SeamPort
  | 0, p => p
  | n + 1, p =>
    match nextFlit p with
    | none => p
    | some (b, rest) => if canSend p b then drainPort n (wakePort (txFlit { p with queue := rest } b)) else p

/-- Send what can leave: each queued flit, and a GATE flit where one of them starts a wake. -/
def flushPort (p : SeamPort) : SeamPort := drainPort (2 * p.queue.length + 1) p

/-- A GATE flit of the far end: the lanes switch, and flits queued for the port start its wake (R220). -/
def gatePort (p : SeamPort) (wake : Bool) : SeamPort := flushPort (wakePort (switchLanes p wake))

/-- Queue a flit on a port and send what can leave. -/
def sendFlit (p : SeamPort) (b : FlitBody) : SeamPort := flushPort (wakePort { p with queue := enqueueFlit p.queue b })

def seamSend (s : State) (port : Nat) (b : FlitBody) : State := modPort s port (fun p => sendFlit p b)

/-- Bytes in the reduction buffer: contributions, and the bytes of DST whose write a snapshot holds (R231, R236). -/
def bufferBytes (s : State) : Nat :=
  let mine := fun (w : HeldWrite) => s.shut.movers.any (fun o => w.op == some o.id && (match o.kind with | .coll _ _ => true | _ => false))
  (s.coll.buffer.map (fun c => c.bytes.length)).sum + ((s.snap.heldWrites.filter mine).map (fun w => w.bytes.length)).sum

/-- With 16 MiB in it the ports return no credits (R231). -/
def bufferFull (s : State) : Bool := decide (2 ^ 24 ≤ bufferBytes s)

/-- A port that may return credits, or may not; what it owes goes out in IDLE flits (R217, R231). -/
def creditPort (full : Bool) (p : SeamPort) : SeamPort :=
  let q := { p with credStop := full }
  if full || p.owed == 0 then q else sendIdle q

/-- Receive buffers are returned through CRD unless the reduction buffer is full (R217, R231). -/
def returnCredits (s : State) : State :=
  let full := bufferFull s
  { s with ports := s.ports.map (fun e => (e.1, creditPort full e.2)) }

/-- The ports of the loaded job (R223). -/
def memberPorts (s : State) : List Nat := allPorts.filter (fun p => (portOf s p).st == .member)

/-- The uplink of plane k (R211). -/
def uplink (k : Nat) : Nat := 8 + k

/-! ### Frames (R237 to R240) -/

/-- A frame leaves its port: lost where the link is down (R244), held where PFC pauses its priority, else sent and counted
(R239, R256). -/
def sendFrame (s : State) (e : Nat) (f : Frame) : State :=
  modHostPort s e (fun h =>
    if !h.up then h
    else if bitOf h.paused f.prio then { h with waiting := h.waiting ++ [f] }
    else { h with sent := h.sent ++ [f], stat := { h.stat with txFrames := sat32 (h.stat.txFrames + 1) } })

/-- A frame under the settings of its port (R239): VLAN_ID, and the code point of control and management flows or that of
all other traffic, sent only when tagged. -/
def frameOn (s : State) (e : Nat) (ctrl : Bool) (ip src dst : Nat) (ect : Bool) (b : FrameBody) : Frame :=
  let vid := setting s 0x131 e
  let pcp := setting s (if ctrl then 0x132 else 0x133) e
  { vlan := if vid = 0 then none else some (vid, pcp), prio := pcp, ip := ip, srcPort := src, dstPort := dst, ect := ect, body := b }

/-- A frame of the port itself to `dst`: an answer to ARP, Neighbor Discovery or an echo request goes to the asker, a PFC frame
to no address. It belongs to no flow, and carries PCP_DATA (DESIGN CHOICE, log entry 73). -/
def answer (s : State) (e dst : Nat) (b : FrameBody) : State := sendFrame s e (frameOn s e false dst 0 0 false b)

/-- The priorities that PFC pauses are now `mask`; the frames of the others leave in their order (R239). -/
def setPaused (s : State) (e mask : Nat) : State :=
  let held := (hostPortOf s e).waiting
  held.foldl (fun t f => sendFrame t e f) (modHostPort s e (fun h => { h with paused := mask, waiting := [] }))

/-- Of the priorities paused those stay so that are under PFC as it is set (R239). -/
def obeyPfc (s : State) (e : Nat) : State :=
  let p := (hostPortOf s e).paused
  let keep := if setting s 0x134 e = 1 then Nat.land p (setting s 0x135 e) else 0
  if keep = p then s else setPaused s e keep

/-- A hemline packet in its UDP datagram (R240): source port 49,152 + (flow mod 16,384), HEMLINE_UDP, ECT(0). -/
def sendHemline (s : State) (e : Nat) (ctrl : Bool) (ip flow : Nat) (b : FrameBody) : State :=
  sendFrame s e (frameOn s e ctrl ip (49152 + flow % 16384) (setting s 0x136 e) true b)

/-! ### Hemline packets (R241 to R246) -/

/-- What a packet that the device sends holds beside its flow's fields (R241). -/
structure Send where
  type : HemType
  fenceW : Bool := false
  fenceAll : Bool := false
  ackReq : Bool := false
  offset : Nat := 0
  step : Nat := 0
  payload : List Byte := []
deriving DecidableEq, Repr

/-- Counts of a flow: packets, retransmissions, ECE, refusals, holds (R256). -/
def bumpCount (f : Flow) (i n : Nat) : Flow :=
  { f with counts := (List.range 5).map (fun j => f.counts.getD j 0 + if j = i then n else 0) }

/-- Key epoch and PRK of a session (R372). -/
def epochOf (s : State) (sid : Nat) : Nat := ((tabFind s.host.sessions sid).map Session.epoch).getD 0
def prkOf (s : State) (sid : Nat) : List Byte := ((tabFind s.host.sessions sid).map Session.prk).getD []

/-- The header of a packet of flow f (R241). -/
def hdrOf (s : State) (f : Nat) (v : Flow) (psn : Nat) (w : Send) : HemHdr :=
  { type := w.type, fenceW := w.fenceW, fenceAll := w.fenceAll, ackReq := w.ackReq, enc := v.enc, dstFlow := v.farFlow
    psn := psn, srcFlow := f, length := w.payload.length, offset := w.offset, step := w.step, epoch := epochOf s v.session }

/-- A packet of flow f leaves on its port, under the traffic key of its session. -/
def sendPkt (s : State) (f : Nat) (v : Flow) (h : HemHdr) (bs : List Byte) (r : Option CloseReason) : State :=
  sendHemline s v.port (v.kind == .ctrl) v.farAddr f (sealPkt (prkOf s v.session) h bs r)

/-- CLOSE sent with a reason; the context is FREE (R244). Its PSN is the flow's next (log entry 32). -/
def closeFlow (s : State) (f : Nat) : State :=
  match flowOf s f with
  | none => s
  | some v => freeFlow (sendPkt s f v (hdrOf s f v v.txNext { type := .close }) [] (some v.reason)) f

/-- A CLOSING flow with every packet acknowledged and every accepted one in effect closes (R244, R245). -/
def closeIfDone (s : State) (f : Nat) : State :=
  match flowOf s f with
  | none => s
  | some v => if v.st == .closing && v.out.isEmpty && v.held.isEmpty then closeFlow s f else s

/-- Send a packet on an OPEN flow: the next PSN; it stays in `out` until acknowledged. PSN 0xFFFF_FFFF, after which a flow
sends nothing, is that of its CLOSE: after the PSN before it the flow closes with PSN_LIMIT (R241, R244, R246; log entry 32). -/
def sendOn (s : State) (f : Nat) (k : TxKind) (w : Send) : State :=
  match flowOf s f with
  | none => s
  | some v =>
    if v.st == .opened && decide (v.txNext < 2 ^ 32 - 1) then
      let h := hdrOf s f v v.txNext w
      let v1 := bumpCount { v with txNext := v.txNext + 1, out := v.out ++ [⟨v.txNext, k, h, w.payload⟩] } 0 1
      let v2 := if v.txNext + 1 = 2 ^ 32 - 1 then { v1 with st := FlowSt.closing, reason := .psnLimit } else v1
      sendPkt (setFlow s f v2) f v2 h w.payload none
    else s

/-- A packet of `out` is sent again, the same bytes (R246, R372). -/
def resend (s : State) (f : Nat) (t : TxPkt) : State :=
  match flowOf s f with
  | none => s
  | some v => sendPkt s f v t.hdr t.payload none

/-- A session moves to the next key epoch; the old one is accepted for 100 ms more (R373). A second update within these
100 ms is ignored (R381). -/
def nextEpoch (s : State) (sid : Nat) : State :=
  match tabFind s.host.sessions sid with
  | none => s
  | some v =>
    if v.epoch < 0xFFFF ∧ v.grace = none then
      let w := { v with epoch := v.epoch + 1, grace := some v.epoch }
      raiseEv { s with host := { s.host with sessions := tabPut s.host.sessions sid w } } srcThimble .keyUpdate []
    else s

/-- A KEY_UPDATE message of the device: a CTRL header and the header of a request of code 0x0903 without a body (R333, R336,
R380; that it names mailbox 0 is log entry 32's). -/
def keyUpdateBytes : List Byte := ctrlHdr 0 false false false 0 ++ [0x903, 0, 0, 0].flatMap (leBytes 4)

/-- The device sends KEY_UPDATE on the session's CTRL flow and switches at once (R373); within 100 ms of another update it
does not (R381). -/
def sendKeyUpdate (s : State) (sid : Nat) : State :=
  match tabFind s.host.sessions sid with
  | none => s
  | some v =>
    if v.epoch < 0xFFFF ∧ v.grace = none then
      nextEpoch (sendOn s v.ctrl .keyUpdate { type := .ctrl, payload := keyUpdateBytes }) sid
    else s

/-- Send a packet; a flow that passes PSN 0x8000_0000 makes the device update the session's key (R373). -/
def hostSend (s : State) (f : Nat) (k : TxKind) (w : Send) : State :=
  match flowOf s f with
  | none => s
  | some v =>
    let s1 := sendOn s f k w
    if v.st == .opened && v.txNext == 0x80000000 then sendKeyUpdate s1 v.session else s1

/-- Send an ACK of a flow with its payload (R245); `nak` is a refusal it reports: code and PSN. A flow whose ACK count
would pass 0xFFFF_FFFF closes (R372). -/
def sendAck (s : State) (f : Nat) (nak : Option (Nat × Nat)) : State :=
  match flowOf s f with
  | none => s
  | some v =>
    if v.acks = 0xFFFFFFFF then closeIfDone (setFlow s f { v with st := FlowSt.closing, reason := .psnLimit }) f
    else
      let v1 := { v with acks := v.acks + 1, unacked := 0, ece := 0
                         naks := match nak with | none => v.naks | some n => v.naks ++ [n] }
      let w : Send := { type := .ack, payload := ackBytes v nak }
      sendPkt (setFlow s f (if nak.isSome then bumpCount v1 3 1 else v1)) f v (hdrOf s f v v.acks w) w.payload none

def flowIds (s : State) : List Nat := s.host.flows.map Prod.fst

/-- A job flow: DATASET, EMIT or SNAPSHOT (R243). -/
def isJobFlow (v : Flow) : Bool := v.kind != .ctrl

/-- What a flow still holds as the device closes it is refused with NOT_WRITABLE, 5, for its target ends with the flow: each
refusal is reported by its own ACK (R245; DESIGN CHOICE, log entry 73). -/
def refuseHeld (s : State) (f : Nat) : State :=
  match flowOf s f with
  | none => s
  | some v => v.held.foldl (fun t h => sendAck t f (some (5, h.psn))) s

/-- Close every flow that satisfies a test with reason JOB_END, one CLOSE each (R243, R244). -/
def closeFlows (s : State) (p : Nat → Flow → Bool) : State :=
  (s.host.flows.filter (fun e => p e.1 e.2)).foldl
    (fun t e => closeFlow (modFlow (refuseHeld t e.1) e.1 (fun v => { v with reason := .jobEnd })) e.1) s

/-- The flows of a kind bound to a stream, OPEN, by flow index (R253). -/
def openFlows (s : State) (k : FlowKind) (stream : Nat) : List Nat :=
  (s.host.flows.filter (fun e => e.2.st == .opened && e.2.kind == k && e.2.stream == stream)).map Prod.fst

/-- Split bytes across flows in turn by flow index, in PAYLOAD-sized WRITEs, from the flow at or after `turn`; what no
open flow takes is left, with its place (R253, R304). The fuel bounds the packets. -/
def spread (flows : State → List Nat) (mk : Nat → List Byte → TxKind × Send) :
    Nat → Nat → Nat → List Byte → State → State × Nat × List Byte
  | 0, _, off, bs, s => (s, off, bs)
  | n + 1, turn, off, bs, s =>
    if bs.isEmpty then (s, off, bs)
    else
      let fs := flows s
      match (fs.filter (fun f => decide (turn ≤ f)) ++ fs).head? with
      | none => (s, off, bs)
      | some f =>
        let k := max (((flowOf s f).map Flow.payload).getD 64) 64
        let m := mk off (bs.take k)
        spread flows mk n (f + 1) (off + k) (bs.drop k) (hostSend s f m.1 m.2)

/-- The POISON packet on the CTRL flow of every open session, with ACK_REQ and the step (R257). -/
def hostPoison (s : State) (p : Poison) : State :=
  s.host.sessions.foldl (fun t e =>
    hostSend t e.2.ctrl (.poison p) { type := .poison, ackReq := true, step := p.step, payload := poisonBytes p }) s

end Sys2Proof.Machine
end

