-- ==== Sys2Proof/Machine/Replies.lean ====
section
/-! DEFINITION. Mailbox buffers: reading a request and sending a reply (R333 to R337, R340). -/

namespace Sys2Proof.Machine

open Sys2Proof.Config

/-- Status codes (R340, R380). -/
def statusCode : Status → Nat
  | .ok => 0 | .badOpcode => 1 | .badLength => 2 | .badReserved => 3 | .badRange => 4
  | .wrongState => 5 | .aborted => 6 | .authFailed => 7 | .notWritable => 8 | .badSetting => 9
  | .noTransaction => 0x10 | .busyTransaction => 0x11 | .notOwner => 0x12 | .conflict => 0x13
  | .busyJob => 0x20 | .noJob => 0x21 | .busyStep => 0x22 | .stateInvalid => 0x23
  | .replaceFlagged => 0x24 | .notSpare => 0x25 | .busyFill => 0x26 | .noVariant => 0x27
  | .fabricMismatch => 0x28 | .digestMismatch => 0x29 | .baseMismatch => 0x2A | .staleMark => 0x2B
  | .noFlowContext => 0x2C
  | .badPackage => 0x100 | .badStitch => 0x101 | .badPanelSet => 0x102 | .tableOverflow => 0x103
  | .noFit => 0x104 | .badDescriptor => 0x105 | .badSchedule => 0x106 | .badVariant => 0x107
  | .badGradePoint => 0x108 | .badNeedle => 0x109 | .badSpoolOrder => 0x10A
  | .badRowSchedule => 0x10B | .badBasteWindow => 0x10C | .badFence => 0x10D
  | .tiedWeightUnsupported => 0x10E | .frozenWrite => 0x10F
  | .staleBudget => 0x200 | .budgetRate => 0x201 | .staleReport => 0x202 | .reportRate => 0x203
  | .busySnapshot => 0x300 | .notRestorable => 0x301 | .badManifest => 0x302
  | .packageMismatch => 0x303 | .rankMismatch => 0x304 | .streamSkew => 0x305
  | .spoolExhausted => 0x400 | .baseWrite => 0x401 | .stepLimit => 0x402
  | .verdictOverflow => 0x403 | .microLimit => 0x404
  | .badImage => 0x500 | .imageRollback => 0x501 | .keyRevoked => 0x502 | .updatePending => 0x503
  | .notTrial => 0x504 | .badChallenge => 0x505 | .ownerRequired => 0x506 | .badCert => 0x507
  | .epochLimit => 0x508

/-- A 32-bit word of a request's body (R336: the body begins at 0x10). -/
def reqWord (b : Mailbox) (off : Nat) : Nat := leNat (memBytes b.req (0x10 + off) 4)
/-- Bytes of a request's body. -/
def reqBytes (b : Mailbox) (off n : Nat) : List Byte := memBytes b.req (0x10 + off) n
def reqOp (b : Mailbox) : Nat := leNat (memBytes b.req 0 2)
def reqLen (b : Mailbox) : Nat := fieldOf (leNat (memBytes b.req 4 4)) 0 12
def reqTag (b : Mailbox) : Nat := leNat (memBytes b.req 8 4)

/-- The session that rang a mailbox (R334). -/
def ringer (b : Mailbox) : Nat :=
  match b.st with
  | .free => 0
  | .claimed n => n
  | .busy n => n

/-- The mailbox is FREE and its request buffer is zero (R334). -/
def freeBox (s : State) (m : Nat) : State := setBox s m { reply := (boxOf s m).reply }

/-- The reply bytes: the header of R336 and the body. -/
def replyBytes (b : Mailbox) (st : Status) (body : List Byte) : List Byte :=
  leBytes 4 (reqOp b) ++ leBytes 4 body.length ++ leBytes 4 (reqTag b) ++ leBytes 4 (statusCode st) ++ body

/-- The packets of reply bytes in pieces of `p` from offset `off`; the last is marked LAST and carries ACK_REQ (R333,
R335). -/
def sendReplyPkts (m flow p : Nat) : Nat → Nat → List Byte → State → State
  | 0, _, _, s => s
  | n + 1, off, bs, s => sendReplyPkts m flow p n (off + p) (bs.drop p) (hostSend s flow (.reply m (n == 0))
      { type := .ctrl, ackReq := n == 0, payload := ctrlHdr m true (n == 0) false off ++ bs.take p })

/-- Reply to the request of mailbox `m` (R335, R336). The reply of a session that has ended is
discarded (R334). -/
def reply (s : State) (m : Nat) (st : Status) (body : List Byte) : State :=
  let b := boxOf s m
  if b.orphan then freeBox s m
  else
    let bs := replyBytes b st body
    let s1 := setBox s m { b with reply := memPut [] 0 bs, sent := some bs.length, rung := false, waits := none }
    match tabFind s.host.sessions (ringer b) with
    | none => s1
    | some ss =>
      match flowOf s ss.ctrl with
      | none => s1
      | some f => sendReplyPkts m ss.ctrl (f.payload - 8) (ceilDiv bs.length (max (f.payload - 8) 1)) 0 bs s1

/-- An OK reply (R340). -/
def replyOk (s : State) (m : Nat) (body : List Byte) : State := reply s m .ok body

/-- A refusal: DETAIL_A and DETAIL_B (R337). -/
def replyBad (s : State) (m : Nat) (st : Status) (a b : Nat) : State :=
  reply s m st (leBytes 4 a ++ leBytes 4 b)


/-- The mailboxes that wait for a point (R335). -/
def boxesAt (s : State) (w : WaitPoint) : List Nat :=
  (s.mgmt.boxes.filter (fun e => e.2.waits == some w)).map Prod.fst

/-- Reply OK to every mailbox that waits for a point. -/
def releaseAt (s : State) (w : WaitPoint) (body : Mailbox → List Byte) : State :=
  (boxesAt s w).foldl (fun t m => replyOk t m (body (boxOf t m))) s

/-- End with a status every mailbox that waits for a point. -/
def abortAt (s : State) (w : WaitPoint) (st : Status) : State :=
  (boxesAt s w).foldl (fun t m => replyBad t m st 0 0) s

end Sys2Proof.Machine
end

