-- ==== Sys2Proof/Machine/Image.lean ====
section
/-! DEFINITION. A snapshot's image: what it holds, its chunks and manifest, its sending and its capture (R298 to R305,
R309). -/

namespace Sys2Proof.Machine

open Sys2Proof.Config

/-! ### The image (R298, R304, R309) -/

/-- Bytes of a region map entry: a bolt region lies in every slice (R191). -/
def entryBytes (r : Region) : Nat := if r.lpddr then r.len else panels * r.len

/-- The address of byte b of an entry. -/
def entryAddr (p : Package) (r : Region) (b : Nat) : Nat :=
  if r.lpddr then r.start + b
  else boltBase + sliceBytes * (b / max r.len 1) + jobAreaOffset p + r.start + b % max r.len 1

/-- The JOB_STATE entries of the map, with their places in it: a SPOOL or DATASET region is never job state. -/
def stateEntries (p : Package) : List (Nat × Region) :=
  (p.regions.zipIdx).filterMap (fun e =>
    if e.1.jobState && !e.1.spool && !e.1.dataset then some (e.2, e.1) else none)

/-- Chunk size (R304). -/
def chunkBytes4M : Nat := 0x400000

/-- The chunks of one entry. -/
def cutEntry (off region entry total : Nat) : List Chunk :=
  (List.range (ceilDiv total chunkBytes4M)).map (fun i =>
    { off := off + chunkBytes4M * i, region := region, entry := entry
      len := min chunkBytes4M (total - chunkBytes4M * i), index := i, digest := 0, st := 0 })

/-- Total length of chunks. -/
def chunksLen (cs : List Chunk) : Nat := (cs.map Chunk.len).sum

/-- Native image: the state block, then the JOB_STATE entries in map order. -/
def nativeChunks (p : Package) (block : Nat) : List Chunk :=
  (stateEntries p).foldl (fun cs e => cs ++ cutEntry (chunksLen cs) e.2.number e.1 (entryBytes e.2))
    [{ off := 0, region := 0xFFFF, entry := 0xFFFF, len := stateLen block, index := 0, digest := 0, st := 0 }]

/-- The (w, ρ) tensors that the package's APPLY slots update (R138, R166). -/
def applyPairs (p : Package) : List (TensorDesc × TensorDesc) :=
  ((p.stitches.flatMap (fun st => st.vslots.filterMap (fun v => if v.op = 4 then some v.desc else none))).filterMap
    (fun d => match descOf p d with
      | .bind b => (match (b.binds.getD 1 none).bind (tensorOf p), (b.binds.getD 2 none).bind (tensorOf p) with
        | some w, some r => some (w, r)
        | _, _ => none)
      | _ => none)).eraseDups

/-- An element of a portable image: its index in the weight, the address of w, and of ρ if it has one. -/
structure PortElem where
  index : Nat
  w : Nat
  rho : Option Nat
deriving DecidableEq, Repr

/-- Insert an element by its index; an index that is there already keeps its element. -/
def insertElem (e : PortElem) : List PortElem → List PortElem
  | [] => [e]
  | x :: xs => if e.index < x.index then e :: x :: xs else if e.index = x.index then x :: xs else x :: insertElem e xs

/-- The elements of layer-table weight i that this rank covers, in logical order (R72, R309). -/
def portElems (p : Package) (frozen : Bool) (i : Nat) : List PortElem :=
  match p.layers[i]? with
  | none => []
  | some l =>
    match tensorOf p l.weight with
    | none => []
    | some t =>
      let n := tensorSize t
      if l.frozen then
        (if frozen && p.plan.rank == 0 then (List.range n).map (fun x => ⟨x, 256 * t.elemBase + 2 * x, none⟩) else [])
      else ((applyPairs p).flatMap (fun e =>
        if t.elemBase ≤ e.1.elemBase ∧ 256 * e.1.elemBase < 256 * t.elemBase + 2 * n then
          (List.range (tensorSize e.1)).map (fun k =>
            ⟨128 * (e.1.elemBase - t.elemBase) + k, 256 * e.1.elemBase + 2 * k, some (256 * e.2.elemBase + k)⟩)
        else [])).foldl (fun es e => insertElem e es) []

/-- Elements of a chunk, and bytes of an element, by layout: 1 L16, 2 F32 (R309). -/
def portPer (layout : Nat) : Nat := if layout = 1 then 2 ^ 21 else 2 ^ 20
def portSize (layout : Nat) : Nat := if layout = 1 then 2 else 4

def portChunkElems (p : Package) (n : Snap) (i j : Nat) : List PortElem :=
  (portElems p n.frozen i).filter (fun e => e.index / portPer n.layout == j)

/-- Elements that chunk j of a tensor spans: from element `portPer` × j to the last one covered (R309). -/
def portSpan (p : Package) (n : Snap) (i j : Nat) : Nat :=
  ((portChunkElems p n i j).map (fun e => e.index % portPer n.layout + 1)).foldl max 0

/-- Portable image: the tensors' chunks in which this rank covers elements (R309). -/
def portChunks (p : Package) (n : Snap) : List Chunk :=
  (List.range p.layers.length).foldl (fun cs i =>
    (((portElems p n.frozen i).map (fun e => e.index / portPer n.layout)).eraseDups).foldl (fun ds j =>
      ds ++ [{ off := chunksLen ds, region := i, entry := i, index := j, digest := 0, st := 0
               len := roundUp (portSize n.layout * portSpan p n i j) 64 }]) cs) []

/-- The chunks of an image (R304, R309). -/
def imageChunks (p : Package) (n : Snap) : List Chunk := if n.portable then portChunks p n else nativeChunks p n.block

/-- The pages a chunk reads, in ascending order. -/
def chunkPages (p : Package) (n : Snap) (c : Chunk) : List Nat :=
  if n.portable then
    ((portChunkElems p n c.entry c.index).flatMap (fun e =>
      match e.rho with
      | some r => if n.layout = 2 then [pageOf e.w, pageOf r] else [pageOf e.w]
      | none => [pageOf e.w])).eraseDups
  else
    match p.regions[c.entry]? with
    | none => []
    | some r => (List.range (ceilDiv c.len 0x10000)).map (fun i =>
        pageOf (entryAddr p r (chunkBytes4M * c.index + 0x10000 * i)))

/-- A byte of a staged page, in its place of the snapshot share; `v` is the memories as reads deliver them (R302). -/
def stagedByte (v : Mem) (n : Snap) (a : Nat) : Byte := memGet v (tabGet 0 n.staged (pageOf a) + a % 0x10000)

/-- An element of a portable image (R35, R309): its L16 code, or its exact master value in F32. -/
def portBytes (v : Mem) (n : Snap) (e : PortElem) : List Byte :=
  let w : L16 := BitVec.ofNat 16 (leNat [stagedByte v n e.w, stagedByte v n (e.w + 1)])
  if n.layout = 1 then leBytes 2 w.toNat
  else
    let rho : Int := match e.rho with | some r => (stagedByte v n r).toInt | none => 0
    let f := l16ToF32 w
    if f32IsFinite f && rho != 0 then
      leBytes 4 (f32OfDy (dyAdd (f32Dy f) ⟨rho, l16Ulp w - 8⟩)).toNat
    else leBytes 4 f.toNat

/-- The bytes of a chunk from the pages staged; an element of a portable chunk that this rank does not cover is zero. -/
def chunkData (v : Mem) (p : Package) (n : Snap) (c : Chunk) : List Byte :=
  if n.portable then
    let es := portChunkElems p n c.entry c.index
    let bs := (List.range (portSpan p n c.entry c.index)).flatMap (fun x =>
      match es.find? (fun e => e.index % portPer n.layout == x) with
      | some e => portBytes v n e
      | none => List.replicate (portSize n.layout) 0#8)
    bs ++ List.replicate (c.len - bs.length) 0#8
  else
    match p.regions[c.entry]? with
    | none => (List.range c.len).map (stateByte n.block)
    | some r => (List.range c.len).map (fun i => stagedByte v n (entryAddr p r (chunkBytes4M * c.index + i)))

/-! ### Flows (R300, R304) -/

def modSnap (s : State) (f : Snap → Snap) : State :=
  { s with snap := { s.snap with snap := s.snap.snap.map f } }

/-- The named flows that are open, by flow index (R300, R304). -/
def snapFlows (s : State) (n : Snap) : List Nat :=
  (s.host.flows.filter (fun e => n.flows.contains e.1 && e.2.st == .opened && e.2.kind == .snapshot
    && e.2.session == n.session)).map Prod.fst

/-- Image length, rounded lengths in the reply and the manifest (R300, R305). -/
def imageLen (n : Snap) : Nat := chunksLen n.chunks

/-! ### The manifest (R304, R305) -/

/-- The INGEST streams of a package, (STREAM, AHEAD), by stream number. -/
def ingestStreams (p : Package) : List (Nat × Nat) :=
  (List.range 256).filterMap (fun k => (p.descs.findSome? (fun d => match d with
    | .stream v => if v.emit = false ∧ v.stream = k then some (k, v.ahead) else none
    | _ => none)))

def chunkEntry (c : Chunk) : List Byte :=
  leBytes 4 (c.off % 2 ^ 32) ++ leBytes 4 (c.off / 2 ^ 32 % 256 + 65536 * c.region) ++ leBytes 4 c.len
    ++ leBytes 4 c.index ++ beBytes 48 c.digest

/-- The first DER element of a byte string: its identifier byte, its length bytes and its contents (X.690). -/
def derFirst (bs : List Byte) : List Byte :=
  let l := (bs.getD 1 0#8).toNat
  if l < 128 then bs.take (2 + l) else bs.take (2 + (l - 128) + beNat ((bs.drop 2).take (l - 128)))

/-- The device identity certificate: the first of the chain (R368); CERT_LEN has 16 bits (R305). -/
def deviceCert : List Byte := (derFirst certChain).take 0xFFFF

/-- The manifest before its signature (R305). -/
def manifestBody (s : State) (p : Package) (n : Snap) : List Byte :=
  let st := ingestStreams p
  let cert := padTo (roundUp deviceCert.length 8) deviceCert
  let baseD := match s.base with | some b => b.digest | none => 0
  leBytes 4 0x4B57534E ++ leBytes 4 (1 + 256 * boolNat n.portable + 512 * n.layout + 2048 * boolNat n.frozen)
    ++ leBytes 4 n.id ++ leBytes 4 n.step
    ++ leBytes 4 (moduleId.toNat / 2 ^ 32) ++ leBytes 4 (moduleId.toNat % 2 ^ 32)
    ++ leBytes 4 (p.plan.rank + 256 * p.plan.nranks + 65536 * st.length) ++ leBytes 4 n.chunks.length
    ++ leBytes 8 (imageLen n) ++ leBytes 4 n.variant ++ leBytes 4 deviceCert.length
    ++ beBytes 48 p.rankDigest ++ beBytes 48 baseD
    ++ st.flatMap (fun e => leBytes 4 (e.1 + 256 * e.2) ++ leBytes 4 (n.step + e.2))
    ++ n.chunks.flatMap chunkEntry ++ cert

def manifestBytes (s : State) (p : Package) (n : Snap) : List Byte :=
  let b := manifestBody s p n
  b ++ sign b

/-- Bytes of a manifest with n chunks: at most 16 MiB (R305). -/
def manifestLen (p : Package) (n : Nat) : Nat :=
  0x90 + 8 * (ingestStreams p).length + 64 * n + roundUp deviceCert.length 8 + 96

/-! ### Sending (R249, R253, R304) -/

/-- The bytes of chunk j, or of the manifest one past the last chunk, as they are sent: a multiple of 64 (R242). -/
def pieceBytes (s : State) (p : Package) (n : Snap) (j : Nat) : List Byte :=
  match n.chunks[j]? with
  | some c => chunkData (decodedMem s) p n c
  | none => let b := manifestBytes s p n; padTo (roundUp b.length 64) b

/-- Where piece j begins: REMOTE + image offset; the manifest at IMAGE_LEN rounded up to 64 KiB (R304). -/
def pieceBase (n : Snap) (j : Nat) : Nat :=
  n.remote + (match n.chunks[j]? with | some c => c.off | none => roundUp (imageLen n) 0x10000)

/-- A WRITE of piece j, `fin` bytes long: FENCE_W on the last packet of a chunk, FENCE_ALL on the manifest's (R249, R304). -/
def pieceWrite (n : Snap) (j fin off : Nat) (bs : List Byte) : TxKind × Send :=
  let last := off + bs.length == fin
  let chunk := decide (j < n.chunks.length)
  (if chunk then .chunk j off bs.length else .manifest off bs.length,
    { type := .write, fenceW := last && chunk, fenceAll := last && !chunk, offset := pieceBase n j + off, payload := bs })

/-- Send what the snapshot has not sent; with no open flow it waits. -/
def pumpSnap (s : State) : State :=
  match s.snap.snap, s.job.pkg with
  | some n, some p =>
    let r := n.unsent.foldl (fun (t : State × List (Nat × Nat × Nat)) u =>
      let all := pieceBytes s p n u.1
      let bs := (all.drop u.2.1).take u.2.2
      let w := spread (fun v => snapFlows v n) (pieceWrite n u.1 all.length) (bs.length / 64 + 1) 0 u.2.1 bs t.1
      (w.1, if w.2.2.isEmpty then t.2 else t.2 ++ [(u.1, w.2.1, w.2.2.length)])) (s, [])
    modSnap r.1 (fun m => { m with unsent := r.2 })
  | _, _ => s

/-! ### Chunks that are staged (R304) -/

def setChunk (cs : List Chunk) (j : Nat) (f : Chunk → Chunk) : List Chunk :=
  (cs.zipIdx).map (fun e => if e.2 = j then f e.1 else e.1)

/-- The chunks not yet sent whose pages are all staged. -/
def readyChunks (s : State) (n : Snap) (p : Package) : List Nat :=
  ((n.chunks.zipIdx).filter (fun e => e.1.st == 0
    && (chunkPages p n e.1).all (fun g => !(s.snap.guarded.contains g)))).map (fun e => e.2)

/-- Digest and send every chunk whose pages are all staged. -/
def sendReady (s : State) : State :=
  match s.snap.snap, s.job.pkg with
  | some n, some p =>
    if n.captured then
      let ready := readyChunks s n p
      pumpSnap (modSnap s (fun m => ready.foldl (fun u j =>
        { u with chunks := setChunk u.chunks j (fun c => { c with st := 1, digest := sha384 (chunkData (decodedMem s) p n c) })
                 unsent := u.unsent ++ [(j, 0, (m.chunks.getD j ⟨0, 0, 0, 0, 0, 0, 0⟩).len)] }) m))
    else s
  | _, _ => s

/-! ### Capture (R301) -/

/-- The status counters of R183 and R278 as lists. -/
def shutCounts (v : Shuttle) : List Nat :=
  [v.cycles, v.stitches, v.idle, v.creditWait, v.syncWaitPhys, v.fenceHold, v.gradePoints, v.switches,
   v.gswPhys, v.phys, v.marks]
def powerCounts (v : Power) : List Nat :=
  [v.pinches, v.deferrals, v.capWindows, v.rampWindows, v.taken, v.refusedN, boolNat v.fixedExit,
   boolNat v.capUnmet, boolNat v.deferred]

/-- The state block (R298), from the values of this moment; those that units latch at the capture's mark follow
(R301). -/
def saveState (s : State) (p : Package) (block : Nat) (mark : Option Nat) : SavedState :=
  { block := block, mark := mark, step := s.job.step
    data := (ingestStreams p).map (fun e => (e.1, s.job.step + e.2)), fray := s.job.fray, numeric := s.job.numeric, log := s.job.log
    flow := { variant := s.shut.variant, gp := s.shut.saved.gp, ctrs := s.shut.ctrs, micro := s.shut.micro
              addr := s.shut.addr }
    mats := s.panels.map (fun e => (e.1, e.2.mat)), ndls := s.panels.map (fun e => (e.1, e.2.ndl))
    spools := s.panels.map (fun e => (e.1, e.2.spool.stat)), hubs := s.hubs
    memUnits := s.health.units, portStats := s.ports.map (fun e => (e.1, e.2.stat))
    shut := shutCounts s.shut, power := powerCounts s.power }

/-- A unit latches its record at the capture's mark: the state block takes its counters and flags (R301, R360). -/
def latchInto (s : State) (cls u : Nat) (b : SavedState) : SavedState :=
  match cls with
  | 1 => { b with mats := tabPut b.mats u (panelOf s u).mat }
  | 2 => { b with ndls := tabPut b.ndls u (panelOf s u).ndl }
  | 3 => { b with spools := tabPut b.spools u (panelOf s u).spool.stat }
  | 4 => { b with hubs := tabPut b.hubs u (hubOf s u) }
  | 5 => { b with shut := shutCounts s.shut }
  | 6 => { b with memUnits := tabPut b.memUnits u (memUnitOf s u) }
  | 7 => { b with portStats := tabPut b.portStats u (portOf s u).stat }
  | 9 => { b with power := powerCounts s.power }
  | _ => b

def latchBlock (s : State) (mark cls u : Nat) : State :=
  { s with snap := { s.snap with blocks := s.snap.blocks.map (fun b =>
      if b.mark = some mark then latchInto s cls u b else b) } }

/-- The body of the SNAPSHOT reply (R300): the write-only words read zero (R9). -/
def snapReply (n : Snap) : List Byte :=
  leBytes 4 n.id ++ leBytes 4 (boolNat n.portable + 2 * n.layout + 8 * boolNat n.frozen)
    ++ List.replicate 40 0#8 ++ leBytes 4 n.step ++ leBytes 8 (imageLen n)
    ++ leBytes 4 n.chunks.length

/-- The pages that a capture protects, in copy order: those of the image, then every other page of the job state, which
a portable image does not read (R301, R309). -/
def guardPages (p : Package) (n : Snap) : List Nat :=
  (n.chunks.flatMap (chunkPages p n) ++ (stateEntries p).flatMap (fun e =>
    (List.range (ceilDiv (entryBytes e.2) 0x10000)).map (fun i => pageOf (entryAddr p e.2 (0x10000 * i))))).eraseDups

/-- An accepted snapshot is captured, at a mark or at once while the job is held: pages protected, state block taken,
reply sent (R301). -/
def captureAt (s : State) (mark : Option Nat) : State :=
  match s.snap.snap, s.job.pkg with
  | some n, some p =>
    if n.captured then s
    else
      let b := s.free
      let n0 := { n with captured := true, step := s.job.step, block := b, variant := s.shut.variant }
      let n1 := { n0 with chunks := imageChunks p n0 }
      let s1 := { s with free := s.free + 1
                         snap := { s.snap with snap := some n1, guarded := guardPages p n1
                                               blocks := if n.portable then s.snap.blocks
                                                 else s.snap.blocks ++ [saveState s p b mark] } }
      sendReady (if (boxOf s1 n.mailbox).waits == some .snapshot then replyOk s1 n.mailbox (snapReply n1) else s1)
  | _, _ => s

/-- A snapshot fails (R318): protection ends and no manifest is sent; what becomes of its held writes follows. Causes in
the order of R318: 0 MEMORY, 1 TRIP, 2 CANCEL, 3 FLOWS. -/
def stopSnapshot (s : State) (cause : Nat) : State :=
  match s.snap.snap with
  | none => s
  | some _ =>
    let s1 := { s with snap := { s.snap with snap := none, guarded := [], failed := true } }
    abortAt (raiseEv s1 srcHostEdge .snapshotFailed [cause]) .snapshot .aborted

/-- At the opening mark just injected, a snapshot that waits for its capture is captured (R301). -/
def captureMark (s : State) : State := captureAt s (some (s.mgmt.markNext - 1))

/-- The job is held: a snapshot that waits for its capture is captured at once (R301). A job whose state has become
INVALID cannot be snapshotted (R313): the snapshot is cancelled (DESIGN CHOICE, log entry 48). -/
def captureHeld (s : State) : State :=
  if s.job.invalid && s.snap.snap.any (fun n => !n.captured) then stopSnapshot s 2 else captureAt s none

end Sys2Proof.Machine
end

