-- ==== Sys2Proof/Machine/Faults.lean ====
section
/-! DEFINITION. What ends a step, a job or a device's service: STEP_POISON and abandonment (R95, R119,
R129, R131, R161, R162, R180), job faults (R320), the end of a job (R20, R344), suspects and draining
(R321, R326, R327), and the failure of a snapshot (R318). -/

namespace Sys2Proof.Machine

open Sys2Proof.Config

/-! ### Abandoning a step -/

/-- The units of a panel carry nothing of an abandoned step (R95, R119, R131). -/
def abandonPanel (p : Panel) : Panel :=
  { p with
    banks := [], blocks := [], emitted := [], queue := [], hops := [], fifo := [], chain := none, foldIn := []
    rowIn := [], rowWait := []
    spool := { p.spool with ring := [], ext := [], voids := [], voidMode := false, waits := [], returning := false } }

/-- The transfers of a collective that a port has pending are discarded (R162). -/
def abandonPort (p : SeamPort) : SeamPort := { p with queue := p.queue.filter isControl, rx := none }

/-- The recipe of a variant of the loaded package. -/
def recipeOf (s : State) (i : Nat) : Option Nat := (s.job.pkg.bind (fun p => p.variants[i]?)).map (fun v => v.recipe)

/-- The recipe that Apgiosh wants at the repeat: one wanted already, or one that came into force within the
step (R161, R180), but for a replayed one, which the repeat replays at its grade point (R159). -/
def recipeAfter (s : State) : Option Nat :=
  let r := recipeOf s s.shut.variant
  match s.job.wantRecipe with
  | some w => some w
  | none =>
    if r = recipeOf s s.shut.saved.variant ∨ (s.job.replayed.getLast?).map (fun e => e.recipe) = r then none else r

/-- The step is abandoned: the units stop, collectives end, the shuttle discards its FIFOs and takes
back the flow state of the STEP_OPEN (R95, R119, R131, R162, R180). A step that no STEP_OPEN has opened yet gives up
the transfers that came early for it; the stitch that closed the step before issues, and the stream stands at its STEP_OPEN. After its check fence the step may have updated masters: the job never continues from that state,
which is INVALID until a restore (R139; DESIGN CHOICE, log entry 68). A capture or check in progress in a hub goes on,
and so may hold a case of the abandoned attempt (R163 is silent; DESIGN CHOICE, log entry 69). -/
def abandonWork (s : State) : State :=
  let f := { s.fence with abandoned := true, passed := false, phase := .none, votes := [] }
  if s.shut.inStep then
    { s with
      panels := s.panels.map (fun e => (e.1, abandonPanel e.2))
      coll := {}
      ports := s.ports.map (fun e => (e.1, abandonPort e.2))
      fence := f
      job := { s.job with deficit := false, invalid := s.job.invalid || s.fence.passed, qnts := [], wantRecipe := recipeAfter s
                          replay := s.job.replayed ++ s.job.replay, replayed := [] }
      shut := { s.shut with movers := [], syncWait := 0, inStep := false, cut := true, variant := s.shut.saved.variant
                            ctrs := s.shut.saved.ctrs, micro := s.shut.saved.micro, addr := s.shut.saved.addr } }
  else { s with fence := f, job := { s.job with deficit := false }, coll := {}
                ports := s.ports.map (fun e => (e.1, abandonPort e.2)) }

/-- The job is held; a snapshot that waits for its capture is captured at once (R180, R301). -/
def holdJob (s : State) : State := captureHeld { s with job := { s.job with held := true } }

/-- The job stops at the boundary of the last completed step with a fault: held, with an event of the
fault's name (R129, R134, R320, R340). The first fault stands. -/
def stopJob (s : State) (st : Status) (e : Ev) (args : List Nat) : State :=
  match s.job.fault with
  | some _ => holdJob s
  | none => raiseEv (holdJob { s with job := { s.job with fault := some st } }) srcShuttle e args

/-- A job fault raised by the device itself: no part of the step is applied (R74, R134, R320). -/
def jobFault (s : State) (st : Status) (e : Ev) (args : List Nat) : State :=
  stopJob (abandonWork s) st e args

/-! ### Poison -/

/-- Precedence of causes (R162): lower acts first. -/
def causeRank : Nat → Nat
  | 1 => 0 | 5 => 1 | 4 => 2 | 2 => 3 | 3 => 4 | _ => 5

/-- The cause whose action is taken (R162). -/
def worstCause : List Nat → Option Nat
  | [] => none
  | c :: cs =>
    match worstCause cs with
    | none => some c
    | some d => if causeRank c ≤ causeRank d then some c else some d

/-- The package holds a recompute variant that the repeat can take at its opening grade point: of the recipe in force or of
the one wanted, at a grade that is available (R129, R263; log entry 74). -/
def hasRecompute (s : State) (p : Package) : Bool :=
  p.variants.any (fun v => v.recompute && gradeAvailable s v.grade && (v.points.getD s.shut.saved.gp none).isSome &&
    (((p.variants[s.shut.variant]?).any (fun c => c.recipe == v.recipe)) || s.job.wantRecipe == some v.recipe))

/-- The stop that a cause later in the order brought to this step gives way (R162). -/
def overrideStop (s : State) (cause : Nat) : State :=
  if s.fence.acted ≠ some cause ∧ ((s.fence.acted = some 2 ∧ s.job.fault = some .spoolExhausted) ∨
      (s.fence.acted = some 3 ∧ s.job.fault = some .verdictOverflow)) then
    { s with job := { s.job with fault := none, held := s.job.endDue } }
  else s

/-- The action of one cause (R129, R161). -/
def actOn (s : State) (p : Package) (cause : Nat) : State :=
  match cause with
  | 2 =>
    if hasRecompute s p then { s with job := { s.job with wantRecompute := some true } }
    else stopJob s .spoolExhausted .spoolExhausted []
  | 3 =>
    if s.fence.acted ≠ some 3 ∧ s.fence.overflowStep = some s.job.step ∧ s.fence.newNumeric = false then
      stopJob s .verdictOverflow .verdictOverflow []
    else s
  | _ => holdJob s

/-- The action of every member for the poison received for its step: that of the first cause in the order
(R129, R161, R162). -/
def poisonAction (s : State) : State :=
  match s.job.pkg, worstCause (s.fence.poisons.map Prod.fst) with
  | some p, some c =>
    let t := actOn (overrideStop s c) p c
    { t with fence := { t.fence with acted := some c } }
  | _, _ => s

def ownRank (s : State) : Nat := match s.job.pkg with | none => 0xFFFF | some p => p.plan.rank
def jobTag (s : State) : Nat := match s.job.pkg with | none => 0 | some p => p.plan.jobId

/-- Send a poison on every port of the job but one, and to the host (R161, R162, R257). -/
def spreadPoison (s : State) (p : Poison) (but : Option Nat) : State :=
  let ps := (memberPorts s).filter (fun q => some q != but)
  hostPoison (ps.foldl (fun t q => seamSend t q (.poison p)) s) p

/-- Record a poison of the step in force, abandon the step and act on it. -/
def takePoison (s : State) (p : Poison) : State :=
  poisonAction (abandonWork
    { s with fence := { s.fence with poisons := s.fence.poisons ++ [(p.cause, p.origin)] } })

/-- The device sends STEP_POISON of its own (R161). -/
def sendPoisonFrom (s : State) (cause origin : Nat) : State :=
  let p : Poison := { step := s.job.step, cause := cause, origin := origin, jobTag := jobTag s }
  let s1 := raiseEv (spreadPoison s p none) srcColl .poisonSent [p.step, p.cause, p.origin]
  takePoison { s1 with fence := { s1.fence with
    sent := true, mine := s1.fence.mine ++ [(cause, origin)] } } p

def sendPoison (s : State) (cause : Nat) : State :=
  if jobLoaded s then sendPoisonFrom s cause (ownRank s) else s

/-! ### Snapshots and restores that end -/

/-- A restore ends with RESTORE_FAILED carrying a status, and the chunk that failed if one did (R311, R313,
R327). -/
def failRestore (s : State) (st : Status) (chunk : List Nat) : State :=
  match s.snap.rest with
  | none => s
  | some _ =>
    raiseEv { s with snap := { s.snap with rest := none, failed := true } } srcHostEdge .restoreFailed
      (statusCode st :: chunk)

/-! ### The end of a job -/

/-- A seam port after JOB_END: FITTED, or LINKED if not fitted (R223). -/
def unbindPort (p : SeamPort) : SeamPort :=
  let q := abandonPort p
  match p.st with
  | .member | .stranger | .excluded =>
    if p.far.isSome then { q with st := PortState.fitted, peerRank := none }
    else { q with st := PortState.linked, peerRank := none, queue := q.queue.filter (fun b => !(isJobTraffic b)) }
  | _ => q

/-- The job energy counter in 0.1 J (R262): 10,000 units of 10 µJ. -/
def energyCount (s : State) : Nat := s.job.energy / 10000

/-- The job ends (R20 steps 1 and 2 begin, R344): closing event with the final energy count, job flows
closed, slots FREE, ports unbound, clearing starts. -/
def endJobNow (s : State) (retain : Bool) (w : Work) : State :=
  let e := energyCount s
  let s1 := raiseEv s srcThimble .jobEnd [e % 2 ^ 32, e / 2 ^ 32]
  let s2 := closeFlows s1 (fun _ v => isJobFlow v)
  { s2 with
    dev := { s2.dev with
      work := w, retain := retain && s2.base.isSome
      endDigest := (match s.job.pkg with | some p => p.digest | none => 0)
      fromFill := s.dev.st == .filling, endDrain := false, clearOk := true }
    job := { reports := s.job.reports, energy := s.job.energy }
    hubs := s2.hubs.map (fun h => (h.1, { h.2 with act := .idle, cases := [] }))
    load := none
    host := { s2.host with slots := [] }
    ports := s2.ports.map (fun q => (q.1, unbindPort q.2))
    coll := {}
    fence := {}
    shut := { s2.shut with movers := [], syncWait := 0, inStep := false, cut := false, stopped := true }
    snap := { s2.snap with rest := none, filling := none }
    health := { s2.health with scrubbing := false } }

/-- An EMIT in progress holds the job's end while one of its stream's flows still lives (R259). -/
def emitPending (s : State) : Bool :=
  s.shut.movers.any (fun o => match o.kind with
    | .emit n _ _ _ => s.host.flows.any (fun e => e.2.kind == .emit && e.2.stream == n && e.2.st != .failed)
    | _ => false)

/-- Cases held in any hub (R154). -/
def heldCases (s : State) : Bool := s.hubs.any (fun h => !h.2.cases.isEmpty)

/-- The job ends as soon as no EMIT and no snapshot of it is in progress (R259, R319) and no case is held (R163). -/
def tryEndJob (s : State) : State :=
  if s.job.endDue && !(emitPending s) && s.snap.snap.isNone && !(heldCases s) then
    endJobNow s (s.job.ending.getD false) .jobClear
  else s

/-- The end of the job is due (R185, R344). -/
def dueEndJob (s : State) : State :=
  tryEndJob (holdJob { s with job := { s.job with endDue := true } })

/-! ### Suspects and draining -/

/-- The load window closes, and its flows with it (R243, R343). -/
def closeWindow (s : State) : State := { closeFlows s (fun _ v => v.window) with load := none }

/-- The resident base region is cleared and no longer resident (R21, R198, R207). -/
def dropBase (s : State) : State :=
  match s.base with
  | none => s
  | some b =>
    let inside := fun (l : Nat) => decide (b.start ≤ 64 * l) && decide (64 * l < b.start + b.len)
    { s with base := none, mem := memErase s.mem b.start b.len
             health := { s.health with errors := s.health.errors.filter (fun e => !(inside e.1))
                                       poison := s.health.poison.filter (fun l => !(inside l)) } }

/-- What a drain makes of work under way (R332): the clearing of R20 and its scan pass count as steps 4 and 5,
and a suspect device keeps no base region; any other pass gives way to the clearing of step 4, which stops scrubbing
(R207). -/
def drainWork (s : State) : State :=
  match s.dev.work with
  | .jobClear => { s with dev := { s.dev with work := .drainClear, signDue := true } }
  | .jobScan =>
    let t := dropBase s
    { t with dev := { t.dev with work := .drainJobScan, signDue := true } }
  | .jobSign =>
    let t := dropBase s
    { t with dev := { t.dev with work := .drainSign, signDue := true } }
  | _ => { s with dev := { s.dev with work := .drainClear }, health := { s.health with scrubbing := false } }

/-- The drain record names the first hardware verdict of its step, whatever its cause (R329). -/
def nameVerdict (s : State) (verdict : Nat) : State :=
  { s with dev := { s.dev with drain := s.dev.drain.map (fun r =>
      if r.2.2.2.1 = 0xFFFFFFFF then (r.1, r.2.1, r.2.2.1, verdict, r.2.2.2.2) else r) } }

/-- A cause of R321 is recorded: the first one names the drain record (R321, R332). -/
def recordSuspect (s : State) (code unit verdict : Nat) : State :=
  let s1 := match s.dev.suspect with
    | some _ => nameVerdict s verdict
    | none => { s with dev := { s.dev with
        suspect := some (code, unit)
        drain := if s.dev.st = .draining then s.dev.drain else some (code, unit, eventStep s, verdict, jobTag s) } }
  raiseEv s1 srcThimble .suspect [code, unit]

/-- A fatal memory error that a drain meets as it begins: recorded, and poison if a job is loaded (R198, R321). -/
def fatalLine (s : State) (l : Nat) : State :=
  let s1 := noteUncorrectable s l
  if jobLoaded s1 then
    let s2 := recordSuspect s1 2 (unitOf (64 * l)).1 0xFFFFFFFF
    if s2.fence.sent then s2 else sendPoison s2 5
  else s1

/-- A held write proceeds as a drain begins: lines covered in part are read and corrected (R189, R196). -/
def drainHeld (s : State) (w : HeldWrite) : State :=
  putLines ((partialLines w.addr w.bytes.length).foldl (fun t l =>
    match (lineRead t l).2 with
    | none => fatalLine t l
    | some 0 => t
    | some n => countCorrected t (unitKey (unitOf (64 * l))) n) s) w.addr w.bytes

/-- The held writes of a snapshot that a drain ends proceed (R318, R327). -/
def dropHeld (s : State) : State := s.snap.heldWrites.foldl drainHeld (endHold s [])

/-- Steps 1 to 3 of a drain (R327): event, ALERT_N, snapshot cancelled, restore failed, job ended,
clearing begins; a fill is abandoned with FILL_FAILED before all of them (R317, R332). A between-job clearing or scan under way counts as step 4 or 5 (R332). Requests that wait for the
end of the job or for fitting end without it (log entry 31). -/
def startDrain (s : State) (code unit : Nat) : State :=
  let rec0 := (code, unit, eventStep s, 0xFFFFFFFF, jobTag s)
  let rec1 := match s.dev.drain with | some r => r | none => rec0
  let s0 := abortAt (abortAt s .jobEnd .aborted) .fitting .wrongState
  let f := if s.snap.filling.isSome then raiseEv s0 srcThimble .fillFailed [code] else s0
  let s1 := setCause (raiseEv (closeWindow f) srcThimble .drainStart [code, unit]) .device
  let s3 := failRestore (dropHeld (stopSnapshot s1 2)) .aborted []
  let s4 := if jobLoaded s3 then (let e := endJobNow s3 false .drainClear; { e with dev := { e.dev with endDrain := true } })
    else drainWork s3
  goState { s4 with dev := { s4.dev with drain := some rec1, retain := false, fromFill := false, scanDue := false }
                    snap := { s4.snap with filling := none } } .draining

/-- The drain that is due: of a suspect device, or the one requested (R326, R328). -/
def drainCause (s : State) : Option (Nat × Nat) :=
  match s.dev.suspect with
  | some c => some c
  | none => s.dev.drain.map (fun r => (r.1, r.2.1))

/-- A device whose drain is due drains once it holds no case (R163, R326). -/
def drainIfDue (s : State) : State :=
  match drainCause s with
  | none => s
  | some (code, unit) =>
    if heldCases s then s
    else match s.dev.st with
      | .ready | .running | .spare | .filling => startDrain s code unit
      | _ => s

/-- A cause of R321: recorded first, then poison if a job is loaded, then the drain. -/
def makeSuspect (s : State) (code unit verdict : Nat) : State :=
  let s2 := recordSuspect s code unit verdict
  let s3 := if jobLoaded s2 && !s2.fence.sent then sendPoison s2 (if code = 1 then 1 else 5) else s2
  drainIfDue s3

end Sys2Proof.Machine
end

