-- ==== Sys2Proof/Machine/Memory.lean ====
section
/-! DEFINITION. Reads and writes of bolt and LPDDR5X memory: what reads and partial writes do (R189, R196 to R198),
protected regions (R21, R134) and first-touch holds (R303). -/

namespace Sys2Proof.Machine

open Sys2Proof.Config

/-- The byte ranges of a plane: the panel-local window stands for its place in every slice (R186). -/
def planeRanges (base n : Nat) : List (Nat × Nat) :=
  if isLocal base then (List.range panels).map (fun q => (resolveAddr q (256 * base), n)) else [(256 * base, n)]

/-- The planes of the FROZEN weights of the layer table (R133, R134). -/
def frozenWeights (p : Package) : List (Nat × Nat) :=
  (p.layers.filter (fun l => l.frozen)).flatMap (fun (l : LayerEntry) =>
    match p.descs[l.weight]? with
    | some (.tensor t) =>
      if t.spooled then [] else (planeSpans t).flatMap (fun e => planeRanges e.1 e.2)
    | _ => [])

/-- FROZEN regions and the FROZEN weights of the layer table are write-protected for the job (R134, R191). -/
def inFrozen (s : State) (a : Nat) : Bool :=
  match s.job.pkg with
  | none => false
  | some p => p.regions.any (fun r => r.frozen && regionHas p r a)

/-- Two byte ranges meet. -/
def rangesMeet (a n b m : Nat) : Bool := decide (a < b + m) && decide (b < a + n) && decide (0 < n) && decide (0 < m)

/-- A write reaches a FROZEN weight of the layer table (R134). -/
def hitsWeight (s : State) (a n : Nat) : Bool :=
  match s.job.pkg with
  | none => false
  | some p => (frozenWeights p).any (fun e => rangesMeet a n e.1 e.2)

/-! ### Reads -/

/-- An uncorrectable read (R198): with a job loaded a fatal memory error; otherwise a retained base region is lost and
cleared. -/
def uncorrectable (s : State) (l : Nat) : State :=
  let s2 := noteUncorrectable s l
  if jobLoaded s2 then makeSuspect s2 2 (unitOf (64 * l)).1 0xFFFFFFFF
  else match s2.base with
    | some _ => if inBase s2 (64 * l) then dropBase s2 else s2
    | none => s2

/-- What the reading of a line does, by what the decoder found (R197, R198). -/
def noteRead (s : State) (l : Nat) : Option Nat → State
  | none => uncorrectable s l
  | some 0 => s
  | some n => countCorrected s (unitKey (unitOf (64 * l))) n

/-- Read one line through the decoder (R196 to R198): its 64 bytes, and what the reading does. -/
def readLine (s : State) (l : Nat) : List Byte × State :=
  let r := lineRead (heldIn s) l
  (r.1, noteRead s l r.2)

/-- What reading a range does beside delivering its bytes: counts, events, poison (R197, R198). -/
def touchRange (s : State) (a n : Nat) : State :=
  if memClean s then s else (linesOf a n).foldl (fun t l => (readLine t l).2) s

/-- What the snapshot engine's reading of a range does: held writes are apart (R303). -/
def touchStored (s : State) (a n : Nat) : State :=
  if memClean s then s else (linesOf a n).foldl (fun t l => noteRead t l (lineRead t l).2) s

/-- Read `n` bytes through the decoder (R196). -/
def readBytes (s : State) (a n : Nat) : List Byte × State :=
  (memBytes (viewMem s) a n, touchRange s a n)

/-! ### Writes -/

/-- Write bytes with no protection applied: scrub, load, restore, clearing and held writes. Lines covered in part are
read and corrected (R189, R196). -/
def rawWrite (s : State) (a : Nat) (bs : List Byte) : State :=
  if memClean s then { s with mem := memPut s.mem a bs }
  else putLines ((partialLines a bs.length).foldl (fun t l => noteRead t l (lineRead t l).2) s) a bs

/-- A write cut at the page boundaries, as (address, bytes); the fuel is the number of pages. -/
def pagePieces : Nat → Nat → List Byte → List (Nat × List Byte)
  | 0, _, _ => []
  | n + 1, a, bs =>
    let k := 0x10000 - a % 0x10000
    if bs.length ≤ k then [(a, bs)] else (a, bs.take k) :: pagePieces n (a + k) (bs.drop k)

/-- A piece within one page: held while its page is protected, or written (R303). -/
def guardedPiece (s : State) (e : Nat × List Byte) : State :=
  if s.snap.guarded.contains (pageOf e.1) then
    holdWrite s ⟨e.1, e.2, none⟩
  else rawWrite s e.1 e.2

/-- A write of which first-touch protection holds the part on protected pages, or the write itself (R303): a hold
keeps the order of the writes to every page, so that it changes timing only (R70). -/
def guardedWrite (s : State) (a : Nat) (bs : List Byte) : State :=
  if anyLine a bs.length (fun x => s.snap.guarded.contains (pageOf x)) then
    (pagePieces (bs.length / 0x10000 + 2) a bs).foldl guardedPiece
      { s with snap := { s.snap with heldN := sat32 (s.snap.heldN + 1) } }
  else rawWrite s a bs

/-- Every held write proceeds (R318). -/
def releaseAll (s : State) : State :=
  s.snap.heldWrites.foldl (fun t w => rawWrite t w.addr w.bytes) (endHold s [])

/-- A snapshot fails: protection ends, every held write proceeds, no manifest is sent (R318). -/
def failSnapshot (s : State) (cause : Nat) : State :=
  if s.snap.snap.isSome then releaseAll (stopSnapshot s cause) else s

/-- A write by the job or by a host flow, under the protections: BASE_WRITE first, then FROZEN_WRITE;
a protected write is not performed and the step faults (R21, R134). -/
def storeBytes (s : State) (a : Nat) (bs : List Byte) : State :=
  if anyLine a bs.length (inBase s) then jobFault s .baseWrite .baseWrite []
  else if anyLine a bs.length (inFrozen s) || hitsWeight s a bs.length then jobFault s .frozenWrite .frozenWrite []
  else guardedWrite s a bs

/-- A write of the step: nothing further of an abandoned step is written (R95, R119). -/
def stepWrite (s : State) (a : Nat) (bs : List Byte) : State :=
  if stepGone s then s else storeBytes s a bs

end Sys2Proof.Machine
end

