-- ==== Sys2Proof/Machine/Operands.lean ====
section
/-! DEFINITION. Operand forms: panel sets (R170), descriptors (R171), spool entries (R122), tensors in
memory (R33 to R41, R49, R72, R400). -/

namespace Sys2Proof.Machine

open Sys2Proof.Config

/-! ### Panel sets and descriptors -/

/-- The panels of a mask, ascending (R170). -/
def maskPanels (mask : Nat) : List Nat := allPanels.filter (fun p => bitOf mask p)

/-- The entry a slot uses: i + (STEP mod P) of a rotation group of P phases (R170). -/
def phaseEntry (p : Package) (step i : Nat) : Nat :=
  match p.psets[i]? with
  | none => i
  | some e => if e.phases = 0 then i else i + step % (e.phases + 1)

/-- The panels of a slot's set in the step in force, at their positions (R170, R171). -/
def slotPanels (s : State) (p : Package) (i : Nat) : List Nat :=
  match p.psets[phaseEntry p s.job.step i]? with
  | none => []
  | some e => maskPanels e.mask

def productOf (p : Package) (i : Nat) : Option ProductDesc :=
  match descOf p i with | .product t => some t | _ => none
def rowOf (p : Package) (i : Nat) : Option RowDesc :=
  match descOf p i with | .row t => some t | _ => none

/-- MICRO × a stride of 256-byte units; nothing while MICRO is 0xFFFF (R171). -/
def microBytes (s : State) (stride : Nat) : Nat :=
  if s.shut.micro = 0xFFFF then 0 else s.shut.micro * stride * 256

/-! ### Chains (R96, R98) -/

/-- The instructions of a chain table entry. -/
def chainCode (p : Package) (c : ChainEntry) : List NInstr := (p.needle.drop c.entry).take c.length

/-- The bindings that instructions with the given opcodes name in the chain of a BIND descriptor (R101). -/
def chainBinds (p : Package) (b : BindDesc) (ops : List Nat) : List Nat :=
  match p.chains[b.chain]? with
  | none => []
  | some c => ((chainCode p c).filter (fun i => ops.contains i.op)).filterMap (fun i => b.binds.getD i.args.sub none)

/-- The tensors that a chain writes: the bindings of STB, QNT and ACC (R101). -/
def chainWrites (p : Package) (b : BindDesc) : List Nat := chainBinds p b [0x38, 0x39, 0x3A]

/-- The tensors to which the chains of a package add, each with the panel set of its slot (R65, R101). -/
def sumTargets (p : Package) : List (Nat × Nat) :=
  ((p.stitches.flatMap (fun st => st.nslots)).flatMap (fun x => match descOf p x.desc with
    | .bind b => (chainBinds p b [0x3A]).map (fun d => (x.pset, d))
    | _ => [])).eraseDups

/-! ### Places: where a plane's bytes lie -/

/-- Where byte 0 of a region lies: flat memory, a spool entry of the ring (its payload wraps), or a void
entry (R122, R126, R128). -/
inductive Place where
  | flat (a : Nat)
  | ring (start size off : Nat)
  | void
deriving DecidableEq, Repr

/-- The pieces of `n` bytes from offset `o` of a place, as (address, length). -/
def placePieces (pl : Place) (o n : Nat) : List (Nat × Nat) :=
  match pl with
  | .flat a => [(a + o, n)]
  | .ring st sz off =>
    let i := (off + o) % max sz 1
    if i + n ≤ sz then [(st + i, n)]
    else (st + i, sz - i) :: List.replicate ((n - (sz - i)) / max sz 1) (st, sz) ++ [(st, (n - (sz - i)) % max sz 1)]
  | .void => []

/-- Bytes of a place in a memory view; a void entry reads +0 (R128). -/
def placeGet (m : Mem) (pl : Place) (o n : Nat) : List Byte :=
  match pl with
  | .void => List.replicate n 0#8
  | _ => (placePieces pl o n).flatMap (fun q => memBytes m q.1 q.2)

def placeNat (m : Mem) (pl : Place) (o n : Nat) : Nat := leNat (placeGet m pl o n)

/-- Step writes to a place; writes to a void entry are discarded (R128). -/
def placePut (s : State) (pl : Place) (o : Nat) (bs : List Byte) : State :=
  ((placePieces pl o bs.length).foldl (fun (acc : State × List Byte) q =>
    (stepWrite acc.1 q.1 (acc.2.take q.2), acc.2.drop q.2)) (s, bs)).1

def placeTouch (s : State) (pl : Place) (o n : Nat) : State :=
  (placePieces pl o n).foldl (fun t q => touchRange t q.1 q.2) s

/-- Every byte of a place exists (R186). -/
def placeOk (pl : Place) (n : Nat) : Bool := (placePieces pl 0 n).all (fun q => rangeOk q.1 q.2)

/-! ### The spool ring (R120 to R123) -/

/-- The spool region of the map. -/
def spoolRegion (p : Package) : Option Region := p.regions.find? (fun r => r.spool)
/-- SPOOL_SIZE (R120). -/
def spoolSize (p : Package) : Nat := match spoolRegion p with | some r => r.len | none => 0
/-- Address of the ring of panel q. -/
def ringStart (p : Package) (q : Nat) : Nat :=
  boltBase + sliceBytes * q + jobAreaOffset p + (match spoolRegion p with | some r => r.start | none => 0)

/-- The entries of a panel's spool with where they reside: 0 ring, 1 extension, 2 void. -/
def allEntries (sp : Spool) : List (SpoolEntry × Nat) :=
  sp.ring.map (fun e => (e, 0)) ++ sp.ext.map (fun e => (e, 1)) ++ sp.voids.map (fun e => (e, 2))

/-- The entry of the highest PUSH_SEQ. -/
def newestEntry (es : List (SpoolEntry × Nat)) : Option (SpoolEntry × Nat) :=
  es.foldl (fun best e => match best with
    | none => some e
    | some b => if b.1.seq ≤ e.1.seq then some e else some b) none

/-- The entry that descriptor d reaches on a panel in micro-batch `micro`: the newest push of d in that
micro-batch, else the newest of d, else the newest of the micro-batch, else the newest push (R122 gives a
descriptor no field for a push sequence; DESIGN CHOICE, log entry 20). -/
def findEntry (sp : Spool) (d micro : Nat) : Option (SpoolEntry × Nat) :=
  let all := allEntries sp
  match newestEntry (all.filter (fun e => e.1.desc == d && e.1.micro == micro)) with
  | some e => some e
  | none => match newestEntry (all.filter (fun e => e.1.desc == d)) with
    | some e => some e
    | none => match newestEntry (all.filter (fun e => e.1.micro == micro)) with
      | some e => some e
      | none => newestEntry all

/-- The payload of an entry as a place: addresses within it wrap past the end of the ring, or of the share (R122, R126). -/
def entryPlace (s : State) (p : Package) (q : Nat) (e : SpoolEntry × Nat) : Place :=
  match e.2 with
  | 0 => .ring (ringStart p q) (spoolSize p) (e.1.off + 64)
  | 1 => .ring (extStart s q) (extBytes s) (e.1.off + 64)
  | _ => .void

/-- A place moved on by `o` bytes. -/
def placeAdd (pl : Place) (o : Nat) : Place :=
  match pl with
  | .flat a => .flat (a + o)
  | .ring st sz off => .ring st sz (off + o)
  | .void => .void

/-- Where a base of 256-byte units lies for panel q: an address, or an offset in the payload of the entry that
descriptor d reaches (R122, R171). On a panel that holds no entry at all the access reaches no storage: it reads +0
and its writes are discarded, as of a void entry (the spec is silent; DESIGN CHOICE, log entry 20). -/
def basePlace (s : State) (p : Package) (q : Nat) (spooled : Bool) (d micro base : Nat) : Place :=
  if spooled then
    match findEntry (panelOf s q).spool d micro with
    | none => .void
    | some e => placeAdd (entryPlace s p q e) (256 * base)
  else .flat (resolveAddr q (256 * base))

/-- An access by panel q through a spooled descriptor is served from the extension (R125, R126). -/
def servedExt (s : State) (q : Nat) (spooled : Bool) (d micro : Nat) : Bool :=
  spooled && (findEntry (panelOf s q).spool d micro).any (fun e => e.2 == 1)

/-- The wait of an access that the extension serves: its physical cycles, a free value (log entry 2), go to
RETURN_WAIT_PHYS (R126, R132). -/
def waitExt (s : State) (q : Nat) (b : Bool) : State :=
  if b then
    let r := takeFree s
    modPanel r.2 q (fun w => { w with spool := { w.spool with stat := { w.spool.stat with
      returnWait := sat32 (w.spool.stat.returnWait + r.1.toNat % 2 ^ 32) } } })
  else s

/-! ### Tensors -/

/-- The planes of a tensor for one panel. An address in the panel-local window is that address in the panel's own
slice (R171, R186), so a plane keeps its one layout on every panel. -/
structure Planes where
  elem : Place
  scale : Place
  store : Place
  index : Place
deriving DecidableEq, Repr

/-- The planes that panel q reaches in micro-batch `micro` (R122, R171): MSTRIDE moves every base. -/
def planesAt (s : State) (p : Package) (q di : Nat) (t : TensorDesc) (micro : Nat) : Planes :=
  let mo := t.mstride * (if micro = 0xFFFF then 0 else micro)
  let f := fun (b : Nat) => basePlace s p q t.spooled di micro (b + mo)
  { elem := f t.elemBase, scale := f t.scaleBase, store := f t.storeBase, index := f t.indexBase }

/-- The planes of a tensor under the MICRO in force. -/
def planesOf (s : State) (p : Package) (q di : Nat) (t : TensorDesc) : Planes := planesAt s p q di t s.shut.micro

/-- Every plane of a tensor exists in the address map. -/
def planesOk (t : TensorDesc) (pl : Planes) : Bool :=
  placeOk pl.elem (elemBytes t) && placeOk pl.scale (scaleBytesOf t) &&
  placeOk pl.store (storeBytesOf t) && placeOk pl.index (indexBytesOf t)

/-- The scale byte of a block's group (R38). -/
def readScale (m : Mem) (t : TensorDesc) (pl : Planes) (b : Nat) : Byte :=
  (placeGet m pl.scale (groupOf t b) 1).getD 0 0#8

/-- The stored code of lane i of block b (R38). -/
def readCode (m : Mem) (t : TensorDesc) (pl : Planes) (b i : Nat) : Nat :=
  let o := 16 * b
  match t.fmt with
  | .l4 =>
    let v := placeNat m pl.elem (o + i / 2) 1
    if i % 2 = 0 then v % 16 else v / 16
  | _ => placeNat m pl.elem (o + i) 1

/-- The outlier entries of block b as (LANE, VALUE), through the index plane (R49, R400). -/
def readOutliers (m : Mem) (t : TensorDesc) (pl : Planes) (b : Nat) : List (Nat × L16) :=
  if t.kout = 0 then []
  else
    let lo := placeNat m pl.index (4 * b) 4
    let used := placeNat m pl.store 4 4
    let hi := if b + 1 = blockCount t then used else placeNat m pl.index (4 * (b + 1)) 4
    (List.range (hi - lo)).map (fun i =>
      let w := placeNat m pl.store (16 + 8 * (lo + i) + 4) 4
      (fieldOf w 16 5, BitVec.ofNat 16 (fieldOf w 0 16)))

/-- An element of a folded tensor: line and position give its split code, its decoded value and its
outlier (R28, R41, R56, R62). -/
def readNarrow (m : Mem) (t : TensorDesc) (pl : Planes) (l c : Nat) : Elem :=
  let b := l * lineBlocks t + c / fmtBlock t.fmt
  let i := c % fmtBlock t.fmt
  let sc := readScale m t pl b
  let code := readCode m t pl b i
  let sp := splitCode t.fmt code
  { neg := sp.1, M := sp.2.1, k := sp.2.2
    val := if sc = scaleZero then 0#32 else decode28 t.fmt (scaleInt sc) code
    outl := ((readOutliers m t pl b).find? (fun o => o.1 == i)).map Prod.snd }

/-- The bytes of a dense element at logical index x. -/
def readDense (m : Mem) (t : TensorDesc) (pl : Planes) (x : Nat) : Nat :=
  placeNat m pl.elem (fmtBytes t.fmt * x) (fmtBytes t.fmt)

/-- An element as F32, as LDB delivers it and as a fold reads its source (R41, R101). -/
def readElem (m : Mem) (t : TensorDesc) (pl : Planes) (x : Nat) : F32 :=
  match t.fmt with
  | .f32 | .u32 => BitVec.ofNat 32 (readDense m t pl x)
  | .l16 => l16ToF32 (BitVec.ofNat 16 (readDense m t pl x))
  | .rem8 => f32OfDy ⟨(BitVec.ofNat 8 (readDense m t pl x)).toInt, 0⟩
  | _ => let q := lineOfElem t x
         outlVal (readNarrow m t pl q.1 q.2)

/-- What reading element x of a tensor reads, as (plane, offset, length): its bytes, or its code, its group's scale
byte, its block's index words and store entries (R38, R49, R400). -/
def elemReads (m : Mem) (t : TensorDesc) (pl : Planes) (x : Nat) : List (Place × Nat × Nat) :=
  if fmtNarrow t.fmt then
    let q := lineOfElem t x
    let b := q.1 * lineBlocks t + q.2 / fmtBlock t.fmt
    let i := q.2 % fmtBlock t.fmt
    let plain := [(pl.elem, 16 * b + (if t.fmt = .l4 then i / 2 else i), 1), (pl.scale, groupOf t b, 1)]
    if t.kout = 0 then plain
    else
      let last := b + 1 = blockCount t
      plain ++ [(pl.index, 4 * b, if last then 4 else 8), (pl.store, 0, if last then 16 else 0),
        (pl.store, 16 + 8 * placeNat m pl.index (4 * b) 4, 8 * (readOutliers m t pl b).length)]
  else [(pl.elem, fmtBytes t.fmt * x, fmtBytes t.fmt)]

/-- Reading elements of a tensor: each line that they lie on is read once (R197, R198). -/
def touchElems (s : State) (t : TensorDesc) (pl : Planes) (xs : List Nat) : State :=
  if memClean s then s
  else
    let m := viewMem s
    let ls := xs.flatMap (fun x => (elemReads m t pl x).flatMap (fun r =>
      (placePieces r.1 r.2.1 r.2.2).flatMap (fun q => linesOf q.1 q.2)))
    ls.eraseDups.foldl (fun u l => (readLine u l).2) s

/-- The elements of lines l0 to l1 − 1 at positions c0 to c1 − 1. -/
def lineElems (t : TensorDesc) (l0 l1 c0 c1 : Nat) : List Nat :=
  (List.range (l1 - l0)).flatMap (fun l => (List.range (c1 - c0)).map (fun c => elemIndex t (l0 + l) (c0 + c)))

/-- An operand line of a product: positions `0` to `extC − 1` (R55, R62). -/
def readOperand (m : Mem) (t : TensorDesc) (pl : Planes) (l : Nat) : Line :=
  { fmt := t.fmt
    elems := (List.range (extC t)).map (fun c =>
      if fmtNarrow t.fmt then readNarrow m t pl l c
      else { val := readElem m t pl (elemIndex t l c) })
    scales := if fmtNarrow t.fmt then
        (List.range (lineBlocks t)).map (fun b => readScale m t pl (l * lineBlocks t + b))
      else [] }

/-- The format slot of the fray counters: 0 L4, 1 L8e, 2 L8g, 3 L16 (R51). -/
def countFray (s : State) (tag slot : Nat) (f : Fray) : State :=
  { s with job := { s.job with
      fray := tabPut s.job.fray (4 * tag + slot) (frayAdd (tabGet {} s.job.fray (4 * tag + slot)) f) } }

/-- The draw of an element for a tensor (R71, R72) in a step and micro-batch. A chain draws with the STEP and MICRO of
the stitch that started it (DEDUCED from R70, log entry 64). -/
def drawFor (p : Package) (step micro tag x : Nat) : W32 := drawAt p.seed step micro tag x

/-- Part i of U units shared by S parts: first unit and the one after the last (R171). -/
def partRange (U S i : Nat) : Nat × Nat := (i * U / max S 1, (i + 1) * U / max S 1)

end Sys2Proof.Machine
end

