-- ==== Sys2Proof/Machine/Flags.lean ====
section
/-! DEFINITION. Sticky flags and status records: the flag events of R92, R117, R132, and the records
that every unit latches at a mark (R91, R117, R132, R157, R183, R203, R235, R256, R278, R295, R307). -/

namespace Sys2Proof.Machine

open Sys2Proof.Config

/-! ### Sticky flags of a panel -/

/-- The sticky flags that raise FLAG_SET (R92, R117, R132). -/
inductive Flag where
  | foldNonfinite | storeClosed | accNonfinite | queueWait
  | laneRange | rowOrder | rowEmpty | needleWait
  | spillSeen | deficit | masterNonfinite
deriving DecidableEq, Repr

/-- The flag number of FLAG_SET: 32 times the record class plus the bit of the record (R356 names no
numbering; log entry 9). -/
def flagNumber : Flag → Nat
  | .foldNonfinite => 32 | .storeClosed => 33 | .accNonfinite => 34 | .queueWait => 35
  | .laneRange => 64 | .rowOrder => 65 | .rowEmpty => 66 | .needleWait => 67
  | .spillSeen => 96 | .deficit => 97 | .masterNonfinite => 99

/-- The panel with a flag set. -/
def putFlag (p : Panel) : Flag → Panel
  | .foldNonfinite => { p with mat := { p.mat with foldNonfinite := true } }
  | .storeClosed => { p with mat := { p.mat with storeClosed := true } }
  | .accNonfinite => { p with mat := { p.mat with accNonfinite := true } }
  | .queueWait => { p with mat := { p.mat with queueWait := true } }
  | .laneRange => { p with ndl := { p.ndl with laneRange := true } }
  | .rowOrder => { p with ndl := { p.ndl with rowOrder := true } }
  | .rowEmpty => { p with ndl := { p.ndl with rowEmpty := true } }
  | .needleWait => { p with ndl := { p.ndl with needleWait := true } }
  | .spillSeen => { p with spool := { p.spool with stat := { p.spool.stat with spillSeen := true } } }
  | .deficit => { p with spool := { p.spool with stat := { p.spool.stat with deficit := true } } }
  | .masterNonfinite => { p with spool := { p.spool with stat := { p.spool.stat with masterNonfinite := true } } }

/-- Set a sticky flag of a panel; its first setting in a step raises an event with the flag and a tag
(R92). -/
def setFlag (s : State) (q : Nat) (f : Flag) (tag : Nat) : State :=
  let p := panelOf s q
  let n := flagNumber f
  let s1 := setPanel s q (putFlag { p with told := if p.told.contains n then p.told else p.told ++ [n] } f)
  if p.told.contains n then s1 else raiseEv s1 q .flagSet [n, tag]

def setFlagIf (s : State) (b : Bool) (q : Nat) (f : Flag) (tag : Nat) : State :=
  if b then setFlag s q f tag else s

/-! ### Stitch FIFOs (R17, R166, R172) -/

/-- A wait inside the panel that holds its stitch FIFO: a chain without its head entry, a spill or a return (R118, R124,
R125, R172). -/
def panelWaits (w : Panel) : Bool := w.chain.any (fun c => c.waiting) || !w.spool.waits.isEmpty

/-- A slot that comes to the panel now waits in the FIFO. -/
def panelHeld (w : Panel) : Bool := panelWaits w || !w.fifo.isEmpty

/-- Every panel's stitch FIFO has an entry for the stitch in hand (R172). -/
def fifoFree (s : State) (ps : List Nat) : Bool :=
  ps.all (fun q =>
    let es := ((panelOf s q).fifo.map FifoSlot.stitch).eraseDups
    es.contains s.shut.stitches || decide (es.length < 64))

/-- The slot of panel ps[j] as it enters the FIFO. -/
def fifoSlot (s : State) (cls op desc : Nat) (ps : List Nat) (mov : Option Nat) (j : Nat) : FifoSlot :=
  { cls := cls, op := op, desc := desc, step := s.job.step, micro := s.shut.micro, stitch := s.shut.stitches
    set := ps, pos := j, mov := mov }

def enqueueSlot (s : State) (q : Nat) (f : FifoSlot) : State := modPanel s q (fun w => { w with fifo := w.fifo ++ [f] })

/-- A slot on the panels of its set, in ascending order (R166, R172): each acts, or puts the slot into its FIFO where it is
held; nothing more of an abandoned step is done (R95, R119). -/
def onPanels (s : State) (ps : List Nat) (mk : Nat → FifoSlot) (held : Panel → Bool) (act : State → Nat → Out) : Out :=
  if fifoFree s ps then
    eachDo (fun u j =>
      let q := ps.getD j 0
      if stepGone u then .next u
      else if held (panelOf u q) then .next (enqueueSlot u q (mk j))
      else act u j) (List.range ps.length) s
  else .fault .noJob

/-! ### Trace buffers (R352) -/

/-- The KIND of the TRACE entry that names panel q: 0 off, 1 stitches, 2 chains, 3 waits. -/
def traceKind (s : State) (q : Nat) : Nat :=
  match (List.range 8).find? (fun i => setting s 0x170 i % 256 == q && setting s 0x170 i / 256 % 4 != 0) with
  | none => 0
  | some i => setting s 0x170 i / 256 % 4

/-- Add a trace record to a panel that traces the kind, under the panel's next sequence number (R355); the buffer keeps
the last 2,048. The arguments, which no rule gives, are free values (log entry 2). -/
def traceAt (s : State) (q kind : Nat) : State :=
  if traceKind s q = kind then
    let n := tabGet 0 s.mgmt.seqs q
    modPanel { s with free := s.free + 1, mgmt := { s.mgmt with seqs := tabPut s.mgmt.seqs q ((n + 1) % 2 ^ 32) } } q
      (fun w => { w with
        trace := (w.trace ++ [(0x1FF + kind, eventStep s, n, s.free)]).drop (w.trace.length + 1 - 2048) })
  else s

/-! ### Status records -/

def w32 (n : Nat) : W32 := BitVec.ofNat 32 n
def loHi (n : Nat) : List Nat := [n % 2 ^ 32, n / 2 ^ 32]

/-- A word of flag bits from bit 0. -/
def flagBits : List Bool → Nat
  | [] => 0
  | b :: bs => boolNat b + 2 * flagBits bs

/-- A record of `n` words, zero filled. -/
def record (n : Nat) (ws : List Nat) : List W32 := (List.range n).map (fun i => w32 (ws.getD i 0))

/-- Matrix status record (R91). -/
def matrixRecord (s : State) (mark q : Nat) : List W32 :=
  let m := (panelOf s q).mat
  record 16 ([mark, flagBits [m.foldNonfinite, m.storeClosed, m.accNonfinite, m.queueWait]] ++ loHi m.stream
    ++ loHi m.products ++ [m.tileLoads, m.tilesPushed, m.waitPhys] ++ loHi m.foldGroups
    ++ [m.basteSkips, m.rotStart])

/-- Needle and row status record (R117). -/
def needleRecord (s : State) (mark q : Nat) : List W32 :=
  let m := (panelOf s q).ndl
  record 8 [mark, flagBits [m.laneRange, m.rowOrder, m.rowEmpty, m.needleWait], m.chains, m.issue,
    m.laneRangeN, m.waitPhys, m.rowTerms]

/-- Whether a recompute variant is in force (R132). -/
def inRecompute (s : State) : Bool :=
  match s.job.pkg with
  | none => false
  | some p => (p.variants[s.shut.variant]?).any (fun v => v.recompute)

/-- Spool and update status record (R132). -/
def spoolRecord (s : State) (mark q : Nat) : List W32 :=
  let m := (panelOf s q).spool.stat
  record 16 ([mark, flagBits [m.spillSeen, m.deficit, inRecompute s, m.masterNonfinite], m.pushes, m.pops,
    m.spillEntries, m.returnEntries] ++ loHi m.spillLines ++ [m.highWater, m.extHighWater, m.spillWait,
    m.returnWait, m.voidPushes, m.stalled, m.carries])

/-- Baste status record (R157). -/
def basteRecord (s : State) (mark h : Nat) : List W32 :=
  let m := hubOf s h
  record 8 [mark, m.selections, m.checks, m.skips, m.ineligible, m.exceedances, m.casesOverflow, m.fenceWait]

/-- Shuttle status record (R183). -/
def shuttleRecord (s : State) (mark : Nat) : List W32 :=
  let m := s.shut
  record 16 ([mark, m.variant % 64] ++ loHi m.cycles ++ [m.stitches, m.idle, m.creditWait, m.syncWaitPhys,
    m.fenceHold, m.gradePoints, m.switches, m.gswPhys] ++ loHi m.phys ++ [m.marks])

/-- Memory status record (R203): units 0 to 255 the slices, 256 + c channel c. -/
def memoryRecord (s : State) (mark u : Nat) : List W32 :=
  let m := memUnitOf s u
  let isCh := decide (256 ≤ u)
  record 8 [mark, (if isCh then u - 256 else u) % 256 + 256 * boolNat isCh + 512 * boolNat m.ceRate,
    m.corrected, m.symbols, m.uncorrectable, m.scrubPasses, m.retrains, m.sparesUsed % 65536]

/-- Port states in the codes of R235. -/
def portCode : PortState → Nat
  | .off => 0 | .training => 1 | .linked => 2 | .fitted => 3 | .member => 4 | .stranger => 5
  | .excluded => 6 | .down => 7

/-- The time that a port has spent on lane 0 alone since GATED_US last grew: a free value (R235; log entry 2). -/
def gatedTime (s : State) (port : Nat) : State :=
  if (portOf s port).gated then
    let r := takeFree s
    modPort r.2 port (fun q => { q with stat := { q.stat with gatedUs := sat32 (q.stat.gatedUs + r.1.toNat % 2 ^ 32) } })
  else s

/-- Seam port status record (R235). -/
def seamRecord (s : State) (mark p : Nat) : List W32 :=
  let q := portOf s p
  let m := q.stat
  record 16 [mark, p + 16 * portCode q.st + 256 * ((if q.gated then min 1 q.width else q.width) % 16) + 4096 * boolNat m.degraded, m.txFlits,
    m.rxFlits, m.corrected, m.bad, m.replays, m.retrains, m.creditWait, m.gateMiss, m.gatedUs,
    m.strangerDrops, m.staleDrops, m.poisonDup, m.badFlits]

/-- Host port status record (R256). -/
def hostRecord (s : State) (mark e : Nat) : List W32 :=
  let q := hostPortOf s e
  let m := q.stat
  record 16 [mark, e + 2 * boolNat q.up, m.rxFrames, m.txFrames, m.fecCorr, m.fecUncorr, m.fcsErr,
    m.oversize, m.rxOverflow, m.other, m.vlan, m.notForUs, m.malformed, m.setupLimited, m.noFlow, m.authDrops]

/-- The idle duty in force: the larger of q of R268 and q_therm of R284. -/
def dutyOf (s : State) : Nat := max s.power.q s.therm.q

/-- Mean of the last windows (R278). -/
def meanOf (xs : List Nat) : Nat := if xs.isEmpty then 0 else xs.foldl (· + ·) 0 / xs.length

/-- Power status record (R278). -/
def powerRecord (s : State) (mark : Nat) : List W32 :=
  let p := s.power
  let q := dutyOf s
  record 16 ([mark, p.grade % 16 + 16 * (p.fixedGrade % 16) + 256 * (q % 64) + 16384 * boolNat (p.q != 0)
      + 2 ^ 15 * boolNat p.fixedExit + 2 ^ 16 * boolNat p.capUnmet + 2 ^ 17 * boolNat p.deferred]
    ++ loHi (energyCount s % 2 ^ 64)
    ++ [meanOf (p.recent.map Prod.fst) % 65536 + 65536 * (meanOf (p.recent.map Prod.snd) % 65536),
        p.telem.1 % 65536 + 65536 * (p.telem.2 % 65536),
        p.soft % 65536 + 65536 * (p.hard % 65536), p.seq, p.pinches, p.deferrals, p.capWindows,
        p.rampWindows, p.taken, p.refusedN])

/-- T_IN in use, 0.01 °C: 45 °C without a fresh report (R287). -/
def tInUsed (s : State) : Nat := if s.therm.fresh then s.therm.tIn else 4500

/-- A rational to the nearest unit of 10^−4 (R295). -/
def ratUnits (r : Rat) (d : Nat) : Nat := ((r * d + 1 / 2).floor).toNat

/-- Thermal status record (R295). -/
def thermalRecord (s : State) (mark : Nat) : List W32 :=
  let t := s.therm
  record 8 [mark, flagBits [t.skew, !t.suspects.isEmpty, t.forced, !t.fresh, t.q != 0],
    (t.tj % 65536).toNat + 65536 * (t.tjPanel % 256), tInUsed s % 65536 + 65536 * (ratUnits t.theta 10000 % 65536),
    t.q % 64, t.throttleWindows, t.forcedG1, t.skewEvents]

/-- Snapshot status record (R307). -/
def snapRecord (s : State) (mark : Nat) : List W32 :=
  let e := s.snap
  record 8 [mark, (if e.snap.isSome then 1 else if e.rest.isSome then 2 else 0) + 4 * boolNat e.failed,
    e.pages, e.promoted, e.heldN, holdTime s, e.chunksSent, e.chunksVerified]

/-- The record a unit of a class latches (R360). -/
def statusRecord (s : State) (cls mark unit : Nat) : List W32 :=
  match cls with
  | 1 => matrixRecord s mark unit
  | 2 => needleRecord s mark unit
  | 3 => spoolRecord s mark unit
  | 4 => basteRecord s mark unit
  | 5 => shuttleRecord s mark
  | 6 => memoryRecord s mark unit
  | 7 => seamRecord s mark unit
  | 8 => hostRecord s mark unit
  | 9 => powerRecord s mark
  | 10 => thermalRecord s mark
  | 11 => snapRecord s mark
  | _ => []

/-- Units of a class (R17, R360). -/
def classUnits (cls : Nat) : Nat :=
  match cls with
  | 1 | 2 | 3 => panels
  | 4 => sleeves
  | 6 => panels + channels
  | 7 => 12
  | 8 => 2
  | 5 | 9 | 10 | 11 => 1
  | _ => 0

/-- Words of a record of a class (R360). -/
def classWords (cls : Nat) : Nat :=
  match cls with
  | 1 | 3 | 5 | 7 | 8 | 9 => 16
  | _ => 8

/-- Whether every unit has latched a mark (R359). -/
def markComplete (m : MarkRec) : Bool := m.records.length == (List.range 12).foldl (fun n c => n + classUnits c) 0

/-- Inject a mark: it takes the next number, and the last 8 are kept (R176, R359). A COUNTER_READ that waits for
a mark no longer kept ends with STALE_MARK (R360). -/
def injectMark (s : State) (kind : Nat) : State :=
  let r : MarkRec := { number := s.mgmt.markNext, kind := kind, step := eventStep s, records := [], fray := s.job.fray }
  let s1 := { s with
    shut := { s.shut with marks := sat32 (s.shut.marks + 1) }
    mgmt := { s.mgmt with markNext := s.mgmt.markNext + 1
                          marks := (s.mgmt.marks ++ [r]).drop (s.mgmt.marks.length + 1 - 8) } }
  (s.mgmt.marks.take (s.mgmt.marks.length + 1 - 8)).foldl (fun t k => abortAt t (.mark k.number) .staleMark) s1

end Sys2Proof.Machine
end

