-- ==== Sys2Proof/Machine/Fold.lean ====
section
/-! DEFINITION. The fold unit's output path: folded blocks, scales, index words and outlier entries
written to memory (R38, R48 to R51, R88, R89, R400), and L16 results (R33, R73). -/

namespace Sys2Proof.Machine

/-- The settings of a fold into a tensor (R39, R43, R45, R48). -/
def foldCfgOf (t : TensorDesc) : FoldCfg :=
  { fmt := t.fmt, k := t.kout, span := spanOf t, cap := t.storeCap, sr := t.sr }

/-- Write one folded block: its codes, its index word and its outlier entries (R38, R49, R400). -/
def putBlock (s : State) (t : TensorDesc) (pl : Planes) (b : Nat) (fb : FoldedBlock) : State :=
  let s1 := placePut s pl.elem (16 * b) (blockBytes t.fmt fb.codes)
  if t.kout = 0 then s1
  else
    let s2 := placePut s1 pl.index (4 * b) (leBytes 4 fb.index)
    (fb.entries.zipIdx).foldl (fun u e => placePut u pl.store (16 + 8 * (fb.index + e.2))
      (leBytes 4 b ++ leBytes 4 (e.1.2.toNat + 65536 * e.1.1))) s2

/-- Where the blocks of a fold lie: the panel that writes block b, and its planes. -/
abbrev Owner := Nat → Nat × Planes

/-- Write one group: its scale byte, then its blocks from block b on; the counts go to the tag's set
(R38, R51), and the group to the writing panel's FOLD_GROUPS (R91); a write that abandons the step ends the work (R95). -/
def putGroup (s : State) (t : TensorDesc) (ow : Owner) (b : Nat) (g : Byte × List FoldedBlock) : State :=
  let o := ow b
  let s1 := placePut s o.2.scale (groupOf t b) [g.1]
  let s2 := (g.2.zipIdx).foldl (fun u e => putBlock u t (ow (b + e.2)).2 (b + e.2) e.1) s1
  if stepGone s2 then s2
  else
    let s3 := modPanel s2 o.1 (fun p => { p with mat := { p.mat with foldGroups := sat64 (p.mat.foldGroups + 1) } })
    countFray s3 t.tag (fmtSlot t.fmt) (g.2.foldl (fun a fb => frayAdd a fb.counts) {})

/-- Write the groups of a piece, the first at block b; nothing more follows of an abandoned step (R95). -/
def putGroups (t : TensorDesc) (ow : Owner) : List (Byte × List FoldedBlock) → Nat → State → State
  | [], _, s => s
  | g :: gs, b, s => if stepGone s then s else putGroups t ow gs (b + g.2.length) (putGroup s t ow b g)

/-- The store header after a fold, and zeros beyond USED (R49). -/
def putStore (s : State) (t : TensorDesc) (pl : Planes) (c : Claim) : State :=
  if t.kout = 0 then s
  else placePut (placePut s pl.store 0
      (leBytes 4 t.storeCap ++ leBytes 4 c.used ++ leBytes 4 c.fallbackFrom ++ leBytes 4 0))
    pl.store (16 + 8 * c.used) (List.replicate (8 * (t.storeCap - c.used)) 0#8)

/-- FOLD_NONFINITE of the panels whose blocks held a replaced element (R42, R91). -/
def flagReplaced (t : TensorDesc) (ow : Owner) : List (List SrcElem) → Nat → State → State
  | [], _, s => s
  | blk :: rest, b, s =>
    flagReplaced t ow rest (b + 1)
      (setFlagIf s (blk.any (fun e => !(f32IsFinite e.val))) (ow b).1 .foldNonfinite t.tag)

/-- Fold pieces into a tensor, starting from the claims `c` (R89, R90): the state and the claims that follow. -/
def foldInto (s : State) (t : TensorDesc) (ow : Owner) (pieces : List (Nat × List (List SrcElem))) (c : Claim) :
    State × Claim :=
  let (out, c1) := foldPieces (foldCfgOf t) pieces c
  let s1 := out.foldl (fun u q => putGroups t ow q.2 q.1 u) s
  if stepGone s1 then (s1, c1)
  else
    let s2 := pieces.foldl (fun u q => flagReplaced t ow q.2 q.1 u) s1
    (setFlagIf s2 (c1.fallbackFrom != 0xFFFFFFFF && c.fallbackFrom == 0xFFFFFFFF)
      (ow c1.fallbackFrom).1 .storeClosed t.tag, c1)

/-- The L16 code of a value: round to nearest, or stochastic with the element's draw (R33, R73). -/
def toL16 (p : Package) (step micro : Nat) (sr : Bool) (tag x : Nat) (v : F32) : L16 :=
  if sr then l16OfF32Sr v (drawFor p step micro tag x) else l16OfF32 v

/-- Write an element of an L16 tensor, counted in slot L16 of its tag (R33, R51). -/
def putL16 (s : State) (p : Package) (step micro : Nat) (t : TensorDesc) (pl : Planes) (sr : Bool) (x : Nat) (v : F32) :
    State :=
  let c := toL16 p step micro sr t.tag x v
  let u := placePut s pl.elem (2 * x) (leBytes 2 c.toNat)
  if stepGone u then u else countFray u t.tag 3 (l16Count v c)

/-- Write an F32 or U32 element as its bits (R34, R36). -/
def putWord (s : State) (pl : Planes) (x : Nat) (v : F32) : State :=
  placePut s pl.elem (4 * x) (leBytes 4 v.toNat)

end Sys2Proof.Machine
end

