-- ==== Sys2Proof/Machine/Matrix.lean ====
section
/-! DEFINITION. Matrix slots PROD and FOLD, bank emission, chain hops and tile pushes (R77 to R95, R166,
R171). -/

namespace Sys2Proof.Machine

open Sys2Proof.Config

/-! ### PROD -/

/-- A product's operands as rows and columns: the streamed operand gives the rows, the stationary one
the columns (R69, R77, R79; log entry 21). -/
structure ProdView where
  pd : ProductDesc
  pair : Pair
  rowD : Nat
  rowT : TensorDesc
  colD : Nat
  colT : TensorDesc
  outT : TensorDesc
deriving DecidableEq, Repr

def prodView (p : Package) (d : Nat) : Option ProdView :=
  match productOf p d with
  | none => none
  | some pd =>
    match tensorOf p pd.a, tensorOf p pd.b, tensorOf p pd.c with
    | some ta, some tb, some tc =>
      (pairOf ta.fmt tb.fmt).map (fun pr =>
        if pd.stat then ⟨pd, pr, pd.a, ta, pd.b, tb, tc⟩ else ⟨pd, pr, pd.b, tb, pd.a, ta, tc⟩)
    | _, _, _ => none

/-- The rank's run range of a product (R64). -/
def rankRange (p : Package) (v : ProdView) : Nat × Nat :=
  let n := runCount v.pair (extC v.rowT)
  match p.ranges[v.pd.ranges]? with
  | none => (0, n)
  | some bs => (bs.getD p.plan.rank 0, bs.getD (p.plan.rank + 1) 0)

/-- What part j of a product covers (R171): column groups, row blocks, runs, and its contraction part. -/
structure Part where
  colLo : Nat
  colHi : Nat
  rowLo : Nat
  rowHi : Nat
  runLo : Nat
  runHi : Nat
  kPart : Nat
deriving DecidableEq, Repr

/-- The runs of contraction part i: its share of the rank's slices (R171). -/
def partRuns (p : Package) (v : ProdView) (i : Nat) : Nat × Nat :=
  let r := rankRange p v
  let su := partRange (ceilDiv (r.2 - r.1) v.pd.sliceRuns) (max v.pd.kSplit 1) i
  (min r.2 (r.1 + su.1 * v.pd.sliceRuns), min r.2 (r.1 + su.2 * v.pd.sliceRuns))

def prodPart (p : Package) (v : ProdView) (j : Nat) : Part :=
  let k := max v.pd.kSplit 1
  let c := max v.pd.colSplit 1
  let cu := partRange (ceilDiv (lineCount v.colT) v.pd.nT) c (j / k % c)
  let ru := partRange (ceilDiv (lineCount v.rowT) v.pd.mT) v.pd.rowSplit (j / (k * c))
  let su := partRuns p v (j % k)
  { colLo := cu.1, colHi := cu.2, rowLo := ru.1, rowHi := ru.2, runLo := su.1, runHi := su.2, kPart := j % k }

/-- The panels of the contraction parts that share the rows and columns of position j, ascending (R81, R171). -/
def chainPanels (v : ProdView) (ps : List Nat) (j : Nat) : List Nat :=
  let k := max v.pd.kSplit 1
  (List.range k).map (fun i => ps.getD (j / k * k + i) 0)

/-- The planes of the row and column operands for a panel. -/
def rowPlanes (s : State) (p : Package) (v : ProdView) (q : Nat) : Planes := planesOf s p q v.rowD v.rowT
def colPlanes (s : State) (p : Package) (v : ProdView) (q : Nat) : Planes := planesOf s p q v.colD v.colT

/-- A row or column range [lo, lo + n) clipped to the tensor's lines. -/
def clipLines (t : TensorDesc) (lo n : Nat) : Nat := min n (lineCount t - lo)

/-- One product block: the slice partials of every element of its rows and columns, with RUNS and TRUNC
(R55 to R63, R79). -/
def prodBlock (m : Mem) (v : ProdView) (t : Part) (rp cp : Planes) (ru cu : Nat) :
    List (List F32) × Nat × Nat :=
  let r0 := ru * v.pd.mT
  let c0 := cu * v.pd.nT
  let cols := (List.range (clipLines v.colT c0 v.pd.nT)).map (fun c => readOperand m v.colT cp (c0 + c))
  let es := (List.range (clipLines v.rowT r0 v.pd.mT)).flatMap (fun r =>
    let a := readOperand m v.rowT rp (r0 + r)
    cols.map (fun b => slicePartials v.pair a b v.pd.sliceRuns t.runLo t.runHi))
  (es.map (fun e => e.1), (es.map (fun e => e.2.1)).sum, (es.map (fun e => e.2.2)).sum)

/-- Stationary tiles of a part (R77, R79). -/
def partTiles (v : ProdView) (t : Part) : Nat := ceilDiv (t.runHi - t.runLo) (pairKt v.pair / runLen v.pair)

/-- Contraction elements of a part that the operands hold. -/
def partElems (v : ProdView) (t : Part) : Nat :=
  min (extC v.rowT) (t.runHi * runLen v.pair) - min (extC v.rowT) (t.runLo * runLen v.pair)

/-- Column slices of a tile (R83). -/
def tileSlices (v : ProdView) : Nat := ceilDiv v.pd.nT (pairSliceCols v.pair)

/-- Blocks take the two accumulator banks as these become free (R79). -/
def fillBanks : Nat → Panel → Panel
  | 0, p => p
  | n + 1, p =>
    match p.blocks with
    | [] => p
    | b :: bs => if p.banks.length < 2 then fillBanks n { p with banks := p.banks ++ [b], blocks := bs } else p

/-- The counters of a block (R83, R91). -/
def countBlock (v : ProdView) (t : Part) (rows cols : Nat) (p : Panel) : Panel :=
  let n := partTiles v t
  let loads := p.loads + n
  { p with
    loads := loads
    mat := { p.mat with
      stream := sat64 (p.mat.stream + rows * n)
      products := sat64 (p.mat.products + rows * cols * partElems v t)
      tileLoads := sat32 (p.mat.tileLoads + n)
      rotStart := if n = 0 then p.mat.rotStart else (v.pd.rotBase + (loads - 1) * tileSlices v) % 8 } }

/-- The following panel of the chain: the next contraction part (R81, R171). -/
def chainNext (v : ProdView) (ps : List Nat) (j : Nat) : Option Nat :=
  if j % max v.pd.kSplit 1 + 1 < v.pd.kSplit then ps[j + 1]? else none

/-- The matrix engine of the panel at position j runs block (row unit ru, column unit cu) of its part. -/
def runBlock (v : ProdView) (d : Nat) (ps : List Nat) (j : Nat) (t : Part)
    (rp cp : Planes) (s : State) (ru cu : Nat) : State :=
  let q := ps.getD j 0
  let rows := clipLines v.rowT (ru * v.pd.mT) v.pd.mT
  let cols := clipLines v.colT (cu * v.pd.nT) v.pd.nT
  let b := prodBlock (viewMem s) v t rp cp ru cu
  let bank : Bank :=
    { desc := d, tag := v.outT.tag, micro := s.shut.micro, row0 := ru * v.pd.mT, rows := rows
      col0 := cu * v.pd.nT, cols := cols, partials := b.1
      start := if t.kPart = 0 then List.replicate (rows * cols) 0#32 else []
      needs := if t.kPart = 0 then 0 else ceilDiv rows 32
      chainIn := if t.kPart = 0 then none else ps[j - 1]?
      chain := chainPanels v ps j, chainOut := chainNext v ps j, emitted := 0 }
  let s1 := modPanel s q (fun w => fillBanks 2 (countBlock v t rows cols { w with blocks := w.blocks ++ [bank] }))
  countFray s1 v.outT.tag (runSlot v.rowT.fmt v.colT.fmt) { runs := b.2.1, trunc := b.2.2 }

/-- Reading a part's operands: the lines of its rows and columns over its contraction range (R197, R198). -/
def touchPart (v : ProdView) (t : Part) (rp cp : Planes) (s : State) : State :=
  let c0 := min (extC v.rowT) (t.runLo * runLen v.pair)
  let c1 := min (extC v.rowT) (t.runHi * runLen v.pair)
  let rows := min (lineCount v.rowT) (t.rowHi * v.pd.mT)
  let cols := min (lineCount v.colT) (t.colHi * v.pd.nT)
  touchElems (touchElems s v.rowT rp (lineElems v.rowT (t.rowLo * v.pd.mT) rows c0 c1))
    v.colT cp (lineElems v.colT (t.colLo * v.pd.nT) cols c0 c1)

/-- Every block of a part: column group by column group, row blocks ascending (log entry 21). A part whose own read
abandons the step does nothing more of it (R95). -/
def runPart (p : Package) (v : ProdView) (d : Nat) (ps : List Nat) (j : Nat) (s : State) : State :=
  let q := ps.getD j 0
  let t := prodPart p v j
  let rp := rowPlanes s p v q
  let cp := colPlanes s p v q
  let s0 := touchPart v t rp cp s
  if stepGone s0 then s0
  else (List.range (t.colHi - t.colLo)).foldl (fun u c =>
    (List.range (t.rowHi - t.rowLo)).foldl (fun w r =>
      runBlock v d ps j t rp cp w (t.rowLo + r) (t.colLo + c)) u) s0

/-- The part of the panel at position j; a panel does nothing more of a step that a read has abandoned (R95). An
operand in the spool extension is waited for (R126). -/
def prodOn (p : Package) (v : ProdView) (d : Nat) (ps : List Nat) (s : State) (j : Nat) : Out :=
  let q := ps.getD j 0
  if stepGone s then .next s
  else if planesOk v.rowT (rowPlanes s p v q) && planesOk v.colT (colPlanes s p v q) then
    .next (runPart p v d ps j
      (waitExt s q (servedExt s q v.rowT.spooled v.rowD s.shut.micro || servedExt s q v.colT.spooled v.colD s.shut.micro)))
  else .fault .reservedAddress

/-- PROD (R79, R166, R171): every panel of the set runs its part. -/
def execProd (x : SlotRef) (s : State) : Out :=
  whenIssuing s (fun p =>
    match prodView p x.desc with
    | none => .fault .notAdmitted
    | some v =>
      let ps := slotPanels s p x.pset
      onPanels s ps (fifoSlot s 0 1 x.desc ps none) panelHeld (prodOn p v x.desc ps))

/-! ### BANK_EMIT, CHAIN_HOP_ARRIVAL -/

/-- Rows of the next 32-row tile of a bank. -/
def emitRows (b : Bank) : Nat := min 32 (b.rows - b.emitted)

/-- The rank sums of the next tile (R63, R79, R81). -/
def emitData (b : Bank) : List F32 :=
  (List.range (emitRows b * b.cols)).map (fun i =>
    let e := b.emitted * b.cols + i
    rankSum (b.start.getD e 0#32) (b.partials.getD e []))

/-- The tile of R85; its SEQ is set at the push. -/
def bankTile (b : Bank) : Tile :=
  { tag := b.tag, rows := emitRows b, cols := b.cols, row0 := b.row0 + b.emitted, col0 := b.col0
    desc := b.desc, nonfinite := false, sampled := false, seq := 0, micro := b.micro, chain := b.chain
    data := emitData b }

/-- The bank after an emission; an emptied bank takes the next block (R79). -/
def advanceBank (p : Panel) (b : Bank) (rest : List Bank) : Panel :=
  if b.emitted + emitRows b < b.rows then { p with banks := { b with emitted := b.emitted + emitRows b } :: rest }
  else fillBanks 2 { p with banks := rest }

/-- The hop that carries a bank's next tile (R81). -/
def bankHop (q : Nat) (b : Bank) : Hop :=
  { src := q, desc := b.desc, micro := b.micro, row0 := b.row0 + b.emitted, col0 := b.col0, data := emitData b }

/-- BANK_EMIT (R79, R81, R82): the oldest complete bank emits its next 32-row tile, to the tile queue or
to the panel of the following slices. A push that waits holds the engine, so the next tile follows it (R86). -/
def execBankEmit (p : Nat) (s : State) : Out :=
  let w := panelOf s p
  match w.banks with
  | [] => noEvent s
  | b :: rest =>
    if b.needs ≠ 0 ∨ w.emitted ≠ [] then noEvent s
    else
      let w1 := advanceBank w b rest
      match b.chainOut with
      | some q => .next (modPanel (setPanel s p w1) q (fun v => { v with hops := v.hops ++ [bankHop p b] }))
      | none => .next (setPanel s p { w1 with emitted := [bankTile b] })

/-- The bank whose chain input a hop is: same sender, product, micro-batch and columns, and the next rows (R81). -/
def bankTakes (h : Hop) (b : Bank) : Bool :=
  decide (b.needs ≠ 0) && b.chainIn == some h.src && b.desc == h.desc && b.micro == h.micro && b.col0 == h.col0
    && h.row0 == b.row0 + b.start.length / max b.cols 1

/-- Give a hop to the oldest bank that takes it. -/
def giveHop (h : Hop) : List Bank → List Bank
  | [] => []
  | b :: bs =>
    if bankTakes h b then { b with start := b.start ++ h.data, needs := b.needs - 1 } :: bs
    else b :: giveHop h bs

/-- Physical cycles of a wait under R86 or R94 (R91). -/
def matWait (phys : Nat) (p : Panel) : Panel :=
  { p with mat := { p.mat with waitPhys := sat32 (p.mat.waitPhys + phys) } }

/-- CHAIN_HOP_ARRIVAL (R81, R94): rank sums from the preceding slices start a bank's sums; a hop whose
bank is not yet free waits on its handshake. -/
def execChainHopArrival (e : PanelWait) (s : State) : Out :=
  let w := panelOf s e.panel
  match w.hops.find? (fun h => w.banks.any (bankTakes h)) with
  | none => if w.hops.isEmpty then noEvent s else .next (modPanel s e.panel (matWait e.phys))
  | some h => .next (setPanel s e.panel (matWait e.phys { w with
      hops := w.hops.erase h, banks := giveHop h w.banks }))

/-! ### TILE_PUSH -/

/-- Apply a fault pattern of the hardware to computed elements (none on sound hardware). -/
def faulty (xs : List F32) (flt : List (Nat × W32)) : List F32 :=
  (xs.zipIdx).map (fun e => e.1 ^^^ (flt.foldl (fun a f => if f.1 = e.2 then a ^^^ f.2 else a) 0#32))

/-- The planes of an operand on each contraction part's panel, with the end of the part's runs (R81, R171). -/
def chainPlanes (s : State) (p : Package) (v : ProdView) (t : Tile) (d : Nat) (x : TensorDesc) : List (Planes × Nat) :=
  t.chain.zipIdx.map (fun e => (planesAt s p e.1 d x t.micro, (partRuns p v e.2).2))

/-- The planes that supplied run r. -/
def planesAtRun (pls : List (Planes × Nat)) (r : Nat) : Planes :=
  match pls.find? (fun e => decide (r < e.2)), pls.getLast? with
  | some e, _ => e.1
  | none, some e => e.1
  | none, none => ⟨.void, .void, .void, .void⟩

/-- Outlier entries of block b. -/
def blockEntries (m : Mem) (t : TensorDesc) (pl : Nat → Planes) (b : Nat) : Nat := (readOutliers m t (pl b) b).length

/-- The blocks of a line that hold elements c0 to c1 − 1: the first, and the one after the last. -/
def blockSpan (t : TensorDesc) (c0 c1 : Nat) : Nat × Nat := (c0 / fmtBlock t.fmt, ceilDiv c1 (fmtBlock t.fmt))

/-- Operand bytes of one line over elements c0 to c1 − 1 without outlier entries: elements, scale bytes and index entries
(R149). -/
def linePlain (t : TensorDesc) (c0 c1 : Nat) : Nat :=
  if fmtNarrow t.fmt then
    let b := blockSpan t c0 c1
    16 * (b.2 - b.1) + (ceilDiv b.2 (spanOf t) - b.1 / spanOf t) + (if t.kout = 0 then 0 else 4 * (b.2 - b.1))
  else fmtBytes t.fmt * (c1 - c0)

/-- Operand bytes of one line over elements c0 to c1 − 1, outlier entries included (R149). -/
def lineBytes (m : Mem) (t : TensorDesc) (pl : Nat → Planes) (l c0 c1 : Nat) : Nat :=
  let b := blockSpan t c0 c1
  linePlain t c0 c1 + (if fmtNarrow t.fmt = true ∧ t.kout ≠ 0 then
    8 * ((List.range (b.2 - b.1)).map (fun i => blockEntries m t pl (l * lineBlocks t + b.1 + i))).sum else 0)

/-- The contraction elements of a rank's range: the first, and the one after the last (R64, R149). -/
def rankElems (p : Package) (v : ProdView) : Nat × Nat :=
  let r := rankRange p v
  (r.1 * runLen v.pair, min (extC v.rowT) (r.2 * runLen v.pair))

/-- An operand line as the panels of the contraction parts streamed it. -/
def readChained (m : Mem) (v : ProdView) (t : TensorDesc) (pls : List (Planes × Nat)) (l : Nat) : Line :=
  let run := fun c => c / runLen v.pair
  { fmt := t.fmt
    elems := (List.range (extC t)).map (fun c =>
      let pl := planesAtRun pls (run c)
      if fmtNarrow t.fmt then readNarrow m t pl l c else { val := readElem m t pl (elemIndex t l c) })
    scales := if fmtNarrow t.fmt then
        (List.range (lineBlocks t)).map (fun b =>
          readScale m t (planesAtRun pls (run (b * fmtBlock t.fmt))) (l * lineBlocks t + b))
      else [] }

/-- What the baste unit captures of a pushed tile: the operand lines over the rank's contraction range, from the
panels that streamed them in the tile's micro-batch (R81, R149). -/
def captureOf (s : State) (p : Package) (v : ProdView) (q : Nat) (t : Tile) : Capture :=
  let m := viewMem s
  let r := rankRange p v
  let rp := chainPlanes s p v t v.rowD v.rowT
  let cp := chainPlanes s p v t v.colD v.colT
  { panel := q, tile := t
    rowsA := (List.range t.rows).map (fun i => readChained m v v.rowT rp (t.row0 + i))
    colsB := (List.range t.cols).map (fun i => readChained m v v.colT cp (t.col0 + i))
    pair := v.pair, tol := v.pd.tol, sliceRuns := v.pd.sliceRuns, lo := r.1, hi := r.2 }

/-- Operand bytes behind a tile (R149). -/
def captureBytes (s : State) (p : Package) (v : ProdView) (t : Tile) : Nat :=
  let m := viewMem s
  let r := rankElems p v
  let at' := fun (x : TensorDesc) (pls : List (Planes × Nat)) (b : Nat) =>
    planesAtRun pls (b % max (lineBlocks x) 1 * fmtBlock x.fmt / runLen v.pair)
  let rp := at' v.rowT (chainPlanes s p v t v.rowD v.rowT)
  let cp := at' v.colT (chainPlanes s p v t v.colD v.colT)
  ((List.range t.rows).map (fun i => lineBytes m v.rowT rp (t.row0 + i) r.1 r.2)).sum
    + ((List.range t.cols).map (fun i => lineBytes m v.colT cp (t.col0 + i) r.1 r.2)).sum

/-- A skipped selection (R87, R148, R157). -/
def skipSelection (s : State) (q : Nat) (inel : Bool) : State :=
  let s1 := modPanel s q (fun w => { w with mat := { w.mat with basteSkips := sat32 (w.mat.basteSkips + 1) } })
  modHub s1 (q / 16) (fun h =>
    if inel then { h with ineligible := sat32 (h.ineligible + 1) } else { h with skips := sat32 (h.skips + 1) })

/-- The baste selection of a pushed tile (R148, R149): whether a copy is taken, and the state. -/
def basteSelect (s : State) (p : Package) (q draw : Nat) (t : Tile) : Bool × State :=
  if draw % 2 ^ setting s 0x100 0 ≠ 0 then (false, s)
  else
    let s1 := modHub s (q / 16) (fun h => { h with selections := sat32 (h.selections + 1) })
    match prodView p t.desc with
    | none => (false, skipSelection s1 q true)
    | some v =>
      if decide (2 ^ 20 < captureBytes s p v t) then (false, skipSelection s1 q true)
      else if (hubOf s (q / 16)).act != .idle then (false, skipSelection s1 q false)
      else (true, modHub s1 (q / 16) (fun h => { h with act := .capturing (captureOf s p v q t) }))

/-- TILE_PUSH (R85 to R87, R91, R148): the oldest emitted tile takes the next SEQ and enters the queue;
with the queue full the push waits. -/
def execTilePush (e : PanelWait) (draw : Nat) (flt : List (Nat × W32)) (s : State) : Out :=
  whenRunning s (fun pkg =>
    let p := e.panel
    let w := panelOf s p
    match w.emitted with
    | [] => noEvent s
    | t :: rest =>
      if 8 ≤ w.queue.length then
        .next (traceAt (modPanel (setFlag s p .queueWait t.tag) p (matWait e.phys)) p 3)
      else
        let d := faulty t.data flt
        let t1 := { t with data := d, nonfinite := d.any (fun x => !(f32IsFinite x)), seq := w.seq }
        let sel := basteSelect s pkg p draw t1
        let s1 := modPanel sel.2 p (fun u => matWait e.phys { u with
          emitted := rest, queue := u.queue ++ [{ t1 with sampled := sel.1 }], seq := (u.seq + 1) % 2 ^ 32
          mat := { u.mat with tilesPushed := sat32 (u.mat.tilesPushed + 1) } })
        .next (setFlagIf s1 t1.nonfinite p .accNonfinite t1.tag))

/-! ### FOLD -/

/-- The part of block b among S parts of U blocks (R89, R171). -/
def partOfBlock (U S b : Nat) : Nat :=
  ((List.range S).find? (fun i => decide ((partRange U S i).1 ≤ b) && decide (b < (partRange U S i).2))).getD 0

/-- The source elements of a block of the destination, with their draws (R37, R41, R71, R88). -/
def foldSource (s : State) (p : Package) (m : Mem) (ts td : TensorDesc) (src : Planes) (b : Nat) : List SrcElem :=
  let n := max (lineBlocks td) 1
  let c0 := b % n * fmtBlock td.fmt
  (List.range (min (fmtBlock td.fmt) (extC td - c0))).map (fun i =>
    let x := elemIndex td (b / n) (c0 + i)
    ⟨readElem m ts src x, if td.sr then drawFor p s.job.step s.shut.micro td.tag x else 0#32⟩)

/-- A fold into a narrow tensor over a panel set: each panel reads its own range, and the last one writes the store
header (R89). -/
def foldNarrow (s : State) (p : Package) (fd : FoldDesc) (ts td : TensorDesc) (ps : List Nat) : State :=
  let U := blockCount td
  let m := viewMem s
  let panel := fun b => ps.getD (partOfBlock U ps.length b) 0
  let src := fun b => planesOf s p (panel b) fd.src ts
  let dst := fun b => planesOf s p (panel b) fd.dst td
  let pieces := (List.range (lineCount td)).map (fun l =>
    (l * lineBlocks td, (List.range (lineBlocks td)).map (fun c =>
      foldSource s p m ts td (src (l * lineBlocks td + c)) (l * lineBlocks td + c))))
  let r := foldInto s td (fun b => (panel b, dst b)) pieces {}
  putStore r.1 td (planesOf s p (ps.getLast?.getD 0) fd.dst td) r.2

/-- A quantise into L16: each element under R33 or R73 (R42, R88). -/
def foldL16 (s : State) (p : Package) (fd : FoldDesc) (ts td : TensorDesc) (ps : List Nat) : State :=
  let U := tensorSize td
  let m := viewMem s
  (List.range U).foldl (fun u x =>
    let q := ps.getD (partOfBlock U ps.length x) 0
    if stepGone u then u else putL16 u p s.job.step s.shut.micro td (planesOf s p q fd.dst td) td.sr x
      (readElem m ts (planesOf s p q fd.src ts) x)) s

/-- The elements that part i of S reads: those of its blocks, or of its range in an L16 destination. -/
def foldReads (td : TensorDesc) (S i : Nat) : List Nat :=
  if fmtNarrow td.fmt then
    let r := partRange (blockCount td) S i
    (List.range (r.2 - r.1)).flatMap (fun k =>
      let b := r.1 + k
      let n := max (lineBlocks td) 1
      let c0 := b % n * fmtBlock td.fmt
      (List.range (min (fmtBlock td.fmt) (extC td - c0))).map (fun i => elemIndex td (b / n) (c0 + i)))
  else
    let r := partRange (tensorSize td) S i
    (List.range (r.2 - r.1)).map (fun k => r.1 + k)

/-- Every panel's planes of a fold exist. -/
def foldOk (s : State) (p : Package) (fd : FoldDesc) (ts td : TensorDesc) (ps : List Nat) : Bool :=
  ps.all (fun q => planesOk ts (planesOf s p q fd.src ts) && planesOk td (planesOf s p q fd.dst td))

/-- What the panels of a fold read, with their waits for a source or a destination in the spool extension (R126,
R197, R198). -/
def foldTouch (s : State) (p : Package) (fd : FoldDesc) (ts td : TensorDesc) (ps : List Nat) : State :=
  ps.zipIdx.foldl (fun u e =>
    let w := waitExt u e.1 (servedExt u e.1 ts.spooled fd.src u.shut.micro || servedExt u e.1 td.spooled fd.dst u.shut.micro)
    touchElems w ts (planesOf w p e.1 fd.src ts) (foldReads td ps.length e.2)) s

/-- The fold of a panel set (R41, R88, R89). A fold whose own read abandons the step writes nothing (R95). -/
def foldOn (p : Package) (fd : FoldDesc) (ps : List Nat) (s : State) : Out :=
  match tensorOf p fd.src, tensorOf p fd.dst with
  | some ts, some td =>
    if foldOk s p fd ts td ps then
      let s0 := foldTouch s p fd ts td ps
      if stepGone s0 then .next s0
      else if fmtNarrow td.fmt then .next (foldNarrow s0 p fd ts td ps)
      else if td.fmt = .l16 then .next (foldL16 s0 p fd ts td ps)
      else .fault .notAdmitted
    else .fault .reservedAddress
  | _, _ => .fault .notAdmitted

/-- FOLD (R41, R88, R89, R166): the panels of the set fold the source into the destination. The panels pass claims from one
to the next, so that a panel whose FIFO is held holds the fold (R89, R172). -/
def execFold (x : SlotRef) (s : State) : Out :=
  whenIssuing s (fun p =>
    match descOf p x.desc with
    | .fold fd =>
      let ps := slotPanels s p x.pset
      if ps.any (fun q => panelHeld (panelOf s q)) then
        onPanels s ps (fifoSlot s 0 2 x.desc ps none) (fun _ => true) (fun u _ => .next u)
      else foldOn p fd ps s
    | _ => .fault .notAdmitted)

end Sys2Proof.Machine
end

