-- ==== Sys2Proof/Machine/Spool.lean ====
section
/-! DEFINITION. The spool: pushes, pops, spills, returns and void entries (R121 to R132). -/

namespace Sys2Proof.Machine

open Sys2Proof.Config

/-! ### Mover operations (R169) -/

/-- Issue a mover operation in a queue. -/
def startOp (s : State) (queue : Nat) (k : MovKind) : State :=
  { s with shut := { s.shut with movers := s.shut.movers ++ [⟨s.shut.nextOp, queue, k⟩], nextOp := s.shut.nextOp + 1 } }

/-! ### Occupancy -/

/-- Bytes of an entry: its header and payload (R121). -/
def entrySize (e : SpoolEntry) : Nat := 64 + e.bytes
def sizeOf' (es : List SpoolEntry) : Nat := (es.map entrySize).sum
/-- Bytes occupied in the ring, and in the extension share. -/
def ringUsed (sp : Spool) : Nat := sizeOf' sp.ring
def extUsed (sp : Spool) : Nat := sizeOf' sp.ext
/-- Ring bytes that a return in progress is filling (R125). -/
def returnSize (sp : Spool) : Nat := if sp.returning then (sp.ext.getLast?).elim 0 entrySize else 0
def ringFree (p : Package) (sp : Spool) : Nat := spoolSize p - (ringUsed sp + returnSize sp)

/-- Offset at which the next entry is allocated: above the top entry; 0 in an empty ring (log entry 10). -/
def topOffset (p : Package) (sp : Spool) : Nat :=
  match sp.ring.getLast? with
  | none => 0
  | some e => (e.off + entrySize e) % max (spoolSize p) 1

/-- Offset just below the bottom entry for an entry of n bytes (R125); 0 in an empty ring. -/
def bottomOffset (p : Package) (sp : Spool) (n : Nat) : Nat :=
  match sp.ring.head? with
  | none => 0
  | some e => (e.off + spoolSize p - n) % max (spoolSize p) 1

/-- The header of an entry (R122). -/
def entryHeader (e : SpoolEntry) : List Byte :=
  leBytes 4 (e.tag + 65536 * e.micro) ++ leBytes 4 e.desc ++ leBytes 4 e.bytes ++ leBytes 4 e.seq
    ++ leBytes 4 (boolNat e.spilled + 2 * boolNat e.isVoid) ++ List.replicate 44 0#8

def modSpool (s : State) (q : Nat) (f : Spool → Spool) : State := modPanel s q (fun w => { w with spool := f w.spool })
def modSpoolStat (s : State) (q : Nat) (f : SpoolStat → SpoolStat) : State :=
  modSpool s q (fun sp => { sp with stat := f sp.stat })

/-- HIGH_WATER and EXT_HIGH_WATER follow the occupancy (R132). -/
def raiseWater (s : State) (q : Nat) : State :=
  modSpool s q (fun sp => { sp with stat := { sp.stat with
    highWater := sat32 (max sp.stat.highWater (ringUsed sp))
    extHighWater := sat32 (max sp.stat.extHighWater (extUsed sp)) } })

/-! ### Pushes (R121, R124, R127, R128) -/

/-- The entry that a push of descriptor d makes; it takes the next PUSH_SEQ. -/
def newEntry (s : State) (q d micro : Nat) (t : TensorDesc) (isVoid : Bool) (off : Nat) : SpoolEntry :=
  { tag := t.tag, micro := micro, desc := d, bytes := t.spoolBytes
    seq := (panelOf s q).spool.seq, spilled := false, isVoid := isVoid, off := off }

/-- A counted push. -/
def countPush (sp : Spool) : Spool :=
  { sp with seq := sp.seq + 1
            stat := { sp.stat with pushes := sat32 (sp.stat.pushes + 1) } }

/-- Allocate an entry at the top of the ring and write its header (R121, R122). -/
def allocPush (p : Package) (s : State) (q d micro : Nat) (t : TensorDesc) : State :=
  let e := newEntry s q d micro t false (topOffset p (panelOf s q).spool)
  let s1 := modSpool s q (fun sp => { countPush sp with ring := sp.ring ++ [e] })
  raiseWater (placePut s1 (.ring (ringStart p q) (spoolSize p) e.off) 0 (entryHeader e)) q

/-- A void push (R127, R128): the first one of the step on a panel raises SPOOL_DEFICIT. -/
def voidPush (s : State) (q d micro : Nat) (t : TensorDesc) : State :=
  let first := !((panelOf s q).spool.voidMode)
  let e := newEntry s q d micro t true 0
  let s1 := modSpool s q (fun sp => { countPush sp with
    voids := sp.voids ++ [e], voidMode := true
    stat := { (countPush sp).stat with voidPushes := sat32 (sp.stat.voidPushes + 1) } })
  if first then
    raiseEv { setFlag s1 q .deficit t.tag with job := { (setFlag s1 q .deficit t.tag).job with deficit := true } }
      q .spoolDeficit []
  else s1

/-- The bottom entry fits the panel's extension share (R127). -/
def spillFits (s : State) (q : Nat) : Bool :=
  match (panelOf s q).spool.ring.head? with
  | none => false
  | some e => decide (extUsed (panelOf s q).spool + entrySize e ≤ extBytes s)

/-- The oldest operation that waits is a push. -/
def pushWaits (sp : Spool) : Bool := match sp.waits with | .push _ _ _ :: _ => true | _ => false

/-- A return starts as soon as the ring has room for the top entry of the extension (R125); a push that waits for
that room has it first (R124). -/
def startReturn (p : Package) (s : State) (q : Nat) : State :=
  modSpool s q (fun sp =>
    match sp.ext.getLast? with
    | none => { sp with returning := false }
    | some e => { sp with returning := sp.returning || (!(pushWaits sp) && decide (entrySize e ≤ ringFree p sp)) })

/-- Release the top entry of the ring (R121). -/
def releaseTop (p : Package) (s : State) (q : Nat) : State :=
  startReturn p (modSpool s q (fun sp => { sp with
    ring := sp.ring.dropLast, stat := { sp.stat with pops := sat32 (sp.stat.pops + 1) } })) q

/-- A push of descriptor d on panel q: allocated, void, or none while it waits for a return in progress or for a
spill (R124, R125, R127). -/
def tryPush (p : Package) (s : State) (q d micro : Nat) (t : TensorDesc) : Option State :=
  let sp := (panelOf s q).spool
  if sp.voidMode then some (voidPush s q d micro t)
  else if 64 + t.spoolBytes ≤ ringFree p sp then some (allocPush p s q d micro t)
  else if sp.returning || spillFits s q then none
  else some (voidPush s q d micro t)

/-- A pop on panel q: with the ring empty it waits for the return of the extension's top entry; with no entry at
all there is none to release (R121, R125). -/
def tryPop (p : Package) (s : State) (q : Nat) : Option State :=
  let sp := (panelOf s q).spool
  if sp.ring.isEmpty then (if sp.ext.isEmpty then some s else none) else some (releaseTop p s q)

/-- A spool operation: its state, or none while it waits. -/
def tryOp (p : Package) (s : State) (q : Nat) (o : SpoolOp) : Option State :=
  match o with
  | .push _ d micro => (tensorOf p d).bind (tryPush p s q d micro)
  | .pop _ _ => tryPop p s q

/-- A spool operation behind those that wait, which hold the panel's later ones (R172). -/
def spoolDo (p : Package) (o : SpoolOp) (s : State) (q : Nat) : State :=
  let wait := modSpool s q (fun sp => { sp with waits := sp.waits ++ [o] })
  if !((panelOf s q).spool.waits.isEmpty) then wait
  else match tryOp p s q o with
    | some t => t
    | none => startReturn p wait q

/-- The operations that wait take effect in order, as far as they can; the fuel is their number. -/
def drainWaits (p : Package) (q : Nat) : Nat → State → State
  | 0, s => s
  | n + 1, s =>
    match (panelOf s q).spool.waits with
    | [] => s
    | o :: os =>
      match tryOp p s q o with
      | none => s
      | some t => drainWaits p q n (modSpool t q (fun sp => { sp with waits := os }))

/-- After a spill or a return: waiting operations, then the next return (R124, R125). Nothing follows in an abandoned
step (R131). -/
def afterMove (p : Package) (q : Nat) (s : State) : State :=
  if stepGone s then s
  else startReturn p (drainWaits p q (panelOf s q).spool.waits.length s) q

/-- A spool slot waits behind the slots of its panel's FIFO; its own wait is the spool's (R124, R125, R172). -/
def spoolHeld (w : Panel) : Bool := w.chain.any (fun c => c.waiting) || !w.fifo.isEmpty

/-- SPUSH (R121, R166): a mover operation on every panel of the set. -/
def execSpush (x : MovRef) (s : State) : Out :=
  whenIssuing s (fun p =>
    match tensorOf p x.desc with
    | none => .fault .notAdmitted
    | some t =>
      if t.spooled && (slotPanels s p x.pset).all (fun q => rangeOk (ringStart p q) (spoolSize p)) then
        let ps := slotPanels s p x.pset
        onPanels (startOp s x.queue .spush) ps (fifoSlot s 3 2 x.desc ps (some s.shut.nextOp)) spoolHeld
          (fun u j => .next (spoolDo p (.push s.shut.nextOp x.desc s.shut.micro) u (ps.getD j 0)))
      else .fault .notAdmitted)

/-- Copy the bottom entry whole to the top of the extension share and free its ring space (R124). A copy that meets
an uncorrectable line ends with its step (R131). -/
def spillBottom (p : Package) (s : State) (q : Nat) (e : SpoolEntry) (rest : List SpoolEntry) : State :=
  let off := extUsed (panelOf s q).spool
  let e1 := { e with spilled := true, off := off }
  let src := placeGet (viewMem s) (.ring (ringStart p q) (spoolSize p) e.off) 64 e.bytes
  let s1 := placeTouch s (.ring (ringStart p q) (spoolSize p) e.off) 0 (entrySize e)
  let s2 := stepWrite s1 (extStart s q + off) (entryHeader e1 ++ src)
  if stepGone s2 then s2
  else
    let s3 := modSpool s2 q (fun sp => { sp with
      ring := rest, ext := sp.ext ++ [e1]
      stat := { sp.stat with spillEntries := sat32 (sp.stat.spillEntries + 1)
                             spillLines := sat64 (sp.stat.spillLines + entrySize e / 64) } })
    raiseWater (setFlag s3 q .spillSeen e.tag) q

/-- A descriptor reaches an entry of panel q's ring in a micro-batch. -/
def reaches (s : State) (q d micro seq : Nat) : Bool :=
  (findEntry (panelOf s q).spool d micro).any (fun e => e.1.seq == seq && e.2 == 0)

/-- An entry has writes outstanding (R124): a chain in progress that stores to it, elements for it in the fold unit, a fold
of it under way, or a COPY to it that has not completed. -/
def writesOut (p : Package) (s : State) (q : Nat) (e : SpoolEntry) : Bool :=
  let sp := fun (d : Nat) => (tensorOf p d).any (fun t => t.spooled)
  (panelOf s q).chain.any (fun c => (chainWrites p c.bind).any (fun d => sp d && reaches s q d c.micro e.seq)) ||
    (panelOf s q).foldIn.any (fun x => sp x.desc && reaches s q x.desc x.micro e.seq) ||
    s.job.qnts.any (fun r => r.panel == some q && sp r.desc && reaches s q r.desc r.micro e.seq) ||
    s.shut.movers.any (fun o => match o.kind with
      | .copy ds => ds.any (fun d => d.1 == q && reaches s q d.2.1 d.2.2 e.seq)
      | _ => false)

/-! ### Pops and returns (R121, R125) -/

/-- SPOP (R121, R166): the top entry of every panel of the set, which the load has found to be the descriptor's
(BAD_SPOOL_ORDER otherwise). -/
def execSpop (x : MovRef) (s : State) : Out :=
  whenIssuing s (fun p =>
    match tensorOf p x.desc with
    | none => .fault .notAdmitted
    | some t =>
      if t.spooled then
        let ps := slotPanels s p x.pset
        onPanels (startOp s x.queue .spop) ps (fifoSlot s 3 3 x.desc ps (some s.shut.nextOp)) spoolHeld
          (fun u j => .next (spoolDo p (.pop s.shut.nextOp x.desc) u (ps.getD j 0)))
      else .fault .notAdmitted)

/-- Copy the extension's top entry into the ring space just below the bottom entry (R125). A copy that meets an
uncorrectable line ends with its step (R131). -/
def returnTop (p : Package) (s : State) (q : Nat) (e : SpoolEntry) : State :=
  let off := bottomOffset p (panelOf s q).spool (entrySize e)
  let bs := readBytes s (extStart s q + e.off + 64) e.bytes
  let e1 := { e with off := off }
  let s1 := placePut bs.2 (.ring (ringStart p q) (spoolSize p) off) 0 (entryHeader e1 ++ bs.1)
  if stepGone s1 then s1
  else raiseWater (modSpool s1 q (fun sp => { sp with
    ring := e1 :: sp.ring, ext := sp.ext.dropLast, returning := false
    stat := { sp.stat with returnEntries := sat32 (sp.stat.returnEntries + 1) } })) q

end Sys2Proof.Machine
end

