-- ==== Sys2Proof/Machine/Mover.lean ====
section
/-! DEFINITION. Mover slots COPY, APPLY, INGEST, EMIT and NOTE, and the completion of mover operations
(R140 to R143, R166, R169, R171, R252, R253, R361, R362). -/

namespace Sys2Proof.Machine

open Sys2Proof.Config

/-! ### COPY (R171) -/

/-- Where a MOVE address lies for panel q at position j (R122, R171). -/
def movePlace (s : State) (p : Package) (q j d : Nat) (sp : Bool) (base mstride pstride : Nat) : Place :=
  basePlace s p q sp d s.shut.micro (base + (if s.shut.micro = 0xFFFF then 0 else s.shut.micro * mstride) + j * pstride)

/-- The copy of one panel's LEN bytes; LEN 0 moves nothing (R171), and nothing more of an abandoned step moves (R119,
R162). An end in the spool extension is waited for (R126). -/
def copyOn (p : Package) (m : MoveDesc) (d : Nat) (ps : List Nat) (s : State) (j : Nat) : Out :=
  let q := ps.getD j 0
  let src := movePlace s p q j d m.srcSp m.src m.srcMstride m.srcPstride
  let dst := movePlace s p q j d m.dstSp m.dst m.dstMstride m.dstPstride
  if stepGone s ∨ m.len = 0 then .next s
  else if placeOk src m.len && placeOk dst m.len then
    let w := waitExt s q (servedExt s q m.srcSp d s.shut.micro || servedExt s q m.dstSp d s.shut.micro)
    .next (placePut (placeTouch w src 0 m.len) dst 0 (placeGet (viewMem s) src 0 m.len))
  else .fault .reservedAddress

/-- What follows a read, unless the read has abandoned the step (R162, R208). -/
def unlessAbandoned (s : State) (f : State → State) : State := if stepGone s then s else f s

/-- Name the mover operation of the writes held since there were `n` (R172, R303): it completes after them. -/
def tagHeld (id n : Nat) (s : State) : State :=
  { s with snap := { s.snap with heldWrites := s.snap.heldWrites.zipIdx.map (fun e =>
      if n ≤ e.2 then { e.1 with op := some id } else e.1) } }

/-- A mover operation with the writes that it makes. -/
def moverDo (s : State) (queue : Nat) (k : MovKind) (f : State → Out) : Out :=
  outThen (f (startOp s queue k)) (fun t => .next (tagHeld s.shut.nextOp s.snap.heldWrites.length t))

/-- The spool entries that a COPY writes, as panel, descriptor and micro-batch (R122, R124). -/
def copyDsts (s : State) (m : MoveDesc) (d : Nat) (ps : List Nat) : List (Nat × Nat × Nat) :=
  if m.dstSp then ps.map (fun q => (q, d, s.shut.micro)) else []

/-- COPY (R166, R171): panel j of the set copies part j. -/
def execCopy (x : MovRef) (s : State) : Out :=
  whenIssuing s (fun p =>
    match descOf p x.desc with
    | .move m =>
      let ps := slotPanels s p x.pset
      moverDo s x.queue (.copy (copyDsts s m x.desc ps)) (fun u =>
        onPanels u ps (fifoSlot s 3 1 x.desc ps (some s.shut.nextOp)) panelHeld (copyOn p m x.desc ps))
    | _ => .fault .notAdmitted)

/-! ### APPLY (R140 to R142) -/

/-- The next L16 code toward +infinity. -/
def l16Up (c : L16) : L16 :=
  if c = 0x8000#16 then 1#16 else if c.getLsbD 15 then c - 1#16 else c + 1#16

/-- What an update does with a master pair. -/
structure Applied where
  w : L16
  rho : Byte
  carry : Bool
deriving DecidableEq, Repr

/-- The remnant in 256ths of the unit of c (R141). -/
def remnant (x : Dy) (c : L16) : Int := dyRne (dyScale (dySub x (f32Dy (l16ToF32 c))) (8 - l16Ulp c))

/-- x of R141: the exact master value and Δ. -/
def applySum (w : L16) (rho : Byte) (d : F32) : Dy :=
  dyAdd (dyAdd (f32Dy (l16ToF32 w)) ⟨rho.toInt, l16Ulp w - 8⟩) (f32Dy d)

/-- R141, for finite w and Δ. -/
def applyFinite (w : L16) (rho : Byte) (d : F32) : Applied :=
  let x := applySum w rho d
  if x.m = 0 then ⟨0#16, 0#8, false⟩
  else
    let w1 := l16OfDy x
    if f32IsInf (l16ToF32 w1) then ⟨w1, 0#8, false⟩
    else
      let q := remnant x w1
      if q = 128 then
        if w1 = 0x7F7F#16 then ⟨w1, 127#8, false⟩
        else ⟨l16Up w1, BitVec.ofInt 8 (remnant x (l16Up w1)), true⟩
      else ⟨w1, BitVec.ofInt 8 q, false⟩

/-- R141 and R142. -/
def applyPair (w : L16) (rho : Byte) (d : F32) : Applied :=
  let wf := l16ToF32 w
  if f32IsNaN wf || f32IsNaN d then ⟨0x7FC0#16, 0#8, false⟩
  else if f32IsInf wf then
    (if f32IsInf d && f32Sign d != f32Sign wf then ⟨0x7FC0#16, 0#8, false⟩ else ⟨w, 0#8, false⟩)
  else if f32IsInf d then ⟨if f32Sign d then 0xFF80#16 else 0x7F80#16, 0#8, false⟩
  else applyFinite w rho d

/-- The update of element x (R51, R132, R141, R142): the pair, the counters, the L16 conversion in the master's set, and
MASTER_NONFINITE. -/
def applyElem (td tw tr : TensorDesc) (pd pw pr : Planes) (q : Nat) (s : State) (x : Nat) : State :=
  let m := viewMem s
  let d := readElem m td pd x
  let w : L16 := BitVec.ofNat 16 (readDense m tw pw x)
  let rho : Byte := BitVec.ofNat 8 (readDense m tr pr x)
  let r := applyPair w rho d
  let s1 := placePut (placePut s pw.elem (2 * x) (leBytes 2 r.w.toNat)) pr.elem x [r.rho]
  if stepGone s1 then s1 else
  let stalled := f32IsFinite d && !(f32IsZero d) && r.w == w && r.rho == rho
  let s2 := modSpoolStat s1 q (fun st => { st with
    carries := sat32 (st.carries + boolNat r.carry), stalled := sat32 (st.stalled + boolNat stalled) })
  let lost := f32IsFinite (l16ToF32 w) && !(f32IsFinite (l16ToF32 r.w))
  let gone := decide ((applySum w rho d).m ≠ 0) && f32IsFinite (l16ToF32 w) && f32IsFinite d && f32IsZero (l16ToF32 r.w)
  setFlagIf (countFray s2 tw.tag 3 { elements := 1, overflow := boolNat lost, vanish := boolNat gone })
    lost q .masterNonfinite tw.tag

/-- APPLY on the panel at position j of n: part j of the elements (R171; log entry 13); nothing of an abandoned step
is applied (R74). A tensor in the spool extension is waited for (R126). -/
def applyOn (p : Package) (dd dw dr : Nat) (td tw tr : TensorDesc) (ps : List Nat) (s : State) (j : Nat) : Out :=
  let q := ps.getD j 0
  let r := partRange (tensorSize tw) ps.length j
  let pd := planesOf s p q dd td
  let pw := planesOf s p q dw tw
  let pr := planesOf s p q dr tr
  let xs := (List.range (r.2 - r.1)).map (fun i => r.1 + i)
  if stepGone s then .next s
  else if planesOk td pd && planesOk tw pw && planesOk tr pr then
    let w := waitExt s q (servedExt s q td.spooled dd s.shut.micro || servedExt s q tw.spooled dw s.shut.micro ||
      servedExt s q tr.spooled dr s.shut.micro)
    .next (unlessAbandoned (touchElems (touchElems (touchElems w td pd xs) tw pw xs) tr pr xs)
      (fun u => xs.foldl (applyElem td tw tr pd pw pr q) u))
  else .fault .reservedAddress

/-- Δ, w and ρ of an APPLY with their descriptors (R140, R166). -/
def applyBinds (p : Package) (b : BindDesc) : Option ((Nat × TensorDesc) × (Nat × TensorDesc) × (Nat × TensorDesc)) :=
  let f := fun (n : Nat) => (b.binds.getD n none).bind (fun d => (tensorOf p d).map (fun t => (d, t)))
  match f 0, f 1, f 2 with
  | some d, some w, some r => if d.2.fmt = .f32 ∧ w.2.fmt = .l16 ∧ r.2.fmt = .rem8 then some (d, w, r) else none
  | _, _, _ => none

/-- APPLY (R138, R140 to R143, R160, R166): bindings 0, 1 and 2 are Δ, w and ρ; none starts before the
fence has passed. -/
def execApply (x : MovRef) (s : State) : Out :=
  whenIssuing s (fun p =>
    match descOf p x.desc with
    | .bind b =>
      match applyBinds p b with
      | some (d, w, r) =>
        if s.fence.passed = true then
          let ps := slotPanels s p x.pset
          moverDo s x.queue .apply (fun u => onPanels u ps (fifoSlot s 3 4 x.desc ps (some s.shut.nextOp)) panelHeld
            (applyOn p d.1 w.1 r.1 d.2 w.2 r.2 ps))
        else .fault .notAdmitted
      | none => .fault .notAdmitted
    | _ => .fault .notAdmitted)

/-! ### INGEST (R251, R252) -/

/-- The key of a dataset slot. -/
def slotKey (stream slot : Nat) : Nat := 16 * stream + slot

/-- The slot of step s of a stream (R251). -/
def slotOfStep (d : StreamDesc) (step : Nat) : Nat := step % max d.slots 1

/-- The slot that an INGEST waits for is HELD for its step (R252). -/
def ingestHeld (s : State) (d : StreamDesc) : Bool :=
  tabGet .free s.host.slots (slotKey d.stream (slotOfStep d (s.job.step + d.ahead)))
    == .held (s.job.step + d.ahead)

/-- Copy the records of the slot to LOCAL + MICRO × MSTRIDE (R252), for each panel where LOCAL is in the
panel-local window. -/
def ingestData (s : State) (d : StreamDesc) (micro : Nat) (ps : List Nat) : Out :=
  let n := d.records * d.recordBytes
  let src := 256 * d.region + slotOfStep d (s.job.step + d.ahead) * d.slotBytes
  let loc := 256 * (d.loc + (if micro = 0xFFFF then 0 else micro * d.mstride))
  let dsts := (ps.map (fun q => resolveAddr q loc)).eraseDups
  if rangeOk src n && dsts.all (fun a => rangeOk a n) then
    let bs := readBytes s src n
    .next (dsts.foldl (fun u a => stepWrite u a bs.1) bs.2)
  else .fault .reservedAddress

/-- A mover operation takes another kind. -/
def setOp (s : State) (id : Nat) (k : MovKind) : State :=
  { s with shut := { s.shut with movers := s.shut.movers.map (fun o => if o.id = id then { o with kind := k } else o) } }

def opOf (s : State) (id : Nat) : Option MovOp := s.shut.movers.find? (fun o => o.id == id)

/-- INGEST (R252): the copy starts at once where the slot is HELD; otherwise the operation waits. -/
def execIngest (x : MovRef) (s : State) : Out :=
  whenIssuing s (fun p =>
    match descOf p x.desc with
    | .stream d =>
      if d.emit then .fault .notAdmitted
      else
        let ps := slotPanels s p x.pset
        if ingestHeld s d then moverDo s x.queue .ingestCopy (fun t => ingestData t d s.shut.micro ps)
        else .next (startOp s x.queue (.ingestWait x.desc s.shut.micro ps))
    | _ => .fault .notAdmitted)

/-- INGEST_COPY (R252): a waiting INGEST copies once its slot is HELD for its step. -/
def execIngestCopy (op : Nat) (s : State) : Out :=
  whenRunning s (fun p =>
    match (opOf s op).map MovOp.kind with
    | some (.ingestWait di micro ps) =>
      match descOf p di with
      | .stream d =>
        if ingestHeld s d then
          outThen (ingestData (setOp s op .ingestCopy) d micro ps)
            (fun t => .next (tagHeld op s.snap.heldWrites.length t))
        else noEvent s
      | _ => .fault .notAdmitted
    | _ => noEvent s)

/-! ### EMIT (R253) -/

/-- A WRITE of an EMIT: FENCE_W on the last, which ends at `fin` (R249, R253). -/
def emitWrite (op fin off : Nat) (bs : List Byte) : TxKind × Send :=
  (.emitData op off bs.length, { type := .write, fenceW := off + bs.length == fin, offset := off, payload := bs })

/-- Send what an EMIT has not sent, on the stream's open flows; with none it waits (R253). -/
def emitPump (s : State) (o : MovOp) : State :=
  match o.kind with
  | .emit n d unsent fin =>
    let r := unsent.foldl (fun (t : State × List (Nat × List Byte)) u =>
      let w := spread (fun v => openFlows v .emit n) (emitWrite o.id fin) (u.2.length / 64 + 1) 0 u.1 u.2 t.1
      (w.1, if w.2.2.isEmpty then t.2 else t.2 ++ [w.2])) (s, [])
    setOp r.1 o.id (.emit n d r.2 fin)
  | _ => s

/-- Every EMIT of a stream sends what it can. -/
def pumpEmits (s : State) : State := s.shut.movers.foldl emitPump s

/-- EMIT (R253, R166). -/
def execEmit (x : MovRef) (s : State) : Out :=
  whenIssuing s (fun p =>
    match descOf p x.desc with
    | .stream d =>
      if d.emit then
        let q := (slotPanels s p x.pset).getD 0 0
        let a := resolveAddr q (256 * d.loc + microBytes s d.mstride)
        if rangeOk a d.len then
          let remote := d.remote + s.job.step * d.remoteStep * 256
          let r := readBytes s a d.len
          .next (unlessAbandoned r.2 (fun t => pumpEmits (startOp t x.queue
            (.emit d.stream x.desc (if d.len = 0 then [] else [(remote, r.1)]) (remote + d.len)))))
        else .fault .reservedAddress
      else .fault .notAdmitted
    | _ => .fault .notAdmitted)

/-! ### NOTE (R361, R362) -/

def noteQueueOf (s : State) (m : Nat) : NoteQueue := tabGet {} s.mgmt.notes m
def setNoteQueue (s : State) (m : Nat) (v : NoteQueue) : State :=
  { s with mgmt := { s.mgmt with notes := tabPut s.mgmt.notes m v } }

/-- Push a note of a watched queue to its watcher (R362). -/
def pushNote (s : State) (m : Nat) (n : NoteRec) : State :=
  match (noteQueueOf s m).watcher.bind (tabFind s.host.sessions) with
  | none => s
  | some ss => hostSend s ss.ctrl (.push m n.seq) { type := .ctrl, payload := ctrlHdr m false false true 0 ++ noteBytes m n }

/-- Post a note: a full queue of 64 drops its oldest and raises NOTES_LOST (R362). -/
def postNote (s : State) (m : Nat) (n : NoteRec) : State :=
  let w := noteQueueOf s m
  let full := decide (64 ≤ w.notes.length)
  let s1 := setNoteQueue s m { w with
    notes := (w.notes ++ [n]).drop (w.notes.length + 1 - 64), seq := (w.seq + 1) % 2 ^ 32 }
  pushNote (if full then raiseEv s1 srcThimble .notesLost [] else s1) m n

/-- NOTE (R361). -/
def execNote (x : MovRef) (s : State) : Out :=
  whenIssuing s (fun p =>
    match descOf p x.desc with
    | .note d =>
      let q := (slotPanels s p x.pset).getD 0 0
      let a := resolveAddr q (256 * d.src + microBytes s d.mstride)
      if rangeOk a d.len then
        let bs := readBytes s a d.len
        .next (unlessAbandoned bs.2 (fun t => postNote (startOp t x.queue .note) d.mailbox
          { code := d.code, seq := (noteQueueOf s d.mailbox).seq, step := s.job.step, micro := s.shut.micro
            variant := s.shut.variant, rank := p.plan.rank, payload := bs.1 }))
      else .fault .reservedAddress
    | _ => .fault .notAdmitted)

/-! ### MOVER_COMPLETION (R169) -/

/-- A WRITE of an EMIT is not yet acknowledged. -/
def emitOut (s : State) (op : Nat) : Bool :=
  s.host.flows.any (fun e => e.2.st != .failed && e.2.out.any (fun t => match t.kind with
    | .emitData o _ _ => o == op
    | _ => false))

/-- A spool operation of mover operation `id` waits on a panel (R124, R125). -/
def spoolWaits (s : State) (id : Nat) : Bool :=
  s.panels.any (fun e => e.2.spool.waits.any (fun o => match o with
    | .push i _ _ => i == id
    | .pop i _ => i == id))

/-- A slot of mover operation `id` waits in a stitch FIFO (R172). -/
def fifoHolds (s : State) (id : Nat) : Bool := s.panels.any (fun e => e.2.fifo.any (fun f => f.mov == some id))

/-- A write of the operation is held by first-touch protection (R303). -/
def writeHeld (s : State) (id : Nat) : Bool := s.snap.heldWrites.any (fun w => w.op == some id)

/-- Whether an operation has nothing left to wait for: its slots in the FIFOs (R172), its held writes (R303), a push for its spill (R124), a pop for its
return (R125), an INGEST for its slot (R252), an EMIT for its acknowledgements (R253), a collective for its
last reduced byte and the acknowledgement of its sends (R232). -/
def opDone (s : State) (o : MovOp) : Bool :=
  !(writeHeld s o.id) && !(fifoHolds s o.id) && match o.kind with
  | .spush | .spop => !(spoolWaits s o.id)
  | .ingestWait _ _ _ => false
  | .emit _ _ unsent _ => unsent.isEmpty && !(emitOut s o.id)
  | .coll _ _ => !(s.coll.runs.any (fun r => r.op == o.id))
  | _ => true

/-- MOVER_COMPLETION (R169): the operation reports completion to the shuttle. The end of a job that
waited for an EMIT then takes place (R259). -/
def execMoverCompletion (queue op : Nat) (s : State) : Out :=
  match opOf s op with
  | none => noEvent s
  | some o =>
    if o.queue = queue ∧ opDone s o then
      .next (tryEndJob { s with shut := { s.shut with movers := s.shut.movers.filter (fun v => v.id != op) } })
    else noEvent s

end Sys2Proof.Machine
end

