-- ==== Sys2Proof/Machine/Power.lean ====
section
/-! DEFINITION. Power: the grade ladder and its selection (R263, R266, R273, R274), the power window
(R261, R262, R265, R268 to R271), pinches and clock switches (R173, R275, R276). -/

namespace Sys2Proof.Machine

open Sys2Proof.Config

def modPower (s : State) (f : Power → Power) : State := { s with power := f s.power }

/-! ### The grade ladder (R263) -/

def variantOf (p : Package) (v : Nat) : Option Variant := p.variants[v]?

/-- The variants compiled for a recipe and recompute state whose grade is available, as (index, variant). -/
def compiled (s : State) (p : Package) (recipe : Nat) (rc : Bool) : List (Nat × Variant) :=
  (p.variants.zipIdx).filterMap (fun e =>
    if e.1.recipe = recipe && e.1.recompute == rc && gradeAvailable s e.1.grade then some (e.2, e.1) else none)

/-- Every variant of the package whose grade is available, as (index, variant). -/
def available (s : State) (p : Package) : List (Nat × Variant) :=
  (p.variants.zipIdx).filterMap (fun e => if gradeAvailable s e.1.grade then some (e.2, e.1) else none)

def lowestOf (vs : List (Nat × Variant)) : Option (Nat × Variant) :=
  vs.foldl (fun b e => match b with
    | none => some e
    | some x => if e.2.grade < x.2.grade then some e else b) none

def highestOf (vs : List (Nat × Variant)) : Option (Nat × Variant) :=
  vs.foldl (fun b e => match b with
    | none => some e
    | some x => if x.2.grade < e.2.grade then some e else b) none

/-- THETA_NOM in °C/W (R294). -/
def thetaNom (s : State) : Rat := (setting s 0x150 0 : Rat) / 10000

/-- T_pred(g) in °C (R289). -/
def tPred (s : State) (v : Variant) : Rat :=
  (tInUsed s : Rat) / 100 + s.power.kE * ((v.dtj : Rat) / 10) * s.therm.theta / thetaNom s

/-- The conditions of R266 on a grade. -/
def gradeMeets (s : State) (v : Variant) : Bool :=
  let k := s.power.kE
  decide (k * v.pAvg ≤ s.power.soft) &&
  (decide (v.grade ≤ s.power.grade) || decide (k * v.pAvg ≤ (97 : Rat) / 100 * s.power.soft)) &&
  decide (k * v.pPeak ≤ s.power.hard) &&
  decide (tPred s v ≤ 95 - (setting s 0x151 0 : Rat) / 10)

/-- What heat and a deferred switch exclude at a grade point (R276, R280, R284). -/
def gradeAllowed (s : State) (v : Variant) : Bool :=
  (decide (s.therm.tj < 950) || decide (v.grade < s.power.grade)) &&
  (match s.power.switching with | some (_, n, _) => decide (v.grade ≤ n) | none => true)

/-- The grade of R266 among compiled variants: the highest that meets the conditions, else the lowest. -/
def budgetGrade (s : State) (vs : List (Nat × Variant)) : Option (Nat × Variant) :=
  match highestOf (vs.filter (fun e => gradeMeets s e.2 && gradeAllowed s e.2)) with
  | some e => some e
  | none => lowestOf vs

/-- The variant of a given grade. -/
def atGrade (vs : List (Nat × Variant)) (g : Nat) : Option (Nat × Variant) := vs.find? (fun e => e.2.grade == g)

/-- The variant Apgiosh selects among compiled ones (R266, R273, R276, R291): the forced state takes G1 or
the lowest compiled grade; a cancelled switch keeps its old grade, if heat allows it (R284); fixed mode its own, or the
lowest compiled one where FIXED_GRADE has none that may run (R273 is silent; DESIGN CHOICE, log entry 36); otherwise R266. -/
def selectFrom (s : State) (vs : List (Nat × Variant)) : Option (Nat × Variant) :=
  if s.therm.forced then
    (match atGrade vs 1 with | some e => some e | none => lowestOf vs)
  else
    match (s.power.stay.bind (atGrade vs)).filter (fun e => gradeAllowed s e.2) with
    | some e => some e
    | none =>
      if s.power.fixedGrade ≠ 0 then
        (match atGrade vs s.power.fixedGrade with | some e => some e | none => lowestOf vs)
      else budgetGrade s vs

/-! ### Fixed-frequency mode (R273, R274) -/

/-- FIXED_EXIT (R274, R279): its cause, 0 a HARD below the fixed variant's peak, 1 heat, 2 a change of
recipe or recompute state (the order of R274; log entry 14), and HARD. -/
def exitFixed (s : State) (cause : Nat) : State :=
  if s.power.fixedGrade = 0 then s
  else raiseEv (modPower s (fun w => { w with fixedGrade := 0, fixedNew := false, fixedExit := true }))
    srcThimble .fixedExit [cause, s.power.hard]

/-- Fixed mode ends where HARD falls below k_E × P_PEAK of the variant in force (R274). -/
def fixedCheck (s : State) : State :=
  match s.job.pkg.bind (fun p => variantOf p s.shut.variant) with
  | some v => if decide ((s.power.hard : Rat) < s.power.kE * v.pPeak) then exitFixed s 0 else s
  | none => s

/-- At a grade point (R271, R274): the FIXED setting takes effect, and heat ends the mode: T_j at or above 95 °C or the forced
state. A T_pred above its limit does not: with FIXED it chooses no grade (R274 names no more; DESIGN CHOICE, log entry 36). -/
def fixedAtPoint (s : State) : State :=
  let s1 := if setting s 0x144 0 = 0 then modPower s (fun w => { w with fixedGrade := 0, fixedNew := false })
    else if s.power.fixedNew || s.power.fixedGrade != 0 then
      modPower s (fun w => { w with fixedGrade := setting s 0x145 0, fixedNew := false })
    else s
  if s1.therm.forced || (decide (950 ≤ s1.therm.tj)) then exitFixed s1 1 else s1

/-! ### Clock switches (R174, R177, R276) -/

/-- The switch itself: t_gsw of 256 physical cycles; VCORE is lowered after a lower clock. -/
def switchClock (s : State) (g : Nat) : State :=
  { s with
    power := { s.power with grade := g, switching := none, vset := vSet s g }
    shut := { s.shut with gswPhys := sat32 (s.shut.gswPhys + 256), phys := sat64 (s.shut.phys + 256) } }

/-- Some sleeve is pinched. -/
def anyPinch (s : State) : Bool := s.hubs.any (fun h => h.2.pinched)

/-- A grade change at a grade point: VCORE is raised before a higher clock; the switch begins, or is
deferred while a sleeve is pinched or was within the last 1 µs (R177, R276). A switch already deferred to
the grade goes on; a selection of the clock's own grade ends it. -/
def changeGrade (s : State) (g : Nat) : State :=
  if s.power.switching.any (fun w => w.2.1 == g) then s
  else if g = s.power.grade then
    (if s.power.switching.isSome then modPower s (fun w => { w with switching := none, vset := vSet s g }) else s)
  else
    let s1 := if s.power.grade < g then modPower s (fun w => { w with vset := vSet s g }) else s
    if anyPinch s || !s.power.quiet then
      modPower s1 (fun w => { w with switching := some (s.power.grade, g, s.nowUs)
                                     deferrals := sat32 (w.deferrals + 1) })
    else switchClock s1 g

/-- CLOCK_SWITCH (R276): a deferred switch begins once no pinch has been active for 1 µs. -/
def execClockSwitch (s : State) : Out :=
  match s.power.switching with
  | none => noEvent s
  | some (_, n, _) =>
    if anyPinch s then noEvent s
    else .next (modPower (switchClock s n) (fun w => { w with quiet := true }))

/-- GRADE_DEFERRED (R276): a switch to a higher grade still deferred after 1 ms is cancelled; the old
clock and voltage stay, and the old grade is selected at the next grade point. -/
def execGradeDeferred (s : State) : Out :=
  match s.power.switching with
  | none => noEvent s
  | some (o, n, _) =>
    if n ≤ o then noEvent s
    else .next (raiseEv (modPower s (fun w => { w with
        switching := none, vset := vSet s o, deferred := true, stay := some o })) srcThimble .gradeDeferred [o, n])

/-- CLOCK_TRIM (R173): an event naming the island. -/
def execClockTrim (island : Nat) (s : State) : Out := .next (raiseEv s srcThimble .clockTrim [island])

/-! ### Pinches (R275) -/

/-- A second in µs. -/
def secondUs : Nat := 1000000

/-- A hub with one more pinch in its last second. -/
def notePinch (now : Nat) (h : Hub) : Hub :=
  { h with pinched := true, pinchTimes := now :: h.pinchTimes.filter (fun t => decide (now < t + secondUs)) }

/-- A sleeve's pinches in the last second. -/
def pinchCount (s : State) (sleeve : Nat) : Nat :=
  ((hubOf s sleeve).pinchTimes.filter (fun t => decide (s.nowUs < t + secondUs))).length

/-- A pinch of a sleeve begins: counted once (R275). -/
def beginPinch (s : State) (sleeve : Nat) : State :=
  modPower (modHub s sleeve (notePinch s.nowUs)) (fun w => { w with pinches := sat32 (w.pinches + 1), quiet := false })

/-- PINCH (R275): the sleeve's clocks run at half frequency for 64 cycles. -/
def execPinch (sleeve : Nat) (s : State) : Out :=
  if sleeves ≤ sleeve ∨ (hubOf s sleeve).pinched then noEvent s else .next (beginPinch s sleeve)

/-- A switch to a lower grade still deferred after 1 ms begins at the end of a pinch (R276). -/
def lateSwitch (s : State) : State :=
  match s.power.switching with
  | none => s
  | some (o, n, t) => if n < o ∧ t + 1000 ≤ s.nowUs then switchClock s n else s

/-- PINCH_END (R275): the pinch ends; with VCORE still low a new one begins at once. -/
def execPinchEnd (sleeve : Nat) (stillLow : Bool) (s : State) : Out :=
  if (hubOf s sleeve).pinched then
    .next (lateSwitch (if stillLow then beginPinch s sleeve
      else modHub s sleeve (fun h => { h with pinched := false })))
  else noEvent s

/-- PINCH_RATE (R275): more pinches of a sleeve in 1 s than PINCH_WARN; at most one event per second. The pinches are
those that the state counts; the command's own count says nothing more (log entry 59). -/
def execPinchRate (sleeve _count : Nat) (s : State) : Out :=
  if pinchCount s sleeve ≤ s.power.pinchWarn then noEvent s
  else
    let told := s.power.pinchTold.any (fun t => decide (s.nowUs < t + secondUs))
    let s1 := if told then s else raiseEv s srcThimble .pinchRate [sleeve, pinchCount s sleeve]
    .next (setCause (modPower s1 (fun w => { w with
      pinchTold := if told then w.pinchTold else some s.nowUs, pinchAlert := some s.nowUs })) .power)

/-! ### Budgets (R265) -/

/-- The lease of a budget, counted from its acceptance, has passed (R265). -/
def leasePassed (s : State) : Bool := s.power.accepted.any (fun t => decide (t + 1000 * s.power.hold ≤ s.nowUs))

/-- BUDGET_EXPIRED (R265): the lease has passed; the fallback values come into force, SEQ stays. -/
def execBudgetExpired (s : State) : Out :=
  if s.power.hold = 0 ∨ s.power.fallback ∨ leasePassed s = false then noEvent s
  else
    let so := setting s 0x142 0
    let ha := setting s 0x143 0
    .next (fixedCheck (raiseEv (modPower s (fun w => { w with
      soft := so, hard := ha, hold := 0, fallback := true, next := none })) srcThimble .budgetExpired
      [s.power.seq, so, ha]))

/-! ### The power window (R261, R262, R268) -/

/-- m of R268: the largest ramp value within RAMP_HOLD, the last window's with no such window, 800 W in
the first window after power-on; 0.1 mW units. -/
def rampMax (w : Power) : Nat :=
  match w.ramp with
  | [] => 8000000
  | v :: vs => if w.rampHold = 0 then v else ((v :: vs).take (10 * w.rampHold)).foldl max 0

/-- The ceiling c and the limit of a window. -/
def windowCeiling (w : Power) : Nat := min w.ceiling (rampMax w) + w.rampRate * 1000
def windowLimit (w : Power) : Nat := min (min (w.hard * 1000) 8000000) (windowCeiling w)

/-- The q and `under` that R268 gives for an input power and a limit, in one unit. -/
def nextDuty (q under P limit : Nat) : Nat × Nat :=
  if limit < P then (min 63 (q + ceilDiv (64 * (P - limit)) P), 0)
  else if 100 * P < 98 * limit then (if under + 1 = 2 then (q - 1, 0) else (q, under + 1))
  else (q, 0)

/-- Whether the grade in force is the lowest available compiled one (R269). -/
def atLowest (s : State) : Bool :=
  match s.job.pkg with
  | none => false
  | some p =>
    match variantOf p s.shut.variant with
    | none => false
    | some v =>
      match lowestOf (compiled s p v.recipe v.recompute) with
      | some e => decide (s.power.grade ≤ e.2.grade)
      | none => false

/-- The window's cap control, counters and history (R268, R269, R278). -/
def capWindow (s : State) (p pCore vIn vCore : Nat) : Power :=
  let w := s.power
  let P := p * 1000
  let c := windowCeiling w
  let limit := windowLimit w
  let d := nextDuty w.q w.under P limit
  { w with
    q := d.1, under := d.2, ceiling := c
    ramp := ((if 0 < w.q then limit else min P limit) :: w.ramp).take 10000
    unmetRun := if w.q = 63 && atLowest s then w.unmetRun + 1 else 0
    metRun := if P < limit then w.metRun + 1 else 0
    lastP := p, lastLimit := limit
    recent := ((p, pCore) :: w.recent).take 10, telem := (vIn, vCore)
    capWindows := if 0 < w.q then sat32 (w.capWindows + 1) else w.capWindows
    rampWindows := if c < w.hard * 1000 then sat32 (w.rampWindows + 1) else w.rampWindows
    lifetime := w.lifetime + p }

/-- What the next window begins with: an accepted budget, the fallback values in force, the settings of
R271 that take effect there, and a quiet clock (log entry 8). -/
def openWindow (s : State) : State :=
  let w := s.power
  let sh := match w.next with
    | some x => x
    | none => if w.fallback then (setting s 0x142 0, setting s 0x143 0) else (w.soft, w.hard)
  fixedCheck (modPower s (fun v => { v with
    soft := sh.1, hard := sh.2, next := none
    rampRate := setting s 0x140 0, rampHold := setting s 0x141 0, pinchWarn := setting s 0x147 0
    quiet := !(anyPinch s) }))

/-- The 100 ms means of input power (R291). -/
def meanWindow (t : Thermal) (p : Nat) : Thermal :=
  if t.meanN + 1 = 1000 then
    { t with meanSum := 0, meanN := 0, means := ((t.meanSum + p) / 1000 :: t.means).take 10 }
  else { t with meanSum := t.meanSum + p, meanN := t.meanN + 1 }

/-- The heat that the report gives, FLOW × 0.0697 × (T_OUT − T_IN), differs from the input power of the last window, 150 W
at the least, by more than 30 % of it (R287); in µW. -/
def heatSkew (s : State) : Bool :=
  let heat : Int := s.therm.flow * 697 * ((s.therm.tOut : Int) - s.therm.tIn)
  let p : Int := s.power.lastP * 100000
  s.therm.tOut != 0 && s.therm.flow != 0 && decide (1500 ≤ s.power.lastP) && decide (3 * p < 10 * (heat - p).natAbs)

/-- Since when the reported heat has differed without a break, looked at in every window (R287). -/
def heatWatch (s : State) : State :=
  let b := heatSkew s
  { s with therm := { s.therm with
      skewSince := if b then some (s.therm.skewSince.getD s.nowUs) else none, skewTold := s.therm.skewTold && b } }

/-- Release of ALERT_N for POWER (R269, R275). -/
def releasePower (s : State) : State :=
  let cap := s.power.capAlert && decide (s.power.metRun < 100)
  let pin := match s.power.pinchAlert with
    | some t => if s.nowUs < t + 1000000 then some t else none
    | none => none
  let s1 := modPower s (fun w => { w with capAlert := cap, pinchAlert := pin })
  if (s.power.capAlert || s.power.pinchAlert.isSome) && !cap && pin.isNone then clearCause s1 .power else s1

/-- A snapshot none of whose named flows has been open for FLOW_TIMEOUT fails (R318). -/
def snapWatch (s : State) : State :=
  match s.snap.snap with
  | none => { s with snap := { s.snap with starvedAt := none } }
  | some n =>
    if (snapFlows s n).isEmpty then
      match s.snap.starvedAt with
      | none => { s with snap := { s.snap with starvedAt := some s.nowUs } }
      | some t => if t + 1000 * setting s 0x139 0 ≤ s.nowUs then tryEndJob (failSnapshot s 3) else s
    else { s with snap := { s.snap with starvedAt := none } }

/-- The power window (R261, R262, R268): the end of a 100 µs window with mean input power `p` in 0.1 W, core
power in 0.1 W, input voltage in 10 mV and VCORE in 0.1 mV. The model's time base advances (log entry 8). -/
def powerWindow (p pCore vIn vCore : Nat) (s : State) : Out :=
  if s.pins.v72 then
    .next (snapWatch (openWindow (releasePower (heatWatch
      { s with
        nowUs := s.nowUs + 100
        power := capWindow s p pCore vIn vCore
        therm := meanWindow s.therm p
        job := { s.job with
          energy := if s.job.counting then s.job.energy + p else s.job.energy
          stepCapped := if 0 < dutyOf s then s.job.stepCapped + 1 else s.job.stepCapped } }))))
  else noEvent s

/-- CAP_UNMET (R269): q has been 63 at the lowest grade for 10 ms, and p still exceeds the limit. -/
def execCapUnmet (s : State) : Out :=
  if 100 ≤ s.power.unmetRun ∧ s.power.lastLimit < s.power.lastP * 1000 then
    .next (setCause (raiseEv (modPower s (fun w => { w with capUnmet := true, capAlert := true }))
      srcThimble .capUnmet [s.power.lastP, s.power.lastLimit / 1000]) .power)
  else noEvent s

end Sys2Proof.Machine
end

