-- ==== Sys2Proof/Machine/Rails.lean ====
section
/-! DEFINITION. What the loss of the compute rails, a reset and the loss of 72 V take away (R204, R285,
R327, R331, R350, R378, R382, R385, R386, R389). -/

namespace Sys2Proof.Machine

open Sys2Proof.Config

/-- What of a memory unit's status is kept in flash: the spares, the lifetime totals and whether the
training values are good (R201, R203, R205). -/
def flashUnit (u : MemUnit) : MemUnit := { sparesUsed := u.sparesUsed, life := u.life, trained := u.trained }

/-- The memories without power: contents, stored errors and poison are gone; the repair list and the
lifetime totals are in flash (R202, R203). -/
def memoryOff (h : MemHealth) : MemHealth :=
  { units := h.units.map (fun e => (e.1, flashUnit e.2)), repairs := h.repairs, training := h.training }

/-- Whether a job is lost when the rails go (R331, R385, R386): loaded, or not yet cleared. -/
def losesJob (s : State) : Bool := jobLoaded s || s.dev.st == .running || s.dev.st == .filling

/-- The compute rails go off (R285, R382, R385, R386): the compute die and the LPDDR5X devices lose
everything, links and sessions included; what the state blocks of earlier snapshots mean stays known (R298); a drain in progress resumes later (R327). -/
def computeOff (s : State) : State :=
  { s with
    mem := [], health := memoryOff s.health, job := { energy := s.job.energy }, load := none, base := none, shut := {}
    panels := [], hubs := [], fence := {}, ports := [], coll := {}
    host := { s.host with
      ports := s.host.ports.map (fun e => (e.1, { e.2 with up := false, paused := 0 }))
      flows := [], sessions := [], half := [], slots := [] }
    snap := { (endHold s []).snap with snap := none, guarded := [], rest := none, filling := none }
    power := { s.power with grade := 1, vset := 0, switching := none, stay := none, quiet := true }
    dev := { s.dev with work := .none, lostJob := s.dev.lostJob || losesJob s
                        resumed := s.dev.resumed || s.dev.st == .draining
                        retain := false, fromFill := false, hibSpare := false, scanDue := false, signDue := false }
    pins := { s.pins with rails := [], lowPower := false, pwrGood := false, upAt := none, trainedAt := none } }

/-- A trial image that has run does not run again after a reset: the selector returns to the previous
slot and TRIAL is clear (R378). -/
def trialBack (f : Firmware) : Firmware :=
  if f.trial && f.running == some f.active then
    { f with active := 1 - f.active, trial := false, fallback := true, running := none, image := none, recovery := false
             received := 0, recBuf := [], answer := none }
  else { f with running := none, image := none, recovery := false, received := 0, recBuf := [], answer := none }

/-- V_USER of every grade from the committed settings (R263, R350). -/
def userVolts (settings : Tab SetVal) : Tab Nat :=
  (List.range 9).filterMap (fun g => (tabFind settings (settingKey 0x146 g)).map (fun v => (g, v.value)))

/-- θ_est at power-on: THETA_NOM as committed in flash (R288, R294, R350). -/
def thetaStart (settings : Tab SetVal) : Rat :=
  ((match tabFind settings (settingKey 0x150 0) with | some v => v.value | none => settingReset 0x150) : Rat) / 10000

/-- The budget in force is the fallback (R265). -/
def noBudget (w : Power) : Power :=
  { w with seq := 0, soft := 5600, hard := 8000, hold := 0, next := none, fallback := true, accepted := none }

/-- Both cores of the Thimble restart from ROM (R11, R322, R346, R350): mailboxes, set-ups and the transaction are gone,
settings take their flash copies or their Reset values, and budgets, reports and readings their Reset values; counters
that run from power-on and the records in the Thimble's log stay (log entries 6 and 62). -/
def coresReset (s : State) : State :=
  let st := s.mgmt.flash
  { s with
    fw := trialBack s.fw
    mgmt := { s.mgmt with
      boxes := [], rings := [], txn := { number := s.mgmt.txn.number }, settings := st, causes := 0
      notes := s.mgmt.notes.map (fun e => (e.1, { e.2 with watcher := none })) }
    power := noBudget { s.power with vUser := userVolts st }
    therm := { suspects := s.therm.suspects, trip := s.therm.trip, lastAlarm := s.therm.lastAlarm
               throttleWindows := s.therm.throttleWindows, forcedG1 := s.therm.forcedG1
               skewEvents := s.therm.skewEvents, theta := thetaStart st }
    snap := { s.snap with failed := false }
    host := { s.host with half := [] }
    pins := { s.pins with alert := false, verified := false, driven := false } }

/-- The Thimble restarts as the compute rails are off (R385, R386): power, the host ports and the pins begin anew. -/
def thimbleReset (s : State) : State :=
  let t := coresReset s
  { t with
    power := { lifetime := s.power.lifetime, vUser := userVolts s.mgmt.flash }
    host := { t.host with ports := s.host.ports.map (fun e => (e.1, { stat := e.2.stat })) }
    pins := { t.pins with tripped := false, startup := 1 } }

/-- What survives without 72 V (R18, R201 to R203, R262, R283, R285, R321, R327, R329, R350, R364, R370, R376):
the flash, the fuses and the levels of the pins that the tray drives. -/
def powerLost (s : State) : State :=
  let f := trialBack s.fw
  { State.reset with
    pending := s.pending, free := s.free, nowUs := s.nowUs
    health := memoryOff s.health
    fw := f
    mgmt := { flash := s.mgmt.flash, settings := s.mgmt.flash }
    power := { lifetime := s.power.lifetime, vUser := userVolts s.mgmt.flash }
    therm := { suspects := s.therm.suspects, trip := s.therm.trip, theta := thetaStart s.mgmt.flash }
    dev := { suspect := s.dev.suspect, replace := s.dev.replace, replaceFull := s.dev.replaceFull, service := s.dev.service
             lostJob := s.dev.lostJob || losesJob s
             drain := s.dev.drain, resumed := s.dev.resumed || s.dev.st == .draining
             scanA := s.dev.scanA, scanB := s.dev.scanB
             drainReplace := s.dev.drainReplace, drains := s.dev.drains, drainSeq := s.dev.drainSeq
             clears := s.dev.clears, clearSeq := s.dev.clearSeq }
    snap := { blocks := s.snap.blocks }
    pins := { latch := s.pins.latch, pwrEn := s.pins.pwrEn, resetLow := s.pins.resetLow, presentN := s.pins.presentN
              straps := s.pins.straps, sbRx := s.pins.sbRx, tck := s.pins.tck, tms := s.pins.tms, tdi := s.pins.tdi } }

end Sys2Proof.Machine
end

