-- ==== Sys2Proof/Machine/Thermal.lean ====
section
/-! DEFINITION. Heat, sensors and cooling: the sensor sample with throttle, maximum, trip and slope
(R281, R282, R284, R285, R291), skewed pairs (R283), thermal resistance (R288, R290) and stale reports
(R287). -/

namespace Sys2Proof.Machine

open Sys2Proof.Config

def modTherm (s : State) (f : Thermal → Thermal) : State := { s with therm := f s.therm }

/-! ### Readings (R281, R282, R351) -/

/-- The trimmed reading: raw value, factory offset and SENSOR_TRIM (R351); a sensor that fails its check
or reads outside −20 to 150 °C is failed (R281). -/
def trimmed (s : State) (r : SensorRead) : Option Int :=
  let v := r.value + sensorOffset r.sensor + toSigned (setting s 0x155 r.sensor)
  if r.ok && decide (-200 ≤ v) && decide (v ≤ 1500) then some v else none

/-- The sensors after a sample; a sensor that the sample does not list keeps its last reading. -/
def takeReadings (s : State) (rs : List SensorRead) : Tab (Option Int) :=
  rs.foldl (fun t r => tabPut t r.sensor (trimmed s r)) s.therm.sensors

/-- A pair governed under the second sentence of R282: suspect, or a sensor of it failed (R283). -/
def pairBad (t : Thermal) (p : Nat) : Bool :=
  t.suspects.contains p || tabFind t.sensors (2 * p) == some none || tabFind t.sensors (2 * p + 1) == some none

/-- The higher of T-A and T-B of a panel whose pair is good; none where neither has been read. -/
def pairReading (t : Thermal) (p : Nat) : Option Int :=
  match tabGet none t.sensors (2 * p), tabGet none t.sensors (2 * p + 1) with
  | some a, some b => some (max a b)
  | some a, none => some a
  | none, b => b

def maxOf : List Int → Option Int
  | [] => none
  | x :: xs => match maxOf xs with | none => some x | some y => some (max x y)

/-- The governing reading of a panel (R282). -/
def governing (t : Thermal) (p : Nat) : Option Int :=
  if pairBad t p then
    match tabGet none t.sensors (512 + p / 16) with
    | some h => some (h + 100)
    | none =>
      match maxOf (((List.range 16).filter (fun k => 16 * (p / 16) + k != p && !(pairBad t (16 * (p / 16) + k)))).filterMap
          (fun k => pairReading t (16 * (p / 16) + k))) with
      | some v => some (v + 100)
      | none => some 1050
  else pairReading t p

/-- T_j and the panel that sets it, the lowest of equals; none while no panel has been read. -/
def junction (t : Thermal) : Option (Int × Nat) :=
  allPanels.foldl (fun b p =>
    match governing t p, b with
    | some v, some (w, q) => if w < v then some (v, p) else some (w, q)
    | some v, none => some (v, p)
    | none, b => b) none

/-! ### Slope and steady power (R291) -/

/-- Sums for the least-squares slope of samples, oldest first: n, Σx, Σy, Σxy, Σx². -/
def slopeSums : Nat → List Int → Int × Int × Int × Int
  | _, [] => (0, 0, 0, 0)
  | i, y :: ys =>
    let r := slopeSums (i + 1) ys
    (r.1 + i, r.2.1 + y, r.2.2.1 + i * y, r.2.2.2 + i * i)

/-- The slope as a fraction in 0.1 °C per sample of 100 µs; none before 200 ms of samples. -/
def slopeOf (history : List Int) : Option (Int × Int) :=
  if history.length < 2000 then none
  else
    let ys := (history.take 2000).reverse
    let r := slopeSums 0 ys
    some (2000 * r.2.2.1 - r.1 * r.2.1, 2000 * r.2.2.2 - r.1 * r.1)

/-- The slope exceeds v / 10 °C/s: 0.1 °C per 100 µs is 1,000 °C/s. -/
def slopeAbove (history : List Int) (v : Int) : Bool :=
  match slopeOf history with
  | none => false
  | some (n, d) => decide (v * d < 10000 * n)

/-- Each of the last ten 100 ms means lies within ±5 % of the mean of the ten. -/
def powerSteady (t : Thermal) : Bool :=
  let sum := t.means.foldl (· + ·) 0
  t.means.length == 10 && t.means.all (fun m => decide (20 * (10 * m - sum) ≤ sum) && decide (20 * (sum - 10 * m) ≤ sum))

/-! ### The forced state (R291, R297) -/

/-- The G1 clock, at once: a deferred switch is cancelled. -/
def forceG1 (s : State) : State :=
  if s.power.grade = 1 then
    (if s.power.switching.isSome then modPower s (fun w => { w with switching := none, vset := vSet s 1 }) else s)
  else switchClock (modPower s (fun w => { w with switching := none })) 1

/-- Entry into the forced state; its event is `e`. -/
def enterForced (s : State) (e : Option Ev) : State :=
  if s.therm.forced then s
  else
    let s1 := match e with | some c => raiseEv s srcThimble c [] | none => s
    let s2 := { s1 with
      therm := { s1.therm with forced := true, forcedG1 := sat32 (s1.therm.forcedG1 + 1), lastAlarm := some s.nowUs, coolSince := none }
      job := { s1.job with stepForced := s1.job.stepForced || !s1.coll.runs.isEmpty } }
    forceG1 (exitFixed (modPower (setCause s2 .thermal) (fun w => { w with stay := none })) 1)

/-! ### Trip (R285) -/

/-- A trip that no COOL_ALARM, FLOW_LOSS or THERM_MAX preceded within 60 s. -/
def unexplained (s : State) : Bool :=
  match s.therm.lastAlarm with
  | some t => decide (t + 60000000 < s.nowUs)
  | none => true

/-- A fill in progress fails (R317, R332). -/
def failFill (s : State) (cause : Nat) : State :=
  if s.snap.filling.isSome then
    { raiseEv s srcThimble .fillFailed [cause] with snap := { s.snap with filling := none } }
  else s

/-- The trip of R285: THERM_TRIP_N with ALERT_N (R296), the shuttle stops, the snapshot or fill fails, a cause of R321 if
no cooling event preceded, poison, the record, the compute rails go off, SAFE. -/
def tripDevice (s : State) (cause5 : Bool) (panel : Nat) (reading : Int) : State :=
  let s1 := failFill (failSnapshot (setCause { s with
    pins := { s.pins with tripped := true }, shut := { s.shut with stopped := true } } .thermal) 1) 5
  let s2 := goState { s1 with dev := { s1.dev with resumed := s1.dev.resumed || s.dev.st == .draining
                                                   lostJob := s1.dev.lostJob || losesJob s } } .safe
  let s3 := if cause5 then recordSuspect s2 5 panel 0xFFFFFFFF else s2
  let s4 := sendPoison s3 5
  let t := s.therm
  let s5 := raiseEv s4 srcThimble .thermTrip [panel, (reading % 2 ^ 32).toNat, t.seq, t.tIn, t.tOut, t.flow]
  computeOff (modTherm s5 (fun u => { u with trip := some (panel, reading, [t.seq, t.tIn, t.tOut, t.flow]) }))

/-! ### The sample (R284, R291) -/

/-- The throttle rows of R284. -/
def throttle (s : State) (tj : Int) : State :=
  if 950 ≤ tj then
    let s1 := if s.therm.q = 0 then raiseEv s srcThimble .thermThrottle [] else s
    modTherm (setCause s1 .thermal) (fun t => { t with q := min 63 (t.q + 4) })
  else if tj < 930 then
    let s1 := modTherm s (fun t => { t with q := t.q - 1 })
    if s.therm.q = 1 && !s.therm.forced then clearCause s1 .thermal else s1
  else s

/-- The maximum row of R284: THERM_MAX as T_j reaches 105 °C. -/
def maximum (s : State) (before tj : Int) : State :=
  if 1050 ≤ tj then
    let s1 := if before < 1050 then
        modTherm (raiseEv s srcThimble .thermMax []) (fun t => { t with lastAlarm := some s.nowUs }) else s
    enterForced (modTherm s1 (fun t => { t with q := 63 })) none
  else s

/-- What the throttle, maximum and slope rows do on a sample. -/
def sampleActs (s : State) (before tj : Int) : State :=
  let s1 := maximum (throttle s tj) before tj
  let s2 := if slopeAbove s1.therm.history 50 && powerSteady s1.therm then enterForced s1 (some .flowLoss) else s1
  modTherm s2 (fun t => { t with throttleWindows := if 0 < t.q then sat32 (t.throttleWindows + 1) else t.throttleWindows })

/-- The difference of a pair with both sensors working (R283), 0.1 °C. -/
def pairDiff (t : Thermal) (p : Nat) : Option Nat :=
  match tabGet none t.sensors (2 * p), tabGet none t.sensors (2 * p + 1) with
  | some a, some b => some (a - b).natAbs
  | _, _ => none

/-- The watch over a pair after a sample: a second at or below 6 °C rearms SENSOR_SKEW (R283). -/
def nextWatch (now : Nat) (w : SkewWatch) : Option Nat → SkewWatch
  | none => { w with high := none, wide := none, low := none }
  | some d =>
    if 60 < d then
      { w with high := some (w.high.getD now), wide := if 150 < d then some (w.wide.getD now) else none, low := none }
    else
      let since := w.low.getD now
      { high := none, wide := none, low := some since, told := w.told && decide (now < since + secondUs) }

/-- The pairs of which a sample reads a sensor are watched. -/
def watchPairs (s : State) (rs : List SensorRead) : State :=
  let ps := ((rs.map (fun r => r.sensor / 2)).filter (fun p => decide (p < panels))).eraseDups
  modTherm s (fun t => { t with
    skews := ps.foldl (fun k p => tabPut k p (nextWatch s.nowUs (tabGet {} k p) (pairDiff t p))) t.skews })

/-- A sample of T_j: the slope's history, the second's mean, and how long T_j has stayed below 85 °C without rising
(R288, R291). -/
def takeJunction (now : Nat) (t : Thermal) (tj : Int) (p : Nat) : Thermal :=
  let h := (tj :: t.history).take 2000
  { t with tj := tj, tjPanel := p, history := h, tjSum := t.tjSum + tj, tjN := t.tjN + 1
           coolSince := if 850 ≤ tj ∨ slopeAbove h 5 = true then none else some (t.coolSince.getD now) }

/-- SENSOR_SAMPLE (R260, R281 to R285, R291): while the housekeeping rail feeds sensors and Thimble. A device that has
tripped stays as it is. -/
def execSensorSample (rs : List SensorRead) (s : State) : Out :=
  if s.pins.v72 && !s.pins.resetLow then
    let s1 := watchPairs (modTherm s (fun t => { t with sensors := takeReadings s rs })) rs
    match junction s1.therm with
    | none => .next s1
    | some (tj, p) =>
      let s2 := sampleActs (modTherm s1 (fun t => takeJunction s.nowUs t tj p)) s.therm.tj tj
      if decide (1150 ≤ tj) && !s.pins.tripped then .next (tripDevice s2 (unexplained s) p tj) else .next s2
  else noEvent s

/-! ### Skewed and suspect pairs (R283) -/

/-- A time has lasted more than 1 s. -/
def pastSecond (now : Nat) (since : Option Nat) : Bool := since.any (fun t => decide (t + secondUs < now))

/-- SENSOR_SKEW (R283): d has been above 6 °C without a break for more than 1 s; again only once it is rearmed. -/
def execSensorSkew (panel : Nat) (s : State) : Out :=
  let w := tabGet {} s.therm.skews panel
  match tabGet none s.therm.sensors (2 * panel), tabGet none s.therm.sensors (2 * panel + 1) with
  | some a, some b =>
    if pastSecond s.nowUs w.high && !w.told then
      .next (modTherm (raiseEv s srcThimble .sensorSkew [panel, (a % 2 ^ 32).toNat, (b % 2 ^ 32).toNat])
        (fun t => { t with skew := true, skewEvents := sat32 (t.skewEvents + 1), skews := tabPut t.skews panel { w with told := true } }))
    else noEvent s
  | _, _ => noEvent s

/-- Whether a pair becomes suspect: more than 15 °C apart without a break for more than 1 s, or a sensor failed (R283). -/
def suspectPair (now : Nat) (t : Thermal) (p : Nat) : Bool :=
  tabFind t.sensors (2 * p) == some none || tabFind t.sensors (2 * p + 1) == some none ||
    pastSecond now (tabGet {} t.skews p).wide

/-- SENSOR_SUSPECT (R283): the pair becomes suspect in flash, with event, alert and service flag. -/
def execSensorSuspect (panel : Nat) (s : State) : Out :=
  if suspectPair s.nowUs s.therm panel && !(s.therm.suspects.contains panel) then
    let s1 := setCause (raiseEv s srcThimble .sensorSuspect []) .sensor
    .next { s1 with therm := { s1.therm with suspects := s1.therm.suspects ++ [panel] }
                    dev := { s1.dev with service := true } }
  else noEvent s

/-! ### The end of the forced state (R291) -/

/-- FORCED_STATE_END (R291): T_j has stayed below 85 °C for ten seconds without rising. -/
def execForcedStateEnd (s : State) : Out :=
  if s.therm.forced && s.therm.coolSince.any (fun t => decide (t + 10 * secondUs ≤ s.nowUs)) then
    let s1 := modTherm s (fun t => { t with forced := false })
    .next (if s.therm.q = 0 then clearCause s1 .thermal else s1)
  else noEvent s

/-! ### Thermal resistance (R288, R290) -/

def thetaWarn (s : State) : Rat := (setting s 0x152 0 : Rat) / 100 * thetaNom s
def thetaAlarm (s : State) : Rat := (setting s 0x153 0 : Rat) / 100 * thetaNom s

/-- COOL_WARN and COOL_ALARM, each again only after θ_est fell below 0.95 of its threshold (R290). -/
def coolWatch (s : State) : State :=
  let th := s.therm.theta
  let warnNow := !s.therm.warned && decide (thetaWarn s < th)
  let alarmNow := !s.therm.alarmed && decide (thetaAlarm s < th)
  let s1 := if warnNow then raiseEv s srcThimble .coolWarn [] else s
  let s2 := if alarmNow then setCause (raiseEv s1 srcThimble .coolAlarm []) .cooling else s1
  modTherm s2 (fun t => { t with
    warned := if warnNow then true else t.warned && !(decide (th < (95 : Rat) / 100 * thetaWarn s))
    alarmed := if alarmNow then true else t.alarmed && !(decide (th < (95 : Rat) / 100 * thetaAlarm s))
    lastAlarm := if alarmNow then some s.nowUs else t.lastAlarm })

/-- The mean input power of the last ten 100 ms means, in 0.1 W (R288). -/
def secondPower (t : Thermal) : Rat := ((t.means.foldl (· + ·) 0 : Nat) : Rat) / 10

/-- θ_inst of the second that ends: the means of T_j and of the input power, and T_IN (R288). -/
def thetaInst (t : Thermal) : Rat :=
  ((t.tjSum : Rat) / (t.tjN : Rat) / 10 - (t.tIn : Rat) / 100) / (secondPower t / 10)

/-- Whether a second forms θ_inst: a fresh report, 150 W at least, every 100 ms mean within ±5 % (R288). -/
def thetaForms (t : Thermal) : Bool :=
  t.fresh && decide (1500 ≤ secondPower t) && powerSteady t && decide (0 < t.tjN)

/-- THETA_UPDATE (R288): the end of a second. The device forms the second's means from its own windows and samples; the
command's operands say nothing more (log entry 59). -/
def execThetaUpdate (_pMean : Nat) (_tjMean : Int) (_steady : Bool) (s : State) : Out :=
  if s.pins.v72 && !s.pins.resetLow then
    let next := fun (t : Thermal) => { t with tjSum := 0, tjN := 0 }
    if thetaForms s.therm then
      .next (coolWatch (modTherm s (fun t => next { t with theta := t.theta + (thetaInst t - t.theta) / 60 })))
    else .next (modTherm s next)
  else noEvent s

/-! ### Reports (R287) -/

/-- COOL_LEASE has passed since the acceptance of the report in force (R287, R294). -/
def reportOld (s : State) : Bool := s.therm.accepted.any (fun t => decide (t + setting s 0x154 0 * secondUs ≤ s.nowUs))

/-- COOL_STALE (R287): the lease of the report in force has passed. -/
def execCoolStale (s : State) : Out :=
  if s.therm.fresh && reportOld s then
    .next (setCause (raiseEv (modTherm s (fun t => { t with fresh := false })) srcThimble .coolStale []) .cooling)
  else noEvent s

/-- COOL_REPORT_SKEW (R287): T_OUT and FLOW are reported and their heat has differed from the input power by more than 30 %
for 60 s; once for each such time. The event only informs. -/
def execCoolReportSkew (s : State) : Out :=
  if s.therm.skewSince.any (fun t => decide (t + 60 * secondUs ≤ s.nowUs)) && !s.therm.skewTold then
    .next (raiseEv (modTherm s (fun t => { t with skewTold := true })) srcThimble .coolReportSkew [])
  else noEvent s

end Sys2Proof.Machine
end

