-- ==== Sys2Proof/Machine/Snap.lean ====
section
/-! DEFINITION. The snapshot engine: page copies, held writes, acknowledged chunks, the end of a snapshot (R302 to R304,
R318, R319). -/

namespace Sys2Proof.Machine

open Sys2Proof.Config

/-! ### The end of a snapshot (R304) -/

/-- Whether a packet carries a piece of chunk j (or of the manifest). -/
def carriesPiece (n : Snap) (j : Nat) (t : TxPkt) : Bool :=
  match t.kind with
  | .chunk k _ _ => k == j
  | .manifest _ _ => j == n.chunks.length
  | _ => false

/-- Every piece of j has been acknowledged. -/
def pieceAcked (s : State) (n : Snap) (j : Nat) : Bool :=
  !(n.unsent.any (fun u => u.1 == j)) &&
  !(s.host.flows.any (fun e => e.2.kind == .snapshot && e.2.out.any (carriesPiece n j)))

/-- Chunks whose every packet is acknowledged free their staging space (R304). -/
def ackChunks (s : State) : State :=
  match s.snap.snap, s.job.pkg with
  | some n, some p =>
    let done := ((n.chunks.zipIdx).filter (fun e => e.1.st == 1 && pieceAcked s n e.2)).map (fun e => e.2)
    let cs := done.foldl (fun u j => setChunk u j (fun c => { c with st := 2 })) n.chunks
    let live := (cs.filter (fun c => c.st != 2)).flatMap (chunkPages p n)
    let s1 := modSnap s (fun m => { m with chunks := cs, staged := m.staged.filter (fun e => live.contains e.1) })
    { s1 with snap := { s1.snap with chunksSent := sat32 (s1.snap.chunksSent + done.length) } }
  | _, _ => s

/-- The manifest goes out once every chunk is acknowledged; its acknowledgement completes the snapshot
(R304), and the job that waited for it ends (R319). -/
def finishSnap (s : State) : State :=
  match s.snap.snap, s.job.pkg with
  | some n, some p =>
    if n.captured && n.chunks.all (fun c => c.st == 2) then
      if n.manifest = 0 then
        pumpSnap (modSnap s (fun m => { m with manifest := 1
                                               unsent := m.unsent ++ [(n.chunks.length, 0, roundUp (manifestBytes s p n).length 64)] }))
      else if pieceAcked s n n.chunks.length then
        tryEndJob (raiseEv (releaseAll { s with snap := { s.snap with snap := none, guarded := [] } }) srcHostEdge
          .snapshotDone [n.id, n.step])
      else s
    else s
  | _, _ => s

/-- What acknowledgements complete of a snapshot. -/
def snapAcks (s : State) : State := finishSnap (ackChunks s)

/-! ### Page copies (R302, R303) -/

/-- A held write still meets a protected page. -/
def meetsGuard (s : State) (w : HeldWrite) : Bool :=
  anyLine w.addr w.bytes.length (fun x => s.snap.guarded.contains (pageOf x))

/-- Held writes whose pages are copied proceed, oldest first (R303). -/
def releaseWrites (s : State) : State :=
  let go := s.snap.heldWrites.filter (fun w => !(meetsGuard s w))
  go.foldl (fun t w => rawWrite t w.addr w.bytes) (endHold s (s.snap.heldWrites.filter (meetsGuard s)))

/-- A page a held write waits for. -/
def pageWanted (s : State) (g : Nat) : Bool :=
  s.snap.heldWrites.any (fun w => anyLine w.addr w.bytes.length (fun x => pageOf x == g))

/-- The protected page that is copied next: one that a held write waits for, ahead of copy order (R302, R303). -/
def nextPage (s : State) : Option Nat :=
  match s.snap.guarded.find? (pageWanted s) with
  | some g => some g
  | none => s.snap.guarded.head?

/-- The bytes of a page. -/
def pageMem (m : Mem) (g : Nat) : Mem := m.filter (fun c => pageOf c.1 == g)

/-- Lines of a page read uncorrectably. -/
def pageBad (s : State) (g : Nat) : Bool := (linesOf (0x10000 * g) 0x10000).any (fun l => (lineRead s l).2.isNone)

/-- The channel in whose snapshot share a page is staged: its own, or the one that panel p's extension share lies in
(R123, R193, R302; DESIGN CHOICE for bolt pages, log entry 48). -/
def stageChannel (g : Nat) : Nat :=
  let u := unitOf (0x10000 * g)
  if u.2 then u.1 / 2 else u.1

/-- The first free 64 KiB of a channel's snapshot share; none where the share is full (R302, R308). -/
def stageSlot (s : State) (n : Snap) (c : Nat) : Option Nat :=
  ((List.range (snapShareBytes s / 0x10000)).map (fun i => stagingStart s c + spoolExtBytes s + 0x10000 * i)).find?
    (fun a => !(n.staged.any (fun e => e.2 == a)))

/-- Copy a page into the staging window; the lines there are encoded again (R302). -/
def stagePage (s : State) (g a : Nat) : State :=
  let src := pageMem (decodedMem s) g
  { s with mem := src.foldl (fun m c => memSet m (a + c.1 % 0x10000) c.2) (memErase s.mem a 0x10000)
           health := if memClean s then s.health else cleanLines s.health (linesOf a 0x10000) }

/-- Digest and send the chunks whose pages are all staged; the engine reads them through the decoder (R209, R304). -/
def sendStaged (s : State) : State :=
  match s.snap.snap, s.job.pkg with
  | some n, some p =>
    let ps := (((readyChunks s n p).filterMap (fun j => n.chunks[j]?)).flatMap (chunkPages p n)).map (fun g => tabGet 0 n.staged g)
    (match ps.find? (fun a => pageBad s (pageOf a)) with
    | some a => touchStored (failSnapshot s 0) a 0x10000
    | none => sendReady (ps.foldl (fun t a => touchStored t a 0x10000) s))
  | _, _ => s

/-- SNAPSHOT_PAGE_COPY (R302, R303, R304, R209): the next page in copy order, or the one that a held write waits for, is
copied into the share of its channel, where 64 KiB are free; its protection ends. -/
def execSnapshotPageCopy (page : Nat) (s : State) : Out :=
  match s.snap.snap with
  | none => noEvent s
  | some n =>
    match (if nextPage s = some page then stageSlot s n (stageChannel page) else none) with
    | none => noEvent s
    | some a =>
      if pageBad s page then .next (touchStored (failSnapshot s 0) (0x10000 * page) 0x10000)
      else
        let inOrder := s.snap.guarded.head? == some page
        let s1 := modSnap (stagePage (touchStored s (0x10000 * page) 0x10000) page a)
          (fun m => { m with staged := tabPut m.staged page a })
        let s2 := { s1 with snap := { s1.snap with
          guarded := s1.snap.guarded.filter (fun g => g != page)
          pages := sat32 (s1.snap.pages + 1)
          promoted := if inOrder then s1.snap.promoted else sat32 (s1.snap.promoted + 1) } }
        .next (returnCredits (sendStaged (releaseWrites s2)))

end Sys2Proof.Machine
end

