-- ==== Sys2Proof/Machine/Settings.lean ====
section
/-! DEFINITION. The commit point of a configuration transaction (R346 to R352). -/

namespace Sys2Proof.Machine

open Sys2Proof.Config

/-- Settings kept in flash (R350). -/
def persistent (id : Nat) : Bool :=
  (decide (0x130 ≤ id) && decide (id ≤ 0x137)) || id == 0x146 || id == 0x155 || id == 0x150 || id == 0x160

/-- Store one entry: an all-zero IP_ADDR removes the address (R349). -/
def storeEntry (t : Tab SetVal) (e : TxnEntry) : Tab SetVal :=
  if e.id = 0x137 ∧ e.value = 0 ∧ e.ext = 0 then tabErase t (settingKey e.id e.index)
  else tabPut t (settingKey e.id e.index) ⟨e.value, e.pfx, e.ext⟩

def storeEntries (t : Tab SetVal) (es : List TxnEntry) : Tab SetVal := es.foldl storeEntry t

/-- Some staged entry has an ID. -/
def stages (es : List TxnEntry) (id : Nat) : Bool := es.any (fun e => e.id == id)

/-- The spool demand that a package declares: the largest SPOOL_NEED of its variants, in bytes (R131, R178). -/
def declaredDemand (p : Package) : Nat := 0x10000 * (p.variants.map Variant.spoolNeed).foldl max 0

/-- SPOOL_SHORT (R131): a commit that shrinks the extension share below the package's declared demand; `before`
is the share it had. -/
def spoolShort (s : State) (before : Nat) : State :=
  match s.job.pkg with
  | none => s
  | some p =>
    if extBytes s < before ∧ extBytes s < declaredDemand p then raiseEv s srcThimble .spoolShort [] else s

/-- V_USER committed with no job loaded takes effect at once (R271). -/
def voltsCommitted (s : State) (es : List TxnEntry) : State :=
  if stages es 0x146 && !(jobLoaded s) then
    let t := modPower s (fun w => { w with vUser := userVolts s.mgmt.settings })
    if railsUp s then modPower t (fun w => { w with vset := vSet t t.power.grade }) else t
  else s

/-- A commit of FIXED = 1 (R273, R274). -/
def fixedCommitted (s : State) (es : List TxnEntry) : State :=
  if es.any (fun e => e.id == 0x144 && e.value == 1) then modPower s (fun w => { w with fixedNew := true }) else s

/-- Another partition of the staging window is staged for the next step (R130, R193). -/
def windowCommitted (s : State) (moved : Bool) : State :=
  if moved then { s with job := { s.job with staged := true } } else s

/-- The cooling limits are judged anew (R287 to R290). -/
def coolCommitted (s : State) (es : List TxnEntry) : State :=
  if stages es 0x150 || stages es 0x152 || stages es 0x153 then coolWatch s else s

/-- Priorities no longer under PFC are let go (R239). -/
def pfcCommitted (s : State) (es : List TxnEntry) : State :=
  if stages es 0x134 || stages es 0x135 then obeyPfc (obeyPfc s 0) 1 else s

/-- What a commit does beside storing: V_USER at once without a job (R271), a new FIXED = 1 (R274), the
staging partition (R130), ALERT_MASK (R358), EXTEST (R352), the thresholds of R290, the priorities under PFC (R239). -/
def settingEffects (s : State) (es : List TxnEntry) (moved : Bool) : State :=
  let t := pfcCommitted (coolCommitted (windowCommitted (fixedCommitted (voltsCommitted s es) es) moved) es) es
  driveAlert { t with pins := { t.pins with driven := t.pins.driven && decide (setting t 0x172 0 = 1) } }

/-- A commit changes the staging window's partition: another STAGING_SIZE or SPOOL_EXT (R130, R193). -/
def partitionMoves (s : State) (es : List TxnEntry) : Bool :=
  es.any (fun e => (e.id == 0x120 || e.id == 0x121) && e.value != setting s e.id 0)

/-- Apply a pending commit and reply OK (R346, R348). -/
def applyCommit (s : State) : State :=
  if s.mgmt.txn.st == .pending then
    let es := s.mgmt.txn.staged
    let s1 := { s with mgmt := { s.mgmt with
      settings := storeEntries s.mgmt.settings es
      flash := storeEntries s.mgmt.flash (es.filter (fun e => persistent e.id))
      txn := { number := s.mgmt.txn.number } } }
    let s2 := spoolShort (settingEffects s1 es (partitionMoves s es)) (extBytes s)
    let m := s.mgmt.txn.mailbox
    if (boxOf s2 m).waits == some .commit then replyOk s2 m [] else s2
  else s

/-- A commit that changes the staging window waits for the end of a snapshot (R319, R348). -/
def commitBlocked (s : State) : Bool :=
  s.snap.snap.isSome && (stages s.mgmt.txn.staged 0x120 || stages s.mgmt.txn.staged 0x121)

/-- The step in hand has been abandoned or poisoned, and has not opened again (R162, R363). -/
def poisoned (s : State) : Bool := s.fence.abandoned || !s.fence.poisons.isEmpty

/-- A commit point outside a STEP_CLOSE: no job, a held job, or a poisoned step (R348, R363). -/
def atCommitPoint (s : State) : Bool :=
  (!(jobLoaded s) || s.job.held || poisoned s) && !(commitBlocked s)

/-- TXN_COMMIT_POINT (R348, R363). -/
def execTxnCommitPoint (s : State) : Out :=
  if s.mgmt.txn.st == .pending && atCommitPoint s then .next (applyCommit s) else noEvent s

end Sys2Proof.Machine
end

