-- ==== Sys2Proof/Machine/Shuttle.lean ====
section
/-! DEFINITION. The shuttle: stitch flow, MICRO, SYNC, marks, idle stitches, grade points with their
variant switches, the opening and closing of a step (R74, R144 to R147, R165 to R185, R266, R267, R272). -/

namespace Sys2Proof.Machine

open Sys2Proof.Config

def modShut (s : State) (f : Shuttle → Shuttle) : State := { s with shut := f s.shut }

/-! ### Flow (R167, R168, R175) -/

/-- Idle stitches among n program cycles at duty q, from opportunity w of a window of 64 with i idle stitches so far,
and the place in the window that follows (R175). In each window the idle stitches that are still owed take its last
opportunities (DESIGN CHOICE, log entry 67). -/
def idlesWithin (q w i n : Nat) : Nat × Nat × Nat :=
  let need := min (q - i) (64 - w)
  let room := 64 - w - need
  if n ≤ room then (0, (w + n) % 64, if w + n < 64 then i else 0)
  else
    let m := n - room
    let per := 64 - q
    let k := (m - 1) / per
    (need + k * q, (m - k * per) % 64, 0)

/-- A stitch with its GAP cycles has issued at duty q: program cycles, physical cycles, issue opportunities and the
idle stitches among them. -/
def issueStitch (q : Nat) (v : Shuttle) (gap : Nat) : Shuttle :=
  let n := 1 + gap
  let r := idlesWithin q v.window v.windowIdle n
  { v with cycles := sat64 (v.cycles + n), phys := sat64 (v.phys + n + r.1), stitches := sat32 (v.stitches + 1)
           idle := sat32 (v.idle + r.1), window := r.2.1, windowIdle := r.2.2 }

/-- A stitch flow: the stitch issues, and the next address follows. -/
def flowTo (s : State) (gap : Nat) (f : Shuttle → Shuttle) : Out :=
  whenIssuing s (fun _ =>
    let q := dutyOf s % 64
    .next (allPanels.foldl (fun t p => if traceKind t p = 1 then traceAt t p 1 else t)
      (modJob (modShut s (fun v => f (issueStitch q v gap)))
        (fun j => { j with stepIdle := j.stepIdle + (idlesWithin q s.shut.window s.shut.windowIdle (1 + gap)).1 }))))

/-- The address after `a`. -/
def nextAddr (a : Nat) : Nat := (a + 1) % 2 ^ 20

/-- NEXT (R167). -/
def execNext (gap : Nat) (s : State) : Out := flowTo s gap (fun v => { v with addr := nextAddr v.addr })

/-- JUMP (R167). -/
def execJump (arg gap : Nat) (s : State) : Out := flowTo s gap (fun v => { v with addr := arg % 2 ^ 20 })

/-- Set loop counter k. -/
def setCtr (v : Shuttle) (k n : Nat) : Shuttle :=
  { v with ctrs := (List.range 4).map (fun i => if i = k then n else v.ctrs.getD i 0) }

/-- LOOP (R167). -/
def loopStep (v : Shuttle) (ctr arg : Nat) : Shuttle :=
  let n := v.ctrs.getD ctr 0
  if n = 0 then { v with addr := nextAddr v.addr }
  else { setCtr v ctr (n - 1) with addr := if n - 1 = 0 then nextAddr v.addr else arg % 2 ^ 20 }

/-- LOOP (R167). -/
def execLoop (ctr arg gap : Nat) (s : State) : Out := flowTo s gap (fun v => loopStep v (ctr % 4) arg)

/-- SETC (R167). -/
def execSetc (ctr arg gap : Nat) (s : State) : Out :=
  flowTo s gap (fun v => { setCtr v (ctr % 4) (arg % 2 ^ 20) with addr := nextAddr v.addr })

/-- HALT (R167, R185): the job ends. -/
def execHalt (gap : Nat) (s : State) : Out := outThen (flowTo s gap id) (fun t => .next (dueEndJob t))

/-- MICRO_OP 1 (R167). -/
def execMicroSetZero (s : State) : Out := whenIssuing s (fun _ => .next (modShut s (fun v => { v with micro := 0 })))

/-- MICRO_OP 3 (R167). -/
def execMicroSetNone (s : State) : Out := whenIssuing s (fun _ => .next (modShut s (fun v => { v with micro := 0xFFFF })))

/-- MICRO_OP 2 (R74): beyond NMICRO − 1, or from 0xFFFF, the step faults with MICRO_LIMIT. -/
def execMicroAdd (s : State) : Out :=
  whenIssuing s (fun p =>
    if s.shut.micro = 0xFFFF ∨ p.nmicro ≤ s.shut.micro + 1 then .next (jobFault s .microLimit .microLimit [])
    else .next (modShut s (fun v => { v with micro := v.micro + 1 })))

/-- PMARK (R176): a mark passes during a wait of the shuttle. -/
def execPmark (s : State) : Out := whenRunning s (fun _ => .next (injectMark s 2))

/-- IDLE_STITCH (R175): in place of an issue opportunity, under the duty in force; in a wait of the shuttle the duty
acts when issue resumes (R185). With the window's share of idle stitches inserted there is none to insert. -/
def execIdleStitch (s : State) : Out :=
  whenIssuing s (fun _ =>
    if s.shut.windowIdle < dutyOf s then
      .next (modJob (modShut s (fun v => { v with
          idle := sat32 (v.idle + 1), phys := sat64 (v.phys + 1), window := (v.window + 1) % 64
          windowIdle := if v.window + 1 < 64 then v.windowIdle + 1 else 0 }))
        (fun j => { j with stepIdle := j.stepIdle + 1 }))
    else noEvent s)

/-! ### SYNC (R169, R184) -/

/-- Operations of the named queues that have not completed. -/
def syncOpen (s : State) (mask : Nat) : Bool := s.shut.movers.any (fun o => bitOf mask o.queue)

/-- SYNC_RELEASE (R169): the stitch issues once no earlier operation of the named queues is open, after
`phys` cycles of waiting; until then it waits for every queue it has named, and nothing else issues. -/
def execSyncRelease (mask phys : Nat) (s : State) : Out :=
  whenRunning s (fun _ =>
    if streamOn s = false then .fault .noJob
    else if syncOpen s mask || syncOpen s s.shut.syncWait then .next (modShut s (fun v => { v with
      syncWait := mask % 256 ||| v.syncWait, syncTold := v.syncTold && v.syncWait != 0 }))
    else .next (modShut s (fun v => { v with
      syncWait := 0, syncTold := false, syncWaitPhys := sat32 (v.syncWaitPhys + phys), phys := sat64 (v.phys + phys) })))

/-- SYNC_LATE (R184): one event of a SYNC wait, naming the queue and the operation; the wait continues. -/
def execSyncLate (queue op : Nat) (s : State) : Out :=
  if bitOf s.shut.syncWait queue && !s.shut.syncTold && s.shut.movers.any (fun o => o.queue == queue && o.id == op) then
    .next (raiseEv (modShut s (fun v => { v with syncTold := true })) srcShuttle .syncLate [queue, op])
  else noEvent s

/-! ### Grade points (R172, R174, R177 to R179, R220) -/

/-- What a kind permits: 1 GRADE, 2 GRADE_RECIPE, 3 STEP_OPEN, 5 STEP_CLOSE (R177). -/
def permitsRecipe (kind : Nat) : Bool := kind == 2 || kind == 3

/-- A gating entry of the fabric plan (R220, R225): a GATE flit, with which the lanes of both ends change. -/
def applyGate (s : State) (ports : Nat) (wake : Bool) : State :=
  (allPorts.filter (fun q => bitOf ports q && portTrained (portOf s q))).foldl (fun t q => seamSend t q (.gate wake)) s

def applyGates (s : State) (p : Package) (gp : Nat) : State :=
  (p.plan.gates.filter (fun g => g.1 == gp)).foldl (fun t g => applyGate t g.2.1 g.2.2) s

/-- The variants that hold a grade point. -/
def holding (vs : List (Nat × Variant)) (gp : Nat) : List (Nat × Variant) :=
  vs.filter (fun e => (e.2.points.getD gp none).isSome)

/-- A change of the replayed recipe log at this step and point (R159). -/
def replayAt (s : State) (gp : Nat) : Option RecipeLog :=
  s.job.replay.find? (fun e => e.step == s.job.step && e.gp == gp)

/-- The recipe that will be in force (R158, R159, R345). -/
def recipeAt (s : State) (cur : Variant) (kind gp : Nat) : Nat :=
  if permitsRecipe kind then
    (match replayAt s gp with
    | some e => e.recipe
    | none => s.job.wantRecipe.getD cur.recipe)
  else cur.recipe

/-- The ordinary variants whose declared spool demand fits the extension shares (R130). -/
def fitsShare (s : State) (v : Variant) : Bool := decide (0x10000 * v.spoolNeed ≤ extBytes s)

/-- Candidates at a grade point: at a STEP_OPEN the recompute state may change too (R129, R130, R177). A recompute
variant that is wanted comes before a recipe that is wanted, where no variant gives both. -/
def candidates (s : State) (p : Package) (cur : Variant) (kind gp : Nat) : List (Nat × Variant) :=
  let recipe := recipeAt s cur kind gp
  let back := if kind = 3 ∧ cur.recompute = true ∧ s.job.staged = true ∧ s.job.wantRecompute ≠ some true then
      holding ((compiled s p recipe false).filter (fun e => fitsShare s e.2)) gp else []
  let rc := if kind = 3 then s.job.wantRecompute.getD cur.recompute else cur.recompute
  let tries := [back, holding (compiled s p recipe rc) gp, holding (compiled s p cur.recipe rc) gp,
    holding (compiled s p recipe cur.recompute) gp, holding (compiled s p cur.recipe cur.recompute) gp]
  (tries.find? (fun l => !l.isEmpty)).getD []

/-- The tags whose NUMERIC flag a change to a recipe clears: of the change wanted, and of the change replayed. -/
def tagsOf (j : Job) (e : Option RecipeLog) (recipe : Nat) : List Nat :=
  (if j.wantRecipe = some recipe then j.clearTags else []) ++
    (match e with | some r => if r.recipe = recipe then r.tags else [] | none => [])

/-- The recipe log and the NUMERIC flags after a recipe change (R158, R159). -/
def logRecipe (j : Job) (gp recipe : Nat) (tags : List Nat) : Job :=
  { j with log := j.log ++ [⟨j.step, gp, recipe, tags⟩], numeric := j.numeric.filter (fun t => !(tags.contains t)) }

/-- The variant in force becomes variant i (R177, R178). -/
def takeVariant (s : State) (cur : Variant) (gp : Nat) (e : Nat × Variant) : State :=
  let s1 := if e.1 = s.shut.variant then s
    else modJob (modShut s (fun v => { v with
        variant := e.1, switches := sat32 (v.switches + 1), addr := (e.2.points.getD gp none).getD v.addr }))
      (fun j => { j with oneVariant := false })
  let due := replayAt s gp
  let s2 := if e.2.recipe = cur.recipe then s1
    else modJob s1 (fun j => logRecipe j gp e.2.recipe (tagsOf j due e.2.recipe))
  modShut (modJob s2 (fun j => { j with
      wantRecipe := if j.wantRecipe = some e.2.recipe then none else j.wantRecipe
      clearTags := if j.wantRecipe = some e.2.recipe then [] else j.clearTags
      wantRecompute := if j.wantRecompute = some e.2.recompute then none else j.wantRecompute
      replay := match due with | some d => j.replay.erase d | none => j.replay
      replayed := j.replayed ++ due.toList }))
    (fun v => { v with selection := e.1 })

/-- A change of recipe or recompute state without a variant of the fixed grade ends fixed mode (R273). -/
def fixedAfter (s : State) (cur v : Variant) : State :=
  if s.power.fixedGrade ≠ 0 ∧ (v.recipe ≠ cur.recipe ∨ v.recompute ≠ cur.recompute) ∧ v.grade ≠ s.power.fixedGrade then
    exitFixed s 2 else s

/-- Apgiosh's selection at a grade point, and the clock (R177, R266). -/
def selectAt (s : State) (p : Package) (kind gp : Nat) : State :=
  match variantOf p s.shut.variant with
  | none => s
  | some cur =>
    let s1 := fixedAtPoint s
    match selectFrom s1 (candidates s1 p cur kind gp) with
    | none => s1
    | some e =>
      let s2 := fixedAfter (takeVariant s1 cur gp e) cur e.2
      changeGrade (modPower s2 (fun w => { w with stay := none })) e.2.grade

/-- A grade point has been passed: its count and, but for FENCE, t_gp (R174, R183). -/
def passPoint (s : State) (kind : Nat) : State :=
  let n := if kind = 4 then 0 else 32
  modShut s (fun v => { v with
    gradePoints := sat32 (v.gradePoints + 1), cycles := sat64 (v.cycles + n), phys := sat64 (v.phys + n) })

/-- A grade point: after a SPOOL_DEFICIT the step is abandoned (R129); otherwise `k` acts. -/
def atPoint (s : State) (k : Package → Out) : Out :=
  whenIssuing s (fun p => if s.job.deficit then .next (sendPoison s 2) else k p)

/-- GRADE (R177). -/
def execGrade (gp : Nat) (s : State) : Out :=
  atPoint s (fun p => .next (applyGates (selectAt (passPoint s 1) p 1 gp) p gp))

/-- GRADE_RECIPE (R177). -/
def execGradeRecipe (gp : Nat) (s : State) : Out :=
  atPoint s (fun p => .next (applyGates (selectAt (passPoint s 2) p 2 gp) p gp))

/-! ### STEP_OPEN (R74, R148, R176, R177, R180, R271) -/

/-- What a panel counts from the opening grade point (R83, R85, R92, R122, R132). -/
def openPanel (p : Panel) : Panel :=
  { p with loads := 0, seq := 0, told := []
           spool := { p.spool with voidMode := false, voids := [], seq := 0
                                   stat := { p.spool.stat with highWater := 0, extHighWater := 0 } } }

/-- Votes already heard for the step, and what carries over to a repeat of it (R160, R161): a VERDICT_OVERFLOW
that no other cause overrode counts as the first one of the step. -/
def openFence (f : Fence) (step : Nat) : Fence :=
  let first := f.acted == some 3
  { votes := f.votes.filter (fun v => v.1 == step)
    overflowStep := if first then some step else f.overflowStep, newNumeric := !first && f.newNumeric }

/-- The shuttle's flow state at a STEP_OPEN (R180). -/
def saveFlow (v : Shuttle) (gp : Nat) : Shuttle :=
  { v with saved := { variant := v.variant, gp := gp, ctrs := v.ctrs, micro := v.micro, addr := v.addr }, inStep := true, cut := false }

/-- The shuttle stands at the STEP_OPEN of a grade point: the opening mark finds its waits (R184). -/
def standAt (s : State) (gp : Nat) : State :=
  modJob (modShut s (fun v => { v with saved := { v.saved with gp := gp } }))
    (fun j => { j with openWaits := (s.shut.creditWait, s.shut.phys) })

/-- The step begins: fray marks, energy mark, waits, panels, hubs, fence (R53, R148, R184, R267, R272). -/
def beginStep (s : State) (gp entropy : Nat) : State :=
  { s with
    panels := s.panels.map (fun e => (e.1, openPanel e.2))
    hubs := (List.range sleeves).map (fun h => (h, { hubOf s h with entropy := entropy }))
    fence := openFence s.fence s.job.step
    shut := saveFlow s.shut gp
    job := { s.job with
      frayOpen := s.job.fray, energyOpen := energyCount s, stepIdle := 0, stepCapped := 0, stepForced := false, stepped := true, oneVariant := true
      staged := false, deficit := false, lateTags := [] } }

/-- Where the element plane of such a tensor lies: in every micro-batch, on every panel of the set (R171). -/
def sumPlaces (s : State) (p : Package) (x : Nat × Nat) : List (Nat × Nat) :=
  match tensorOf p x.2 with
  | none => []
  | some t =>
    if t.spooled then []
    else (List.range (if t.mstride = 0 then 1 else max p.nmicro 1)).flatMap (fun m =>
      (slotPanels s p x.1).map (fun q => (resolveAddr q (256 * (t.elemBase + m * t.mstride)), elemBytes t)))

/-- The destinations of accumulations hold +0 at the start of a step (R65, R136): no field of a descriptor names an
initial tensor. Job state keeps its values: a step may write it only past its check fence (R138; DEDUCED, log entry 78). -/
def clearSums (p : Package) (s : State) : State :=
  (((sumTargets p).flatMap (sumPlaces s p)).eraseDups.filter (fun e =>
      !(p.regions.any (fun r => r.jobState && regionHas p r e.1)))).foldl
    (fun t e => stepWrite t e.1 (List.replicate e.2 0#8)) s

/-- A transaction that is PENDING as its step is poisoned commits before the repeat at the latest (R348, R363). -/
def commitPoisoned (s : State) : State :=
  if s.mgmt.txn.st == .pending && poisoned s && !(commitBlocked s) then applyCommit s else s

/-- V_USER takes effect (R271). -/
def applyVolts (s : State) : State :=
  let t := modPower s (fun w => { w with vUser := userVolts s.mgmt.settings })
  modPower t (fun w => { w with vset := vSet t w.grade })

/-- STEP_OPEN (R177, R180): the opening mark with a snapshot's capture, the selection, the saved flow
state. After step 0xFFFF_FFFF the step faults with STEP_LIMIT (R74). After an abandoned step the stream resumes here,
once the cases of that step are resolved: until then, and while a restore is in progress or the state is INVALID, the
stitch does not issue (R163, R310, R313). -/
def execStepOpen (gp entropy : Nat) (s : State) : Out :=
  whenRunning s (fun p =>
    if s.shut.syncWait ≠ 0 ∨ s.fence.phase ≠ .none then .fault .noJob
    else if heldCases s || s.snap.rest.isSome || s.job.invalid then noEvent s
    else if s.job.deficit then .next (sendPoison s 2)
    else if 2 ^ 32 ≤ s.job.step then .next (jobFault (standAt s gp) .stepLimit .stepLimit [])
    else
      let s1 := applyVolts (captureMark (injectMark (standAt (commitPoisoned s) gp) 0))
      .next (clearSums p (beginStep (applyGates (selectAt (passPoint s1 3) p 3 gp) p gp) gp entropy)))

/-! ### STEP_CLOSE (R139, R144 to R146, R176, R184, R267, R272) -/

/-- A share of R53 in the encoding of R145. -/
def share (n d : Nat) : Nat := if d = 0 then 0 else min 0xFFFFFFFF (n * 2 ^ 32 / d)

/-- The six shares of a set of counters since the opening mark (R53, R145). -/
def shares (a b : Fray) : List Nat :=
  let e := b.elements - a.elements
  let k := b.blocks - a.blocks
  [share (b.overflow - a.overflow) e, share (b.vanish - a.vanish) e, share (b.zeroBlock - a.zeroBlock) k,
   share (b.flushed - a.flushed) k, share (b.fallback - a.fallback) k, share (b.trunc - a.trunc) (b.runs - a.runs)]

/-- The records of the step's report, ascending by tag and slot (R144). -/
def reportRecords (j : Job) : List (Nat × Nat × List Nat) :=
  j.fray.filterMap (fun e =>
    let a := tabGet {} j.frayOpen e.1
    if e.2.elements = a.elements ∧ e.2.runs = a.runs then none else some (e.1 / 4, e.1 % 4, shares a e.2))

/-- The exceedances of the watch thresholds: (tag, slot, share, value) (R146). -/
def watchHits (s : State) (rs : List (Nat × Nat × List Nat)) : List (List Nat) :=
  rs.flatMap (fun r => (r.2.2.zipIdx).filterMap (fun e =>
    if setting s 0x104 (6 * r.2.1 + e.2) < e.1 then some [r.1, r.2.1, e.2, e.1] else none))

/-- The report of the closed step, with at most 256 FRAY_WATCH events (R144, R146). -/
def closeReport (s : State) (step : Nat) : State :=
  let rs := reportRecords s.job
  let hits := watchHits s rs
  let s1 := (hits.take 256).foldl (fun t h => raiseEv t srcThimble .frayWatch (step :: h)) s
  modJob s1 (fun j => { j with
    reports := (⟨step, rs, min hits.length 256, hits.length - 256⟩ :: j.reports).take 2 })

/-- STRAGGLER (R272, R297): q or q_therm above 0 for any part of the step, or the forced G1 during a collective of it. A window
counts in the step in which it ends (R272 leaves open where one counts that is still open; DESIGN CHOICE, log entry 54). -/
def closeStraggler (s : State) (step : Nat) : State :=
  if s.job.stepIdle ≠ 0 ∨ s.job.stepCapped ≠ 0 ∨ dutyOf s ≠ 0 ∨ s.job.stepForced = true then
    raiseEv s srcThimble .straggler [step, s.job.stepIdle, s.job.stepCapped]
  else s

/-- SLIP_WARN (R184); which island was behind most often is a free value (log entry 2). -/
def closeSlip (s : State) (step : Nat) : State :=
  let c := s.shut.creditWait - s.job.openWaits.1
  let t := s.shut.phys - s.job.openWaits.2
  if setting s 0x110 0 * t < 100 * c then
    let r := takeFree s
    raiseEv r.2 srcShuttle .slipWarn [step, r.1.toNat % 2 ^ 16]
  else s

/-- The mean of ratios, limited to 0.8 to 1.5 (R267). -/
def meanRatio (rs : List Rat) : Rat :=
  max (4 / 5) (min (3 / 2) (rs.foldl (· + ·) 0 / (max rs.length 1 : Nat)))

/-- The ratio of a step's energy to its variant's E_STEP; without an E_STEP a free value (log entry 2). -/
def stepRatio (s : State) (v : Variant) : Rat × State :=
  if v.eStep = 0 then
    let r := takeFree s
    ((r.1.toNat : Rat), r.2)
  else (((energyCount s - s.job.energyOpen : Nat) : Rat) / (v.eStep : Rat), s)

/-- A positive rational rounded to F32. -/
def f32OfRat (q : Rat) : F32 :=
  let n := (q.num.natAbs * 2 ^ 60) / q.den
  f32Sticky n (-60) (decide (n * q.den = q.num.natAbs * 2 ^ 60)) (decide (q.num < 0))

/-- k_E after an eligible step, with PREDICTION_LOW once per job (R267, R279). -/
def closeEnergy (s : State) (p : Package) : State :=
  match variantOf p s.shut.variant with
  | none => s
  | some v =>
    if s.job.oneVariant && s.job.stepIdle == 0 then
      let r := stepRatio s v
      let rs := (r.1 :: s.power.ratios).take 8
      let k := meanRatio rs
      let low := decide ((11 : Rat) / 10 < k) && !s.power.toldLow
      let s1 := modPower r.2 (fun w => { w with ratios := rs, kE := k, toldLow := w.toldLow || low })
      if low then raiseEv s1 srcThimble .predictionLow [s.shut.variant, (f32OfRat k).toNat] else s1
    else s

/-- Dataset slots held for the closed step become FREE (R251). -/
def freeSlots (s : State) (step : Nat) : State :=
  { s with host := { s.host with slots := s.host.slots.filter (fun e => e.2 != .held step) } }

/-- The step counter advances, and no step is open (R139, R177). -/
def endStep (s : State) (step : Nat) : State :=
  let t := freeSlots s step
  { t with fence := { t.fence with passed := false }, job := { t.job with step := step + 1, replayed := [] }
           shut := { t.shut with inStep := false } }

/-- A pending commit, then a pending JOB_END, take effect (R185, R346, R348, R363). -/
def closePending (s : State) : State :=
  let s1 := if commitBlocked s then s else applyCommit s
  match s1.job.ending with
  | some _ => dueEndJob s1
  | none => s1

/-- STEP_CLOSE (R139, R177): the step counter advances once every APPLY of the step is done, until when the grade
point does not pass; closing mark, report, energy, warnings, slots, selection, pending requests. -/
def execStepClose (gp : Nat) (s : State) : Out :=
  atPoint s (fun p =>
    if s.shut.movers.any (fun o => o.kind == .apply) then noEvent s
    else
      let step := s.job.step
      let s1 := closeStraggler (closeReport (closeEnergy s p) step) step
      let s2 := closeSlip (applyGates (selectAt (passPoint s1 5) p 5 gp) p gp) step
      .next (closePending (injectMark (endStep s2 step) 1)))

end Sys2Proof.Machine
end

