-- ==== Sys2Proof/Machine/Baste.lean ====
section
/-! DEFINITION. The baste unit's captures and checks, the held cases and their verdicts, and the check
fence with its votes (R149 to R163). -/

namespace Sys2Proof.Machine

open Sys2Proof.Config

/-! ### Checks (R149 to R151, R154) -/

/-- BASTE_CAPTURE_DONE (R149): the tile and its operands are in the check buffer. -/
def execBasteCaptureDone (hub : Nat) (s : State) : Out :=
  match (hubOf s hub).act with
  | .capturing c => .next (modHub s hub (fun h => { h with act := .checking c }))
  | _ => noEvent s

/-- BASTE_CAPTURE_ABANDON (R149): counted as a skip. -/
def execBasteCaptureAbandon (hub : Nat) (s : State) : Out :=
  match (hubOf s hub).act with
  | .capturing c => .next (skipSelection (modHub s hub (fun h => { h with act := .idle })) c.panel false)
  | _ => noEvent s

/-- The elements of a line over the rank's contraction range. -/
def captureElems (c : Capture) (l : Line) : List Elem :=
  (l.elems.drop (c.lo * runLen c.pair)).take ((c.hi - c.lo) * runLen c.pair)

/-- C1 and P of every valid element, in index order (R150). -/
def checkValues (c : Capture) : List (F32 × F32) :=
  c.rowsA.flatMap (fun a => c.colsB.map (fun b => basteDot (captureElems c a) (captureElems c b)))

/-- Whether a tile exceeds (R151). -/
def tileExceeds (c : Capture) (c1 pp : List F32) : Bool :=
  (c.tile.data.zip (c1.zip pp)).any (fun e => exceeds c.pair c.tol e.1 e.2.1 e.2.2)

/-- The lowest free case slot of a hub (R154 names no slot; DESIGN CHOICE, log entry 81). -/
def freeSlot (h : Hub) : Option Nat := (List.range 4).find? (fun k => !(h.cases.any (fun c => c.slot == k)))

/-- A case in its slot, in slot order. -/
def addCase (cs : List Case) (c : Case) : List Case :=
  cs.filter (fun d => decide (d.slot < c.slot)) ++ [c] ++ cs.filter (fun d => decide (c.slot < d.slot))

/-- BASTE_CHECK_DONE (R150, R151, R154, R157): an exceedance takes a free case slot, or is not held. -/
def execBasteCheckDone (hub : Nat) (flt : List (Nat × W32)) (s : State) : Out :=
  match (hubOf s hub).act with
  | .checking c =>
    let vs := checkValues c
    let c1 := faulty (vs.map Prod.fst) flt
    let pp := vs.map Prod.snd
    let s1 := modHub s hub (fun h => { h with act := .idle, checks := sat32 (h.checks + 1) })
    if tileExceeds c c1 pp then
      match freeSlot (hubOf s hub) with
      | some k => .next (modHub s1 hub (fun h => { h with
          exceedances := sat32 (h.exceedances + 1), cases := addCase h.cases ⟨k, c, c1, pp⟩ }))
      | none => .next { modHub s1 hub (fun h => { h with
          exceedances := sat32 (h.exceedances + 1), casesOverflow := sat32 (h.casesOverflow + 1) }) with
          fence := { s.fence with overflow := true } }
    else .next s1
  | _ => noEvent s

/-! ### The vote (R160, R161, R233) -/

/-- FENCE (R160, R177): the shuttle holds at the step's check fence. A further FENCE of a step that has passed its
fence holds, votes and passes again (DESIGN CHOICE, log entry 17). -/
def execFence (gp : Nat) (s : State) : Out :=
  atPoint s (fun p =>
    let t := applyGates (passPoint s 4) p gp
    .next { t with fence := { t.fence with phase := .holding } })

/-- The ports a vote leaves on: every bound neighbour port, and one plane where a rank of the job is not
LOCAL (R233). -/
def votePorts (s : State) (p : Package) : List Nat :=
  let far := (p.plan.ranks.zipIdx).any (fun r => !r.1.2 && r.2 != p.plan.rank)
  let ms := memberPorts s
  ms.filter (fun q => decide (q < 8)) ++ (if far then (ms.filter (fun q => decide (8 ≤ q))).take 1 else [])

/-- The vote (R160): HARDWARE_VERDICT, VERDICT_OVERFLOW or OK. -/
def ownVote (f : Fence) : Nat := if f.hardware then 1 else if f.overflow then 3 else 0

/-- The votes heard for a step, one for each rank at most. -/
def votesFor (f : Fence) (step : Nat) : List (Nat × Nat) :=
  f.votes.filterMap (fun v => if v.1 = step then some v.2 else none)

/-- Step 5 of R160: a poison vote acts as poison of its rank; with every vote OK the fence is passed. -/
def judgeVotes (s : State) (p : Package) : State :=
  let vs := votesFor s.fence s.job.step
  if vs.any (fun v => v.2 != 0) then
    poisonAction (abandonWork { s with fence := { s.fence with
      poisons := s.fence.poisons ++ (vs.filter (fun v => v.2 != 0)).map (fun v => (v.2, v.1)) } })
  else if (List.range p.plan.nranks).all (fun r => r == p.plan.rank || vs.any (fun v => v.1 == r)) then
    { s with fence := { s.fence with phase := .none, passed := true } }
  else s

/-- Steps 3 and 4 of R160: the vote is formed and sent; a poison vote sends STEP_POISON (R161). -/
def castVote (s : State) (p : Package) : State :=
  let v := ownVote s.fence
  let b : FlitBody := .vote { step := s.job.step, vote := v, rank := p.plan.rank, jobTag := p.plan.jobId }
  let s1 := (votePorts s p).foldl (fun t q => seamSend t q b) s
  if v = 0 then judgeVotes { s1 with fence := { s1.fence with phase := .voted } } p
  else sendPoison s1 v

/-- The matrix engines still owe a push. -/
def owesPush (s : State) : Bool :=
  s.panels.any (fun e => !e.2.banks.isEmpty || !e.2.blocks.isEmpty || !e.2.emitted.isEmpty)

/-- FENCE_HOLD_END (R160, R172): every push of the step is done, and checked or skipped, after `phys` cycles; a
device without a held case votes at once. -/
def execFenceHoldEnd (phys : Nat) (s : State) : Out :=
  whenRunning s (fun p =>
    if s.fence.phase = .holding ∧ owesPush s = false ∧ (List.range sleeves).all (fun h => (hubOf s h).act == .idle) = true then
      let s1 := (List.range sleeves).foldl (fun t h =>
        modHub t h (fun u => { u with fenceWait := sat32 (u.fenceWait + phys) })) s
      let s2 := modShut s1 (fun v => { v with fenceHold := sat32 (v.fenceHold + phys), phys := sat64 (v.phys + phys) })
      if heldCases s2 then .next { s2 with fence := { s2.fence with phase := .resolving } }
      else .next (castVote s2 p)
    else noEvent s)

/-- FENCE_TIMEOUT (R160, R161): a member whose vote is missing counts as poison, with that member as the
origin. -/
def execFenceTimeout (rank : Nat) (s : State) : Out :=
  whenRunning s (fun p =>
    if s.fence.phase = .voted ∧ rank < p.plan.nranks ∧ rank ≠ p.plan.rank ∧
        (votesFor s.fence s.job.step).any (fun v => v.1 == rank) = false then
      .next (sendPoisonFrom s 4 rank)
    else noEvent s)

/-! ### Verdicts (R155, R156, R158, R163) -/

/-- The first held case in ascending sleeve and slot order (R154). -/
def firstCase (s : State) : Option (Nat × Case) :=
  (List.range sleeves).findSome? (fun h => ((hubOf s h).cases.head?).map (fun c => (h, c)))

/-- The narrow run of a case as a chain of one, with a fault pattern of the panel (R155). -/
def narrowRun (c : Capture) (flt : List (Nat × W32)) : List F32 :=
  faulty (c.rowsA.flatMap (fun a => c.colsB.map (fun b =>
    rankSum 0#32 (slicePartials c.pair a b c.sliceRuns c.lo c.hi).1))) flt

/-- Elements in which two results differ. -/
def mismatches (a b : List F32) : Nat := ((List.zip a b).filter (fun e => e.1 != e.2)).length

/-- The outcomes of R155 in the codes of R156: C0, Cw, C3, and whether C2 differs from C1. -/
def outcomeOf (c0 cw c3 : List F32) (checkDiffers : Bool) : Nat :=
  if cw = c0 then (if checkDiffers then 4 else 0)
  else if checkDiffers then 5
  else if c3 = cw then 1 else if c3 = c0 then 2 else 3

/-- The rank of an element for R156: a non-finite mismatch, a finite difference at τ zero, a ratio. -/
inductive ElemRank where
  | mismatch | zeroTol | ratio (num den : Dy)
deriving DecidableEq, Repr

def elemRank (p : Pair) (tol : Nat) (c0 c1 P : F32) : ElemRank :=
  if f32IsFinite c0 && f32IsFinite c1 then
    let d := dyAbs (dySub (f32Dy c0) (f32Dy c1))
    if f32IsFinite P then
      let t := tau p tol c1 P
      if t.m = 0 then (if d.m = 0 then .ratio dyZero ⟨1, 0⟩ else .zeroTol) else .ratio d t
    else .ratio dyZero ⟨1, 0⟩
  else if exceeds p tol c0 c1 P then .mismatch else .ratio dyZero ⟨1, 0⟩

/-- Whether `a` ranks strictly above `b`. -/
def rankAbove : ElemRank → ElemRank → Bool
  | .mismatch, .mismatch => false
  | .mismatch, _ => true
  | .zeroTol, .ratio _ _ => true
  | .zeroTol, _ => false
  | .ratio n d, .ratio m e => dyLt (dyMul m d) (dyMul n e)
  | .ratio _ _, _ => false

/-- The element reported: the highest rank, at its lowest index. -/
def reported (rs : List ElemRank) : Nat :=
  ((rs.zipIdx).foldl (fun (best : Option (ElemRank × Nat)) e =>
    match best with
    | none => some e
    | some b => if rankAbove e.1 b.1 then some e else best) none).elim 0 Prod.snd

/-- The F32 value at or next above a nonnegative dyadic. -/
def f32Up (a : Dy) : F32 :=
  let r := f32OfDy a
  if f32IsFinite r && dyLt (f32Dy r) a then r + 1#32 else r

/-- TOL: τ rounded up to F32; for a NaN C1 the spec gives no τ and the value is free (R151, R156; log
entry 2). -/
def tolWord (s : State) (p : Pair) (tol : Nat) (c1 P : F32) : F32 × State :=
  if f32IsNaN c1 || f32IsNaN P then
    let r := takeFree s
    (r.1.setWidth 32, r.2)
  else if f32IsInf c1 || f32IsInf P then (f32Inf, s)
  else (f32Up (tau p tol c1 P), s)

/-- The panels of R155: witness and third. -/
def witnessOf (q : Nat) : Nat := 16 * ((q / 16 + sleeves / 2) % sleeves) + q % 16
def thirdOf (q : Nat) : Nat := 16 * ((q / 16 + sleeves / 4) % sleeves) + q % 16

/-- What a case's runs give: the verdict record (R156). -/
def verdictOf (step : Nat) (c : Case) (tol : F32) (cw c2 c3 : List F32) : Verdict :=
  let t := c.cap.tile
  let q := c.cap.panel
  let ran := cw != t.data
  let i := reported ((t.data.zip (c.c1.zip c.pp)).map (fun e => elemRank c.cap.pair c.cap.tol e.1 e.2.1 e.2.2))
  { step := step, tag := t.tag, panel := q, witness := witnessOf q, third := if ran then thirdOf q else q
    outcome := outcomeOf t.data cw c3 (c2 != c.c1), micro := t.micro, desc := t.desc, row0 := t.row0, col0 := t.col0
    elem := 128 * (i / max t.cols 1) + i % max t.cols 1
    c0 := t.data.getD i 0#32, c1 := c.c1.getD i 0#32, tol := tol, cw := cw.getD i 0#32
    c3 := if ran then c3.getD i 0#32 else 0#32, c2 := c2.getD i 0#32
    mismatchW := mismatches cw t.data, mismatchC := mismatches c2 c.c1 }

/-- The record joins the last 64 (R156). -/
def pushVerdict (m : Mgmt) (v : Verdict) : Mgmt :=
  if m.verdicts.length < 64 then { m with verdicts := m.verdicts ++ [v] }
  else { m with verdicts := (m.verdicts ++ [v]).drop 1, verdictBase := m.verdictBase + 1 }

/-- The unit a verdict found wrong, as a source number (R329). -/
def wrongUnit (v : Verdict) : Nat :=
  if v.outcome = 2 then v.witness else if v.outcome = 4 then srcHub (v.panel / 16) else v.panel

/-- The recipe that the escalation table names for a tag (R158, R178), from the recipe in force or the one
already wanted. -/
def escalate (s : State) (p : Package) (tag : Nat) : Option Nat :=
  let cur := s.job.wantRecipe.getD (((variantOf p s.shut.variant).map (fun v => v.recipe)).getD 0)
  (p.escal.find? (fun e => e.valid && e.tag == tag && e.src == cur)).map (fun e => e.dst)

/-- Apgiosh wants the recipe that the table names for a tag, unless it wants one for that tag already (R158). -/
def wantFor (s : State) (tag : Nat) : State :=
  match s.job.pkg, setting s 0x102 0 with
  | some p, 1 =>
    if s.job.clearTags.contains tag then s
    else match escalate s p tag with
      | some r => modJob s (fun j => { j with wantRecipe := some r, clearTags := j.clearTags ++ [tag] })
      | none => s
  | _, _ => s

/-- NUMERIC of a tag, and the escalation (R158); a divergence found after the step was abandoned is kept for a
restart (R163). -/
def setNumeric (s : State) (tag : Nat) : State :=
  let fresh := !(s.job.numeric.contains tag)
  wantFor { modJob s (fun j => { j with
      numeric := if fresh then j.numeric ++ [tag] else j.numeric
      lateTags := if s.fence.abandoned then j.lateTags ++ [tag] else j.lateTags }) with
    fence := { s.fence with newNumeric := s.fence.newNumeric || fresh } } tag

/-- The outcome acts (R155, R158, R321). -/
def actOnVerdict (s : State) (v : Verdict) (idx : Nat) : State :=
  if v.outcome = 0 then setNumeric s v.tag
  else recordSuspect { s with fence := { s.fence with hardware := true } } 1 (wrongUnit v) idx

/-- After the last case: the vote at the fence (R160), or the poison that an abandoned step still owes
(R163, R321); then the drain (R326), or the end of a job that waited for its cases. -/
def afterCases (s : State) : State :=
  if heldCases s then s
  else
    let s1 := match s.job.pkg with
      | none => s
      | some p =>
        if s.fence.phase = .resolving then castVote s p
        else if s.fence.hardware && !s.fence.sent then sendPoison s 1 else s
    tryEndJob (drainIfDue s1)

/-- CASE_RESOLVE (R154 to R156, R163): the first held case in order is resolved, at the fence or after the
step was abandoned. -/
def execCaseResolve (hub slot : Nat) (fltW fltC flt3 : List (Nat × W32)) (s : State) : Out :=
  match firstCase s with
  | none => noEvent s
  | some (h, c) =>
    if h = hub ∧ c.slot = slot ∧
        (s.fence.phase = .resolving ∨ s.shut.inStep = false) then
      let cw := narrowRun c.cap fltW
      let c2 := faulty ((checkValues c.cap).map Prod.fst) fltC
      let c3 := narrowRun c.cap flt3
      let i := reported ((c.cap.tile.data.zip (c.c1.zip c.pp)).map (fun e =>
        elemRank c.cap.pair c.cap.tol e.1 e.2.1 e.2.2))
      let w := tolWord s c.cap.pair c.cap.tol (c.c1.getD i 0#32) (c.pp.getD i 0#32)
      let v := verdictOf s.job.step c w.1 cw c2 c3
      let idx := s.mgmt.verdictBase + s.mgmt.verdicts.length
      let s1 := modHub w.2 hub (fun u => { u with cases := u.cases.drop 1 })
      let s2 := raiseEv { s1 with mgmt := pushVerdict s1.mgmt v } (srcHub hub) .verdict []
      .next (afterCases (actOnVerdict s2 v idx))
    else noEvent s

end Sys2Proof.Machine
end

