-- ==== Sys2Proof/Machine/Coll.lean ====
section
/-! DEFINITION. Collectives: issue, segments, routing, arrival, and the fold in rank order (R67, R229 to
R232). -/

namespace Sys2Proof.Machine

open Sys2Proof.Config

/-- Bytes of a full segment (R230). -/
def segBytes : Nat := 0x10000

/-- A COLL descriptor with its group and the position of this rank (R229, R230). -/
structure CollView where
  c : CollDesc
  gs : List Nat
  pos : Nat
deriving DecidableEq, Repr

/-- The COLL descriptor d for this rank; none if the rank is not in its group. -/
def collView (p : Package) (c : CollDesc) : Option CollView :=
  let gs := p.plan.groups.getD c.group []
  if gs.contains p.plan.rank then some ⟨c, gs, gs.idxOf p.plan.rank⟩ else none

def collOf (p : Package) (d : Nat) : Option CollDesc := match descOf p d with | .coll c => some c | _ => none

/-- Bytes of an element (R229). -/
def collElem (c : CollDesc) : Nat := if c.elemL16 then 2 else 4

/-- First element of the shard or block of position j (R230). -/
def shardLo (v : CollView) (j : Nat) : Nat :=
  if v.c.op = 3 then j * (v.c.count / max v.gs.length 1) else j * v.c.count / max v.gs.length 1

/-- Byte offset and length of the shard or block of position j. -/
def shardOff (v : CollView) (j : Nat) : Nat := shardLo v j * collElem v.c
def shardLen (v : CollView) (j : Nat) : Nat := shardOff v (j + 1) - shardOff v j

/-- Segments of `n` bytes (R230). -/
def segCount (n : Nat) : Nat := ceilDiv n segBytes

/-- SRC and DST of a collective (R229). -/
def collBase (panel micro base stride : Nat) : Nat :=
  resolveAddr panel (256 * (base + (if micro = 0xFFFF then 0 else micro * stride)))
def collSrc (c : CollDesc) (panel micro : Nat) : Nat := collBase panel micro c.src c.srcMstride
def collDst (c : CollDesc) (panel micro : Nat) : Nat := collBase panel micro c.dst c.dstMstride

/-! ### Sending (R230, R233) -/

/-- The plane of segment s: the (s mod P)-th set bit of PLANES (R230). -/
def planeFor (planes seg : Nat) : Nat :=
  let ks := (List.range 4).filter (bitOf planes)
  ks.getD (seg % max ks.length 1) 0

/-- The port and DST_PORT of a segment to a rank (R230, R233). With no MEMBER neighbour port bound to a LOCAL rank the segment
has no port, 12, and does not leave (the spec is silent; DESIGN CHOICE, log entry 72). -/
def routeTo (s : State) (p : Package) (planes rank seg : Nat) : Nat × Nat :=
  let e := p.plan.ranks.getD rank (0, false)
  if e.2 then
    (((memberPorts s).find? (fun q => decide (q < 8) && (portOf s q).peerRank == some rank)).getD 12, 0xFF)
  else (uplink (planeFor planes seg), e.1)

/-- The flits of a segment: its HEAD and ceil(BYTES / 480) DATA flits (R233). -/
def segFlits (h : Head) (bs : List Byte) (op : Nat) : List FlitBody :=
  let n := ceilDiv h.bytes 480
  .head h :: (List.range n).map (fun i =>
    .data (padTo 480 ((bs.drop (480 * i)).take 480)) (if i + 1 = n then some op else none))

/-- What a collective's run sends with: package, view, operation, MICRO and descriptor. -/
structure Sender where
  p : Package
  v : CollView
  op : Nat
  desc : Nat
  micro : Nat
deriving DecidableEq, Repr

def modRun (s : State) (op : Nat) (f : CollRun → CollRun) : State :=
  { s with coll := { s.coll with runs := s.coll.runs.map (fun r => if r.op = op then f r else r) } }

/-- Send segment `seg` with its bytes to a rank. BYTES is a multiple of 64. -/
def sendSegment (w : Sender) (phase rank seg : Nat) (bs : List Byte) (s : State) : State :=
  let r := routeTo s w.p w.v.c.planes rank seg
  let h : Head := { dstPort := r.2, srcRank := w.p.plan.rank, dstRank := rank, step := s.job.step, desc := w.desc
                    phase := phase, micro := w.micro, segment := seg, bytes := max 64 (roundUp bs.length 64)
                    jobTag := w.p.plan.jobId }
  let s1 := modRun s w.op (fun c => { c with unacked := c.unacked + 1 })
  if (portOf s r.1).st = .member then (segFlits h bs w.op).foldl (fun t b => seamSend t r.1 b) s1 else s1

/-- Send `n` bytes from an address to a rank, segment by segment; a read that abandons the step ends the sending. -/
def sendRange (w : Sender) (phase rank a n : Nat) (s : State) : State :=
  (List.range (segCount n)).foldl (fun t i =>
    let r := readBytes t (a + segBytes * i) (min segBytes (n - segBytes * i))
    unlessAbandoned r.2 (sendSegment w phase rank i r.1)) s

/-! ### Arrival (R230 to R232) -/

/-- DST of a run is written further. -/
def wrote (s : State) (op n : Nat) : State := modRun s op (fun c => { c with written := c.written + n })

/-- Bytes of DST are written; a write that a snapshot holds keeps the operation and its place in the buffer (R232, R236). -/
def collWrite (s : State) (op a : Nat) (bs : List Byte) : State :=
  wrote (tagHeld op s.snap.heldWrites.length (stepWrite s a bs)) op bs.length

/-- Bytes of DST that a collective writes on this rank (R230). -/
def collBytes (v : CollView) : Nat :=
  if v.c.op = 0 then shardLen v v.pos
  else if v.c.op = 3 then shardOff v v.gs.length
  else v.c.count * collElem v.c

/-- A run that is complete for SYNC leaves the engine (R232). -/
def finishRun (s : State) (p : Package) (op : Nat) : State :=
  let done := fun (r : CollRun) => r.op == op && r.unacked == 0 &&
    (match (collOf p r.desc).bind (collView p) with
     | some v => decide (collBytes v ≤ r.written)
     | none => true)
  { s with coll := { s.coll with runs := s.coll.runs.filter (fun r => !(done r)) } }

/-- A gathered result or an all-to-all block is written in its place (R230). -/
def placeSegment (s : State) (v : CollView) (r : CollRun) (h : Head) (bs : List Byte) : State :=
  let j := v.gs.idxOf h.srcRank
  let n := min bs.length (min segBytes (shardLen v j - segBytes * h.segment))
  collWrite s r.op (collDst v.c r.panel r.micro + shardOff v j + segBytes * h.segment) (bs.take n)

/-- A segment has arrived whole: a contribution, or a segment of a COLL not yet issued here, is held in the
reduction buffer; the others are moved (R231). -/
def arriveSegment (s : State) (p : Package) (h : Head) (bs : List Byte) : State :=
  match s.coll.runs.find? (fun r => r.desc == h.desc && r.micro == h.micro), (collOf p h.desc).bind (collView p) with
  | some r, some v =>
    if h.phase = 0 then { s with coll := { s.coll with buffer := s.coll.buffer ++ [⟨h, bs⟩] } }
    else finishRun (placeSegment s v r h bs) p r.op
  | _, _ => { s with coll := { s.coll with buffer := s.coll.buffer ++ [⟨h, bs⟩] } }

/-- What the buffer held of a COLL that is issued now: results and blocks are moved. -/
def takeBuffered (s : State) (p : Package) (desc micro : Nat) : State :=
  let mine := fun (c : Contrib) => c.head.desc == desc && c.head.micro == micro && c.head.phase != 0
  let s1 := { s with coll := { s.coll with buffer := s.coll.buffer.filter (fun c => !(mine c)) } }
  (s.coll.buffer.filter mine).foldl (fun t c => arriveSegment t p c.head c.bytes) s1

/-! ### COLL (R230) -/

/-- What a rank sends when it issues a COLL. -/
def issueSends (w : Sender) (panel : Nat) (s : State) : State :=
  let a := collSrc w.v.c panel w.micro
  (w.v.gs.zipIdx).foldl (fun t e =>
    if e.2 = w.v.pos then t
    else match w.v.c.op with
      | 1 => sendRange w 1 e.1 a (shardLen w.v w.v.pos) t
      | 3 => sendRange w 2 e.1 (a + shardOff w.v e.2) (shardLen w.v e.2) t
      | _ => sendRange w 0 e.1 (a + shardOff w.v e.2) (shardLen w.v e.2) t) s

/-- What a rank moves by itself: its own shard of an all-gather, its own block of an all-to-all. -/
def ownPart (w : Sender) (panel : Nat) (s : State) : State :=
  if w.v.c.op = 1 ∨ w.v.c.op = 3 then
    let n := shardLen w.v w.v.pos
    let a := collSrc w.v.c panel w.micro + (if w.v.c.op = 3 then shardOff w.v w.v.pos else 0)
    let r := readBytes s a n
    unlessAbandoned r.2 (fun t => collWrite t w.op (collDst w.v.c panel w.micro + shardOff w.v w.v.pos) r.1)
  else s

/-- Bytes of SRC that a collective reads on this rank (R230). -/
def collSrcBytes (v : CollView) : Nat :=
  if v.c.op = 1 then shardLen v v.pos else if v.c.op = 3 then shardOff v v.gs.length else v.c.count * collElem v.c

/-- COLL (R229, R230, R232): the rank's segments leave; a rank outside the group moves nothing. -/
def execColl (x : MovRef) (s : State) : Out :=
  whenIssuing s (fun p =>
    match collOf p x.desc with
    | none => .fault .notAdmitted
    | some c =>
      let micro := s.shut.micro
      let op := s.shut.nextOp
      let s1 := startOp (modJob s (fun j => { j with stepForced := j.stepForced || s.therm.forced })) x.queue (.coll x.desc micro)
      match collView p c with
      | none => .next s1
      | some v =>
        let q := (slotPanels s p x.pset).getD 0 0
        if rangeOk (collSrc c q micro) (collSrcBytes v) && rangeOk (collDst c q micro) (collBytes v) then
          let w : Sender := ⟨p, v, op, x.desc, micro⟩
          let s2 := { s1 with coll := { s1.coll with runs := s1.coll.runs ++
            [{ op := op, desc := x.desc, micro := micro, panel := q, folded := [], written := 0, unacked := 0 }] } }
          let s3 := unlessAbandoned (issueSends w q (ownPart w q s2)) (fun t => takeBuffered t p x.desc micro)
          .next (returnCredits (finishRun s3 p op))
        else .fault .reservedAddress)

/-! ### COLL_FOLD (R67, R231) -/

/-- Values of an element size from bytes. -/
def splitVals (k : Nat) (bs : List Byte) : List Nat := (chunks k (bs.length / k) bs).map leNat

/-- The fold of the ranks' bytes, in ascending rank order (R67). -/
def foldBytes (c : CollDesc) (n : Nat) (parts : List (List Byte)) : List Byte :=
  let vs := parts.map (fun b => splitVals (collElem c) (b.take n))
  (List.range (n / collElem c)).flatMap (fun i =>
    if c.elemL16 then
      leBytes 2 (reduceL16 (vs.map (fun v => BitVec.ofNat 16 (v.getD i 0)))).toNat
    else leBytes 4 (reduceF32 (vs.map (fun v => BitVec.ofNat 32 (v.getD i 0)))).toNat)

/-- The contribution of a position for a segment of this rank's shard. -/
def contribOf (s : State) (desc micro seg rank : Nat) : Option (List Byte) :=
  (s.coll.buffer.find? (fun c => c.head.desc == desc && c.head.micro == micro && c.head.phase == 0 &&
    c.head.segment == seg && c.head.srcRank == rank)).map (fun c => c.bytes)

/-- The fold of one segment with its parts present: DST, and the gathered result of an all-reduce. -/
def foldSegment (w : Sender) (r : CollRun) (seg n : Nat) (parts : List (List Byte)) (s : State) : State :=
  let bs := foldBytes w.v.c n parts
  let off := (if w.v.c.op = 2 then shardOff w.v w.v.pos else 0) + segBytes * seg
  let keep := fun (c : Contrib) => !(c.head.desc == w.desc && c.head.micro == w.micro && c.head.phase == 0 &&
    c.head.segment == seg)
  let s1 := collWrite s r.op (collDst w.v.c r.panel r.micro + off) bs
  let s2 := modRun { s1 with coll := { s1.coll with buffer := s1.coll.buffer.filter keep } } r.op
    (fun c => { c with folded := c.folded ++ [seg] })
  if w.v.c.op = 2 then
    (w.v.gs.filter (fun g => g != w.p.plan.rank)).foldl (fun t g => sendSegment w 1 g seg bs t) s2
  else s2

/-- COLL_FOLD (R231): every position's contribution to a segment of the owned shard has arrived. -/
def execCollFold (desc micro segment : Nat) (s : State) : Out :=
  whenRunning s (fun p =>
    match s.coll.runs.find? (fun r => r.desc == desc && r.micro == micro), (collOf p desc).bind (collView p) with
    | some r, some v =>
      let n := min segBytes (shardLen v v.pos - segBytes * segment)
      let own := readBytes s (collSrc v.c r.panel micro + shardOff v v.pos + segBytes * segment) n
      let parts := v.gs.map (fun g => if g = p.plan.rank then some own.1 else contribOf s desc micro segment g)
      if (v.c.op = 0 ∨ v.c.op = 2) ∧ segment < segCount (shardLen v v.pos) ∧ r.folded.contains segment = false
          ∧ parts.all Option.isSome = true then
        .next (returnCredits (finishRun (unlessAbandoned own.2 (foldSegment ⟨p, v, r.op, desc, micro⟩ r segment n (parts.filterMap id))) p r.op))
      else noEvent s
    | _, _ => noEvent s)

end Sys2Proof.Machine
end

