-- ==== Sys2Proof/Machine/Restore.lean ====
section
/-! DEFINITION. Restore: the manifest and its checks, image writes, chunk digests, the commit (R305, R306,
R310 to R314, R316). -/

namespace Sys2Proof.Machine

open Sys2Proof.Config

/-! ### The manifest (R305) -/

/-- Chunk entry j of a manifest whose entries begin at C. -/
def readChunk (bs : List Byte) (c j : Nat) : Chunk :=
  let o := c + 64 * j
  { off := wordAt bs o + 2 ^ 32 * fieldOf (wordAt bs (o + 4)) 0 8, region := fieldOf (wordAt bs (o + 4)) 16 16
    entry := 0, len := fieldOf (wordAt bs (o + 8)) 0 23, index := wordAt bs (o + 12)
    digest := beNat ((bs.drop (o + 16)).take 48), st := 0 }

/-- LEN of a chunk entry: 64 to 4 MiB, a multiple of 64. -/
def chunkLenOk (c : Chunk) : Bool := decide (64 ≤ c.len) && decide (c.len ≤ chunkBytes4M) && c.len % 64 == 0

/-- Chunk entries in ascending image offset. -/
def ascendingOffsets : List Chunk → Bool
  | a :: b :: t => decide (a.off + a.len ≤ b.off) && ascendingOffsets (b :: t)
  | _ => true

/-- A manifest read from its bytes. -/
def readManifest (bs : List Byte) : Manifest :=
  let ns := fieldOf (wordAt bs 0x18) 16 9
  let nc := wordAt bs 0x1C
  let c := 0x90 + 8 * ns
  let certLen := fieldOf (wordAt bs 0x2C) 0 16
  let e := c + 64 * nc + roundUp certLen 8
  let cs := (List.range (min nc (bs.length / 64))).map (readChunk bs c)
  let rank := fieldOf (wordAt bs 0x18) 0 8
  let nranks := fieldOf (wordAt bs 0x18) 8 8
  let layout := fieldOf (wordAt bs 4) 9 2
  { ok := wordAt bs 0 == 0x4B57534E && fieldOf (wordAt bs 4) 0 8 == 1 && decide (ns ≤ 256) && decide (rank < nranks)
      && decide (nranks ≤ 72) && decide (layout ≤ 2) && bs.length == e + 96 && cs.all chunkLenOk && ascendingOffsets cs
    portable := bitOf (wordAt bs 4) 8, layout := layout, snapId := wordAt bs 8, step := wordAt bs 0xC
    rank := rank, nranks := nranks, variant := fieldOf (wordAt bs 0x28) 0 6
    pkgDigest := beNat ((bs.drop 0x30).take 48), baseDigest := beNat ((bs.drop 0x60).take 48)
    streams := (List.range (min ns 256)).map (fun i =>
      (fieldOf (wordAt bs (0x90 + 8 * i)) 0 8, fieldOf (wordAt bs (0x90 + 8 * i)) 8 2, wordAt bs (0x94 + 8 * i)))
    chunks := cs, cert := (bs.drop (c + 64 * nc)).take certLen, signature := (bs.drop e).take 96, signed := bs.take e }

/-- DATA_NEXT of a stream: the override, or the manifest's (R312). -/
def dataNext (r : RestoreRun) (e : Nat × Nat × Nat) : Nat :=
  match (r.overrides.getD []).find? (fun o => o.1 == e.1) with
  | some o => o.2
  | none => e.2.2

/-- The step a restore gives: s, or d where the positions agree on d (R312). -/
def restoreStep (r : RestoreRun) (m : Manifest) : Option Nat :=
  match m.streams.map (fun e => ((dataNext r e : Int) - (e.2.1 : Int))) with
  | [] => some m.step
  | d :: ds =>
    if ds.all (fun x => x == d) && (d == (m.step : Int) || r.authoritative) && decide (0 ≤ d) then some d.toNat else none

/-- The entries of the region map that a native manifest's chunks fill, in their order (R302, R304). -/
def placedChunks (p : Package) (m : Manifest) : Option (List Chunk) :=
  match m.chunks with
  | [] => none
  | b :: _ =>
    let want := (stateEntries p).foldl (fun cs e => cs ++ cutEntry (chunksLen cs) e.2.number e.1 (entryBytes e.2))
      [{ off := 0, region := 0xFFFF, entry := 0xFFFF, len := b.len, index := 0, digest := 0, st := 0 }]
    if m.chunks.map (fun c => (c.off, c.region, c.len, c.index)) = want.map (fun c => (c.off, c.region, c.len, c.index)) then
      some ((m.chunks.zip want).map (fun e => { e.1 with entry := e.2.entry }))
    else none

/-- The digest of the resident base region, zero if none. -/
def baseDigestOf (s : State) : Nat := match s.base with | some b => b.digest | none => 0

/-- The checks of R311, in their order: the first that fails. -/
def manifestFault (s : State) (p : Package) (r : RestoreRun) (m : Manifest) : Option Status :=
  if !m.ok then some .badManifest
  else if !(chainToRoot m.cert && verify (chainKey m.cert) m.signed m.signature) then some .authFailed
  else if m.snapId ≠ r.snapId then some .badManifest
  else if m.portable || m.layout != 0 then some .notRestorable
  else if m.pkgDigest ≠ p.rankDigest then some .packageMismatch
  else if m.baseDigest ≠ baseDigestOf s then some .baseMismatch
  else if m.rank ≠ p.plan.rank ∨ m.nranks ≠ p.plan.nranks then some .rankMismatch
  else if m.streams.map (fun e => (e.1, e.2.1)) ≠ ingestStreams p ∨ (placedChunks p m).isNone = true then some .badManifest
  else if (restoreStep r m).isNone then some .streamSkew
  else none

def modRest (s : State) (f : RestoreRun → RestoreRun) : State :=
  { s with snap := { s.snap with rest := s.snap.rest.map f } }

/-- Every byte of the manifest has arrived: it is checked (R311). -/
def checkManifest (s : State) : State :=
  match s.snap.rest, s.job.pkg with
  | some r, some p =>
    let m := readManifest (memBytes r.mbuf 0 r.mlen)
    (match manifestFault s p r m with
    | some st => failRestore s st []
    | none => modRest s (fun u => { u with
        man := some { m with chunks := (placedChunks p m).getD [] }, step := (restoreStep r m).getD m.step }))
  | _, _ => s

/-! ### Writes of a restore (R310, R313) -/

/-- Byte ranges that lie in [0, n) without a gap. -/
def coversTo (got : List (Nat × Nat)) (n : Nat) : Bool :=
  let step := fun (hi : Nat) => got.foldl (fun h g => if g.1 ≤ h then max h (g.1 + g.2) else h) hi
  decide (n ≤ (List.range (got.length + 1)).foldl (fun h _ => step h) 0)

/-- M: the target offset of image byte 0 (R310). -/
def imageStart (r : RestoreRun) : Nat := roundUp r.mlen 0x10000

/-- The chunk that holds the line at image offset o. -/
def chunkAt (m : Manifest) (o : Nat) : Option Nat := m.chunks.findIdx? (fun c => decide (c.off ≤ o) && decide (o + 64 ≤ c.off + c.len))

/-- Chunks received in part. -/
def openChunks (r : RestoreRun) (m : Manifest) : Nat :=
  ((m.chunks.zipIdx).filter (fun c => let n := (tabGet [] r.lines c.2).length
    decide (0 < n) && decide (64 * n < c.1.len))).length

/-- One line of the image: into its region, or the state block's place in the target. -/
def restoreLine (p : Package) (m : Manifest) (start o : Nat) (bs : List Byte) (s : State) : State :=
  match chunkAt m o with
  | none => s
  | some j =>
    let c := m.chunks.getD j ⟨0, 0, 0, 0, 0, 0, 0⟩
    let x := o - c.off
    let s1 := match p.regions[c.entry]? with
      | some r =>
        let a := entryAddr p r (chunkBytes4M * c.index + x)
        if inBase s a then jobFault s .baseWrite .baseWrite [] else rawWrite s a bs
      | none => modRest s (fun u => { u with mbuf := memPut u.mbuf (start + o) bs })
    modRest s1 (fun u =>
      let got := tabGet [] u.lines j
      { u with lines := if got.contains (x / 64) then u.lines else tabPut u.lines j (got ++ [x / 64]) })

/-- A WRITE to the image: refused where no chunk covers it, or where it would open a chunk too many. -/
def restoreImage (s : State) (p : Package) (r : RestoreRun) (m : Manifest) (o : Nat) (bs : List Byte) : Nat × State :=
  let os := (List.range (bs.length / 64)).map (fun i => o + 64 * i)
  if os.any (fun x => (chunkAt m x).isNone) then (1, s)
  else
    let fresh := ((os.filterMap (chunkAt m)).eraseDups).filter (fun j => (tabGet [] r.lines j).isEmpty)
    if 4096 < openChunks r m + fresh.length then (2, s)
    else
      (0, os.foldl (fun t x => restoreLine p m (imageStart r) x ((bs.drop (x - o)).take 64) t)
        { s with job := { s.job with invalid := true } })

/-- A WRITE to the restore target: its refusal code, 0 for none, and the state (R310, R311, R313). -/
def restoreWrite (s : State) (off : Nat) (bs : List Byte) : Nat × State :=
  match s.snap.rest, s.job.pkg with
  | some r, some p =>
    if bs.isEmpty then (0, s)
    else if off + bs.length ≤ roundUp r.mlen 64 then
      let r1 := { r with mbuf := memPut r.mbuf off bs, mgot := r.mgot ++ [(off, bs.length)] }
      let s1 := { s with snap := { s.snap with rest := some r1 } }
      (0, if r.man.isNone && coversTo r1.mgot r.mlen then checkManifest s1 else s1)
    else if off < imageStart r then (1, s)
    else match r.man with
      | none => (5, s)
      | some m => restoreImage s p r m (off - imageStart r) bs
  | _, _ => (5, s)

/-! ### Chunk digests and the commit (R313, R314) -/

/-- The bytes of a chunk read back through the decoder, and what the reading does. -/
def chunkBack (s : State) (p : Package) (r : RestoreRun) (c : Chunk) : List Byte × State :=
  match p.regions[c.entry]? with
  | none => (memBytes r.mbuf (imageStart r + c.off) c.len, s)
  | some e =>
    let v := viewMem s
    ((List.range c.len).map (fun i => memGet v (entryAddr p e (chunkBytes4M * c.index + i))),
     (List.range (ceilDiv c.len 64)).foldl (fun t i => touchRange t (entryAddr p e (chunkBytes4M * c.index + 64 * i)) 64) s)

/-- The state block of an image: this module's own by its bytes, or another's (R298). -/
def blockOf (s : State) (bs : List Byte) : SavedState :=
  match s.snap.blocks.find? (fun b => (List.range (stateLen b.block)).map (stateByte b.block) == bs) with
  | some b => b
  | none => foreignBlock bs

/-- Counters and flags of a memory unit (R203), the rest of it kept. -/
def restoreMemUnit (m b : MemUnit) : MemUnit :=
  { m with corrected := b.corrected, symbols := b.symbols, uncorrectable := b.uncorrectable
           scrubPasses := b.scrubPasses, retrains := b.retrains, ceRate := b.ceRate }

def restoreHub (h b : Hub) : Hub :=
  { h with selections := b.selections, checks := b.checks, skips := b.skips, ineligible := b.ineligible
           exceedances := b.exceedances, casesOverflow := b.casesOverflow, fenceWait := b.fenceWait }

def restoreShut (v : Shuttle) (c : List Nat) : Shuttle :=
  { v with cycles := c.getD 0 0, stitches := c.getD 1 0, idle := c.getD 2 0, creditWait := c.getD 3 0
           syncWaitPhys := c.getD 4 0, fenceHold := c.getD 5 0, gradePoints := c.getD 6 0, switches := c.getD 7 0
           gswPhys := c.getD 8 0, phys := c.getD 9 0, marks := c.getD 10 0 }

def restorePower (v : Power) (c : List Nat) : Power :=
  { v with pinches := c.getD 0 0, deferrals := c.getD 1 0, capWindows := c.getD 2 0, rampWindows := c.getD 3 0
           taken := c.getD 4 0, refusedN := c.getD 5 0, fixedExit := c.getD 6 0 == 1, capUnmet := c.getD 7 0 == 1
           deferred := c.getD 8 0 == 1 }

/-- Status counters and sticky flags (R314 order 4). -/
def restoreCounters (s : State) (b : SavedState) : State :=
  { s with
    panels := allPanels.map (fun q => (q, { panelOf s q with
      mat := tabGet {} b.mats q, ndl := tabGet {} b.ndls q
      spool := { (panelOf s q).spool with stat := tabGet {} b.spools q } }))
    hubs := (List.range sleeves).map (fun h => (h, restoreHub (hubOf s h) (tabGet {} b.hubs h)))
    health := { s.health with units := (List.range (panels + channels)).map (fun u =>
      (u, restoreMemUnit (memUnitOf s u) (tabGet {} b.memUnits u))) }
    ports := allPorts.map (fun q => (q, { portOf s q with stat := tabGet {} b.portStats q }))
    shut := restoreShut s.shut b.shut
    power := restorePower s.power b.power }

/-- The starting selection of a restored job: its recipe and recompute state at the grade that Apgiosh
chooses (R179, R314 order 6). -/
def restoredVariant (s : State) (p : Package) (f : FlowState) : Nat :=
  match variantOf p f.variant with
  | none => f.variant
  | some v => match selectFrom s (holding (compiled s p v.recipe v.recompute) f.gp) with
    | some e => e.1
    | none => ((lowestOf (holding (available s p) f.gp)).map Prod.fst).getD f.variant

/-- Variant and flow state (R314 order 6). -/
def restoreFlow (s : State) (p : Package) (f : FlowState) : State :=
  let i := restoredVariant s p f
  let a := match (variantOf p i).bind (fun v => v.points.getD f.gp none) with | some a => a | none => f.addr
  { s with shut := { s.shut with variant := i, selection := i, ctrs := f.ctrs, micro := f.micro, addr := a
                                 saved := { f with variant := i, addr := a }, inStep := false, cut := false, movers := []
                                 syncWait := 0 } }

/-- Changes of the recipe log at or after the restored step are applied again, with those that an earlier restart has
still to apply (R159). -/
def replayFrom (s : State) (step : Nat) : List RecipeLog :=
  if setting s 0x103 0 = 1 then (s.job.log ++ s.job.replay).filter (fun e => decide (step ≤ e.step)) else []

/-- WRITEs of a dataset flow that were accepted before a restore are discarded as they complete (R259). -/
def discardWrites (v : Flow) : Flow :=
  if v.kind = .dataset then { v with held := v.held.map (fun h => match h.act with
    | .write off _ => { h with act := .write off [] }
    | _ => h) }
  else v

/-- The commit of R314, with STREAM_RECOMPUTED of R312 and FILL_DONE of R316. A divergence found after the step was
abandoned applies to the restart (R163). -/
def commitRestore (s : State) (p : Package) (r : RestoreRun) (m : Manifest) : State :=
  let c := m.chunks.getD 0 ⟨0, 0, 0, 0, 0, 0, 0⟩
  let b := blockOf s (memBytes r.mbuf (imageStart r + c.off) c.len)
  let s1 := if r.step = m.step then s else raiseEv s srcHostEdge .streamRecomputed [m.step, r.step]
  let s2 := restoreCounters { s1 with host := { s1.host with slots := [] } } b
  let s3 := restoreFlow s2 p b.flow
  let s4 := { s3 with
    fence := {}
    job := { s3.job with
      step := r.step, fray := b.fray, frayOpen := b.fray, numeric := b.numeric, replay := replayFrom s r.step
      replayed := [], lateTags := [], log := b.log, wantRecipe := none, clearTags := [], wantRecompute := none, deficit := false, invalid := false
      held := true, fault := none, stepped := false }
    snap := { s3.snap with rest := none }
    host := { s3.host with flows := s3.host.flows.map (fun e => (e.1, discardWrites e.2)) } }
  let s5 := raiseEv (s.job.lateTags.foldl setNumeric s4) srcHostEdge .restoreDone []
  if s5.dev.st = .filling then
    raiseEv { s5 with dev := { s5.dev with st := .running }, snap := { s5.snap with filling := none } } srcThimble .fillDone []
  else s5

/-- RESTORE_CHUNK (R313): every line of a chunk has arrived; it is read back and compared, once the cases of an
abandoned step are resolved (R163). -/
def execRestoreChunk (chunk : Nat) (s : State) : Out :=
  match s.snap.rest, s.job.pkg with
  | some r, some p =>
    match r.man.bind (fun m => (m.chunks[chunk]?).map (fun c => (m, c))) with
    | none => noEvent s
    | some (m, c) =>
      if 64 * (tabGet [] r.lines chunk).length = c.len ∧ r.matched.contains chunk = false ∧ heldCases s = false then
        let back := chunkBack s p r c
        if back.2.snap.rest.isNone then .next back.2
        else if sha384 back.1 ≠ c.digest then .next (failRestore back.2 .digestMismatch [chunk])
        else
          let s1 := modRest back.2 (fun u => { u with matched := u.matched ++ [chunk] })
          let s2 := { s1 with snap := { s1.snap with chunksVerified := sat32 (s1.snap.chunksVerified + 1) } }
          .next (if (List.range m.chunks.length).all (fun j => j == chunk || r.matched.contains j) then
            commitRestore s2 p r m else s2)
      else noEvent s
  | _, _ => noEvent s

end Sys2Proof.Machine
end

