-- ==== Sys2Proof/Machine/Host.lean ====
section
/-! DEFINITION. Host ports and the hemline transport: frames, acceptance by PSN, fences, WRITE, READY and
CTRL packets, ACKs, timers and rate, closing and failing flows, doorbells (R237 to R259, R333 to R335). -/

namespace Sys2Proof.Machine

open Sys2Proof.Config

/-! ### Frames (R237 to R239, R254, R256) -/

def modStat (s : State) (e : Nat) (f : HostStat → HostStat) : State :=
  modHostPort s e (fun h => { h with stat := f h.stat })

/-- A frame received, with the codewords that FEC corrected in it. -/
def countRx (s : State) (e fec : Nat) : State :=
  modStat s e (fun t => { t with rxFrames := sat32 (t.rxFrames + 1), fecCorr := sat32 (t.fecCorr + fec) })

/-- Bytes of a receive buffer, and 75 % of them (R239). -/
def rxBytes : Nat := 0x400000
def rxMark : Nat := 0x300000

/-- The receive buffer holds `n` bytes; as it passes 75 %, a port with PFC_ENABLE sends a PFC frame for PFC_PRIO (R239). -/
def fillRx (s : State) (e low n : Nat) : State :=
  let h := hostPortOf s e
  let t := modHostPort s e (fun x => { x with rxFill := n })
  if min low h.rxFill ≤ rxMark ∧ rxMark < n ∧ setting s 0x134 e = 1 then answer t e 0 (.pfc (setting s 0x135 e)) else t

/-- A frame arrives and enters the receive buffer, if it has room (R239). -/
def takeFrame (s : State) (e fec : Nat) (f : FrameIn) : State :=
  fillRx (countRx s e fec) e f.fill (if rxBytes < f.fill + f.len then f.fill else f.fill + f.len)

/-- A frame arrives only on a port whose link is up. -/
def whenUp (s : State) (e : Nat) (k : State → Out) : Out :=
  if (hostPortOf s e).up then k (countRx s e 0) else noEvent s

/-- The counter of a check that failed (R254). -/
def countDrop (t : HostStat) : DropCause → HostStat
  | .fecUncorr => { t with fecUncorr := sat32 (t.fecUncorr + 1) }
  | .fcsErr => { t with fcsErr := sat32 (t.fcsErr + 1) }
  | .oversize => { t with oversize := sat32 (t.oversize + 1) }
  | .rxOverflow => { t with rxOverflow := sat32 (t.rxOverflow + 1) }
  | .other => { t with other := sat32 (t.other + 1) }
  | .vlan => { t with vlan := sat32 (t.vlan + 1) }
  | .notForUs => { t with notForUs := sat32 (t.notForUs + 1) }
  | .malformed => { t with malformed := sat32 (t.malformed + 1) }
  | .setupLimited => { t with setupLimited := sat32 (t.setupLimited + 1) }
  | .noFlow => { t with noFlow := sat32 (t.noFlow + 1) }
  | .authDrops => { t with authDrops := sat32 (t.authDrops + 1) }
  | .outOfWindow => { t with outOfWindow := sat32 (t.outOfWindow + 1) }

def dropFrame (s : State) (e : Nat) (c : DropCause) : State := modStat s e (fun t => countDrop t c)

/-- DROPPED_FRAME (R254). A frame that found no room left the receive buffer full (R239). -/
def execDroppedFrame (port : Nat) (c : DropCause) (s : State) : Out :=
  whenUp s port (fun t =>
    let t1 := dropFrame t port c
    .next (if c = .rxOverflow then fillRx t1 port rxBytes rxBytes else t1))

/-- The committed IP addresses of a port (R238, R349): IP_ADDR, 4 × port + n. -/
def portAddrs (s : State) (e : Nat) : List Nat :=
  (List.range 4).filterMap (fun n => match tabFind s.mgmt.settings (settingKey 0x137 (4 * e + n)) with
    | some v => if v.value = 0 ∧ v.ext = 0 then none else some (v.value % 2 ^ 32 + 2 ^ 32 * v.ext)
    | none => none)

/-- The IPv6 link-local address from the MAC address by modified EUI-64 (R238). -/
def linkLocal (e : Nat) : Nat :=
  let m := (macAddr e).toNat
  0xFE80 * 2 ^ 112 + (Nat.xor (m / 2 ^ 24) 0x020000 * 2 ^ 40 + 0xFFFE * 2 ^ 24 + m % 2 ^ 24)

/-- An IP address of the port (R238). -/
def portIp (s : State) (e a : Nat) : Bool := (portAddrs s e).contains a || a == linkLocal e

/-- The checks of R254 on any frame, in their order: its length, the receive buffer, the VLAN rule, the destination MAC
address. -/
def frameHead (s : State) (e : Nat) (f : FrameIn) : Option DropCause :=
  let vid := setting s 0x131 e
  if setting s 0x130 e < f.len then some .oversize
  else if rxBytes < f.fill + f.len then some .rxOverflow
  else if (if vid = 0 then f.vid.any (· != 0) else f.vid != some vid) then some .vlan
  else if !f.mac then some .notForUs
  else none

/-- The checks of R254 on the frame of a hemline packet with a payload of `n` bytes, in their order: the counter of the first
that fails. -/
def frameFault (s : State) (e n : Nat) (f : FrameIn) : Option DropCause :=
  match frameHead s e f with
  | some c => some c
  | none =>
    if !(portIp s e f.ip) || f.udp != setting s 0x136 e then some .notForUs
    else if f.udpLen ≠ n + 56 ∨ f.version ≠ 1 then some .malformed
    else none

/-- A frame without a hemline packet: dropped at the first check that fails, or taken (R254). -/
def withFrame (s : State) (x : PortFrame) (check : State → Option DropCause) (k : State → State) : Out :=
  if (hostPortOf s x.port).up then
    let t := takeFrame s x.port 0 x.frame
    .next (match check t with
      | some c => dropFrame t x.port c
      | none => k t)
  else noEvent s

/-- ARP (R237, R238): answered for an IPv4 address of the port, held as ::ffff:a.b.c.d. -/
def execArp (x : PortFrame) (target : Nat) (s : State) : Out :=
  withFrame s x (fun t => frameHead t x.port x.frame) (fun t =>
    if (portAddrs t x.port).contains (0xFFFF * 2 ^ 32 + target) then answer t x.port x.frame.src .arp else t)

/-- NEIGHBOR_DISCOVERY (R237, R238): answered for an IPv6 address of the port. -/
def execNeighborDiscovery (x : PortFrame) (target : Nat) (s : State) : Out :=
  withFrame s x (fun t => frameHead t x.port x.frame) (fun t =>
    if portIp t x.port target then answer t x.port x.frame.src .neighbor else t)

/-- The present second of a port, by the model's time base (log entry 8). -/
def rollSecond (s : State) (e : Nat) : State :=
  modHostPort s e (fun h => if h.second + 1000000 ≤ s.nowUs then
    { h with second := s.nowUs, echoes := 0, setupFrom := [] } else h)

/-- The checks on an echo request: the destination IP address is the port's (R254). -/
def echoFault (s : State) (x : PortFrame) : Option DropCause :=
  match frameHead s x.port x.frame with
  | some c => some c
  | none => if portIp s x.port x.frame.ip then none else some .notForUs

/-- ICMP_ECHO (R238). -/
def execIcmpEcho (x : PortFrame) (s : State) : Out :=
  withFrame s x (fun t => echoFault t x) (fun t0 =>
    let t := rollSecond t0 x.port
    if (hostPortOf t x.port).echoes < 100 then
      answer (modHostPort t x.port (fun h => { h with echoes := h.echoes + 1 })) x.port x.frame.src .echo
    else modHostPort t x.port (fun h => { h with echoDrops := h.echoDrops + 1 }))

/-- The checks on a PFC frame: its EtherType is taken with PFC_ENABLE only (R254). -/
def pfcFault (s : State) (x : PortFrame) : Option DropCause :=
  if setting s 0x130 x.port < x.frame.len then some .oversize
  else if rxBytes < x.frame.fill + x.frame.len then some .rxOverflow
  else if setting s 0x134 x.port ≠ 1 then some .other
  else frameHead s x.port x.frame

/-- PFC (R239, R254): obeyed for the priorities in PFC_PRIO. -/
def execPfc (x : PortFrame) (mask : Nat) (s : State) : Out :=
  withFrame s x (fun t => pfcFault t x) (fun t => setPaused t x.port (Nat.land mask (setting t 0x135 x.port)))

/-- The host ports can be up: from step 7 of start-up, in HIBERNATE, and under a recovery image (R379, R382, R383). -/
def hostLanes (s : State) : Bool :=
  s.pins.pwrGood && (decide (7 ≤ s.pins.startup) || s.dev.st == .hibernate || runsRecovery s)

/-- HOST_LINK_UP (R258). -/
def execHostLinkUp (port : Nat) (s : State) : Out :=
  if hostLanes s then .next (modHostPort s port (fun h => { h with up := true, lost := false })) else noEvent s

/-- HOST_LINK_DOWN (R244): flows stay and retransmit. -/
def execHostLinkDown (port : Nat) (s : State) : Out :=
  if (hostPortOf s port).up then
    .next (setCause (raiseEv (modHostPort s port (fun h => { h with up := false, lost := true, paused := 0, waiting := [] })) (srcHost port)
      .hostLinkDown []) .hostLink)
  else noEvent s

/-! ### Doorbells (R334, R335) -/

/-- The message codes of R341 and R380. -/
def opKnown (op : Nat) : Bool :=
  let within := fun (lo hi : Nat) => decide (lo ≤ op) && decide (op ≤ hi)
  op == 1 || within 0x100 0x109 || within 0x200 0x202 || within 0x300 0x302 || within 0x400 0x407
    || within 0x500 0x504 || within 0x600 0x605 || within 0x700 0x709 || within 0x800 0x801 || within 0x900 0x90A

/-- The request at the head of the line leaves those that wait to start. -/
def takeRing (s : State) (m : Nat) : State :=
  modBox { s with mgmt := { s.mgmt with rings := s.mgmt.rings.drop 1 } } m (fun b => { b with rung := false })

/-- MB_RING (R335): the request joins those that wait to start. One of an unknown OP is answered in its turn, at once where none
waits before it (R338; log entry 42). -/
def ringBox (s : State) (m sid : Nat) : State :=
  let prov := (tabFind s.host.sessions sid).any (fun v => v.provisioning)
  let s1 := modBox s m (fun b => { b with st := .busy sid, rung := true, provisioning := prov })
  let s2 := { s1 with mgmt := { s1.mgmt with rings := s1.mgmt.rings ++ [m] } }
  if s.mgmt.rings.isEmpty && !(opKnown (reqOp (boxOf s m))) then replyBad (takeRing s2 m) m .badOpcode 0 0 else s2

/-- A request in mailbox m that still waits is ended and changes nothing (R335). -/
def abortWait (s : State) (m : Nat) : WaitPoint → State
  | .commit => replyBad { s with mgmt := { s.mgmt with txn := { number := s.mgmt.txn.number } } } m .aborted 0 0
  | .jobEnd =>
    if s.job.ending.isSome && !s.job.endDue then
      let last := (boxesAt s .jobEnd).all (fun k => k == m)
      replyBad { s with job := { s.job with ending := if last then none else s.job.ending } } m .aborted 0 0
    else s
  | .mark _ => replyBad s m .aborted 0 0
  | .fitting => replyBad s m .aborted 0 0
  | .snapshot =>
    if s.snap.snap.any (fun n => !n.captured && n.mailbox == m) then
      replyBad { s with snap := { s.snap with snap := none } } m .aborted 0 0
    else s

/-- MB_ABORT (R335): ignored unless the request still waits for its point, or to start. -/
def abortBox (s : State) (m : Nat) : State :=
  let b := boxOf s m
  match b.st with
  | .busy _ =>
    if b.rung then replyBad { s with mgmt := { s.mgmt with rings := s.mgmt.rings.filter (fun x => x != m) } } m .aborted 0 0
    else match b.waits with
      | some w => abortWait s m w
      | none => s
  | _ => s

/-- MB_ABORT (R335). -/
def execMbAbort (mailbox : Nat) (s : State) : Out := .next (abortBox s mailbox)

/-- MAILBOX_CLAIM_TIMEOUT (R334). -/
def execMailboxClaimTimeout (mailbox : Nat) (s : State) : Out :=
  match (boxOf s mailbox).st with
  | .claimed _ => .next (freeBox s mailbox)
  | _ => noEvent s

/-! ### What packets do (R247, R251, R310, R333, R334, R342) -/

/-- The INGEST stream of a number (R250). -/
def ingestStream (p : Package) (k : Nat) : Option StreamDesc :=
  p.descs.findSome? (fun d => match d with
    | .stream v => if v.emit = false ∧ v.stream = k then some v else none
    | _ => none)

/-- Bytes of the resident base region (R21). -/
def meetsBase (s : State) (a n : Nat) : Bool :=
  s.base.any (fun b => decide (b.start < a + n) && decide (a < b.start + b.len))

/-- A WRITE into a load window (R342, R377). A package that would lie over the resident base is not written (R21). A base load that reaches the resident base region replaces it
(R21); the first byte of an image leaves no verified image in the inactive slot (R381). -/
def windowWrite (s : State) (w : LoadWindow) (off : Nat) (bs : List Byte) : Nat × State :=
  if w.len < off + bs.length then (1, s)
  else
    let w1 := { w with got := w.got ++ [(off, bs.length)] }
    match w.kind with
    | 0 =>
      if (bs.zipIdx).any (fun b => meetsBase s (snapShareAddr s (off + b.2)) 1) then (5, s)
      else (0, (bs.zipIdx).foldl (fun t b => rawWrite t (snapShareAddr t (off + b.2)) [b.1]) { s with load := some w1 })
    | 1 =>
      let hits := meetsBase s (w.start + off) bs.length
      (0, rawWrite { s with load := some w1, base := if hits then none else s.base } (w.start + off) bs)
    | _ => (0, { s with
        load := some { w1 with buf := memPut w1.buf off bs }
        fw := { s.fw with committed := false, slotA := if s.fw.active = 1 then none else s.fw.slotA
                          slotB := if s.fw.active = 1 then s.fw.slotB else none } })

/-- A WRITE into the slots of a stream (R251); it does not reach the resident base (R21). -/
def slotWrite (s : State) (d : StreamDesc) (off : Nat) (bs : List Byte) : Nat × State :=
  if d.slots * d.slotBytes < off + bs.length then (1, s)
  else
    let ks := (List.range ((off + bs.length - 1) / d.slotBytes - off / d.slotBytes + 1)).map (fun i =>
      slotKey d.stream (off / d.slotBytes + i))
    let busy := ks.any (fun k => match tabFind s.host.slots k with | some (.held _) => true | _ => false)
    if busy then (2, s)
    else (0, storeBytes { s with host := { s.host with slots := ks.foldl (fun t k => tabPut t k .filling) s.host.slots } }
      (256 * d.region + off) bs)

/-- A WRITE (R242, R245, R247): refused whole, or written whole. -/
def writeEffect (s : State) (v : Flow) (off : Nat) (bs : List Byte) : Nat × State :=
  if bs.isEmpty then (0, s)
  else if v.payload < bs.length ∨ off % 64 ≠ 0 ∨ bs.length % 64 ≠ 0 then (1, s)
  else if v.kind ≠ .dataset then (5, s)
  else if v.window then (match s.load with | some w => windowWrite s w off bs | none => (5, s))
  else if s.snap.rest.any (fun r => r.stream == v.stream) then restoreWrite s off bs
  else match s.job.pkg.bind (fun p => ingestStream p v.stream) with
    | some d => slotWrite s d off bs
    | none => (5, s)

/-- A READY (R251, R310): a window or a restore stream takes only WRITEs. -/
def readyEffect (s : State) (v : Flow) (step count : Nat) : Nat × State :=
  if v.kind ≠ .dataset then (5, s)
  else if v.window || s.snap.rest.any (fun r => r.stream == v.stream) then (3, s)
  else match s.job.pkg.bind (fun p => ingestStream p v.stream) with
    | none => (5, s)
    | some d =>
      let k := slotKey d.stream (slotOfStep d step)
      if step < s.job.step then (4, s)
      else if s.job.step + d.slots ≤ step then (7, s)
      else match tabFind s.host.slots k with
        | some (.held _) => (2, s)
        | _ =>
          if d.records < count then (1, s)
          else if count < d.records then (3, s)
          else (0, { s with host := { s.host with slots := tabPut s.host.slots k (.held step) } })

/-- A CTRL packet (R333 to R335). -/
def ctrlEffect (s : State) (v : Flow) (m : Nat) (ring abort : Bool) (off : Nat) (bs : List Byte) : Nat × State :=
  let b := boxOf s m
  let put := fun (t : State) =>
    let t1 := modBox t m (fun x => { x with st := .claimed v.session, req := memPut x.req off bs })
    if ring then ringBox t1 m v.session else t1
  let idle := bs.isEmpty && !ring
  if v.kind ≠ .ctrl then (5, s)
  else if 4096 < off + bs.length then (1, s)
  else match b.st with
    | .free => (0, if idle then s else put s)
    | .claimed n => if n = v.session then (0, if idle then s else put s) else (5, s)
    | .busy n => if n = v.session ∧ idle = true then (0, if abort then abortBox s m else s) else (5, s)

/-- A CLOSE received (R244): a flow with nothing outstanding and nothing held is FREE at once. -/
def closeEffect (s : State) (f : Nat) (v : Flow) : State :=
  closeIfDone (setFlow s f { v with st := .closing, reason := if v.st == .closing then v.reason else .asked }) f

/-- What a packet does when it takes effect: its NAK code, and the state. A window flow carries only WRITEs (R243): a FENCE
on it is answered NOT_WRITABLE (log entry 32). -/
def actEffect (s : State) (f : Nat) (v : Flow) : PktAct → Nat × State
  | .write off bs => writeEffect s v off bs
  | .ready step count => readyEffect s v step count
  | .fence => (if v.window then 5 else 0, s)
  | .ctrl m ring abort off bs => ctrlEffect s v m ring abort off bs
  | .close => (0, closeEffect s f v)

/-! ### Fences (R247, R248, R335) -/

def isRing : PktAct → Bool | .ctrl _ ring _ _ _ => ring | _ => false
def isWrite : PktAct → Bool | .write _ _ | .ctrl _ _ _ _ _ => true | _ => false
def isFence : PktAct → Bool | .fence => true | _ => false

/-- Whether a held packet's fences are met in its flow: every packet below it has been received and no write
below it is still held (R247); for FENCE_ALL the writes it found accepted on other flows have taken effect
(R248). -/
def fenceMet (s : State) (v : Flow) (h : HeldPkt) : Bool :=
  if h.fenceW || h.fenceAll || isRing h.act then
    decide (h.psn < v.cum) && !(v.held.any (fun g => decide (g.psn < h.psn) && isWrite g.act)) &&
      (!h.fenceAll || !(h.deps.any (fun d => match flowOf s d.1 with
        | some w => w.held.any (fun g => g.psn == d.2)
        | none => false)))
  else true

/-- A FENCE_ALL packet still held keeps the later packets of its flow (R248). -/
def behindFence (v : Flow) (psn : Nat) : Bool := v.held.any (fun g => g.fenceAll && decide (g.psn < psn))

/-- A packet takes effect: a refusal sends an ACK with its code, a fence one with FENCE_DONE (R245). -/
def takeEffect (s : State) (f : Nat) (h : HeldPkt) : State :=
  match flowOf s f with
  | none => s
  | some v =>
    let r := actEffect s f v h.act
    if r.1 ≠ 0 then sendAck r.2 f (some (r.1, h.psn))
    else if h.fenceW || h.fenceAll || isFence h.act then
      sendAck (modFlow r.2 f (fun w => { w with fenceDone := max w.fenceDone h.psn })) f none
    else r.2

/-- A packet leaves those held and takes effect. -/
def releaseHeld (s : State) (f : Nat) (h : HeldPkt) : State :=
  takeEffect (modFlow s f (fun w => { w with held := w.held.filter (fun g => g.psn != h.psn) })) f h

/-- What a flow has accepted and still holds takes effect in PSN order before it goes FREE: with the flow its fences end
(R245, R248, R259; DESIGN CHOICE, log entry 73). A CTRL flow's session and mailboxes end with it. -/
def settleHeld (s : State) (f : Nat) : State :=
  match flowOf s f with
  | none => s
  | some v => (v.held.filter (fun h => v.kind != .ctrl || (isWrite h.act && !h.fenceW && !h.fenceAll && !(isRing h.act)))).foldl
      (fun t h => releaseHeld t f h) s

/-- A flow goes FREE without a CLOSE (R244). -/
def endFlow (s : State) (f : Nat) : State := freeFlow (settleHeld s f) f

/-- Packets that waited only behind a FENCE_ALL, in PSN order. -/
def releaseBehind : Nat → Nat → State → State
  | 0, _, s => s
  | n + 1, f, s =>
    match flowOf s f with
    | none => s
    | some v =>
      match v.held.find? (fun h => !(behindFence v h.psn) && !h.fenceW && !h.fenceAll && fenceMet s v h) with
      | some h => releaseBehind n f (releaseHeld s f h)
      | none => s

/-- A packet is held in PSN order, and counted (R256). -/
def holdPkt (v : Flow) (h : HeldPkt) : Flow :=
  let held := v.held.filter (fun g => decide (g.psn < h.psn)) ++ [h] ++ v.held.filter (fun g => decide (h.psn < g.psn))
  bumpCount { v with held := held } 4 1

/-- The writes of the session's other flows that are accepted and have not taken effect (R248). -/
def otherWrites (s : State) (f : Nat) (v : Flow) : List (Nat × Nat) :=
  (s.host.flows.filter (fun e => e.1 != f && e.2.session == v.session)).flatMap (fun e =>
    (e.2.held.filter (fun h => isWrite h.act)).map (fun h => (e.1, h.psn)))

/-- An accepted packet takes effect, or is held. -/
def arrivePkt (s : State) (f : Nat) (psn : Nat) (fw fa : Bool) (a : PktAct) : State :=
  match flowOf s f with
  | none => s
  | some v =>
    let h : HeldPkt := { psn := psn, fenceW := fw, fenceAll := fa, deps := if fa then otherWrites s f v else [], act := a }
    if !(behindFence v psn) && fenceMet s v h then takeEffect s f h else setFlow s f (holdPkt v h)

/-! ### Acceptance (R245, R254) -/

/-- CUM moves over the PSNs received beyond it. -/
def moveCum : Nat → Nat → List Nat → Nat × List Nat
  | 0, c, xs => (c, xs)
  | n + 1, c, xs => if xs.contains c then moveCum n (c + 1) (xs.filter (fun x => x != c)) else (c, xs)

/-- A packet is accepted: it counts for CUM, SACK and ECE. -/
def acceptPsn (v : Flow) (psn : Nat) (ce : Bool) : Flow :=
  let m := moveCum (v.sack.length + 1) v.cum (v.sack ++ [psn])
  { v with cum := m.1, sack := m.2, unacked := v.unacked + 1, ece := min 0xFFFF (v.ece + boolNat ce) }

/-- Whether a session accepts an epoch (R373). -/
def epochOk (s : State) (sid ep : Nat) : Bool :=
  match tabFind s.host.sessions sid with
  | none => false
  | some v => v.epoch == ep || v.grace == some ep

/-- An ACK that is due: on ACK_REQ, on a gap, or after 16 packets (R245). -/
def ackIfDue (s : State) (f : Nat) (now : Bool) : State :=
  match flowOf s f with
  | none => s
  | some v => if 16 ≤ v.unacked ∨ (now = true ∧ 0 < v.unacked) then sendAck s f none else s

/-- A PSN that passes 0x8000_0000 makes the device update the session's key (R373). -/
def psnEpoch (s : State) (v : Flow) (psn : Nat) : State :=
  if psn = 0x80000000 then sendKeyUpdate s v.session else s

/-! ### Rate (R242, R246) -/

/-- The largest PAYLOAD for the MTU of a port (R242). -/
def payloadOf (s : State) (e : Nat) : Nat :=
  ((([8192, 4096, 2048, 1024].filter (fun p => decide (p + 118 ≤ setting s 0x130 e))) ++ [512]).headD 512)

/-- R_MAX, bytes/s: the port's payload rate (R242). -/
def rMax (s : State) (e : Nat) : Rat := (100000000000 * payloadOf s e : Nat) / (payloadOf s e + 138 : Nat)

/-- 0.1 GB/s (R246). -/
def rFloor : Rat := 100000000

/-- Step 3 of R246: an ACK with ECE > 0. -/
def slowDown (now : Nat) (v : Flow) : Flow :=
  let due := match v.lowered with | none => true | some t => decide (t + max v.rtt 20 ≤ now)
  if due then { v with rate := max rFloor (v.rate * (1 - v.alpha / 2)), lowered := some now, good := 0 } else { v with good := 0 }

/-- RATE_PERIOD (R246): α, and the rise of R after a period with F = 0. A period in which no packet was acknowledged has F = 0
(log entry 73). -/
def execRatePeriod (flow : Nat) (s : State) : Out :=
  match flowOf s flow with
  | none => noEvent s
  | some v =>
    let F : Rat := if v.perAcked = 0 then 0 else (v.perEce : Rat) / (v.perAcked : Rat)
    let a := v.alpha * 15 / 16 + F / 16
    let n := if F = 0 then v.good + 1 else 0
    let up : Rat := if n = 0 then 0 else if n ≤ 8 then 1 / 100 else 8 / 100
    let m := rMax s v.port
    .next (setFlow s flow { v with alpha := a, good := n, perAcked := 0, perEce := 0, rate := min m (v.rate + up * m) })

/-- RETRANSMIT_TIMEOUT (R246): the oldest packet is sent again; R falls, which counts as a lowering for step 3. -/
def execRetransmitTimeout (flow : Nat) (s : State) : Out :=
  match flowOf s flow with
  | some v =>
    match v.out with
    | [] => noEvent s
    | t :: _ =>
      let w := bumpCount { v with rate := max rFloor (v.rate / 2), lowered := some s.nowUs, backoff := v.backoff + 1, good := 0 } 1 1
      .next (resend (setFlow s flow w) flow t)
  | none => noEvent s

/-! ### ACK (R245, R246) -/

/-- CUM plus 1. CUM 0xFFFF_FFFF means that no packet has been received in order: no packet that is acknowledged has that
PSN. -/
def ackCum (b : AckBody) : Nat := if b.cum = 0xFFFFFFFF then 0 else b.cum + 1
/-- Whether an ACK covers a PSN. -/
def ackCovers (b : AckBody) (psn : Nat) : Bool :=
  decide (psn < ackCum b) || b.sack.any (fun i => ackCum b + i == psn)

/-- Missing packets with three higher PSNs marked are sent again (R246). -/
def resends (b : AckBody) (left : List TxPkt) : List TxPkt :=
  left.filter (fun t => decide (3 ≤ (b.sack.filter (fun i => decide (t.psn < ackCum b + i))).length))

/-- A mailbox whose reply is fully acknowledged becomes FREE (R334). -/
def freeAcked (s : State) (m : Nat) : State :=
  let live := s.host.flows.any (fun e => e.2.out.any (fun t => match t.kind with | .reply k _ => k == m | _ => false))
  if (boxOf s m).sent.isSome && !live then freeBox s m else s

/-- What the acknowledgement of one packet completes: a reply, a pushed note (R334, R362). -/
def pktAcked (s : State) (t : TxPkt) : State :=
  match t.kind with
  | .reply m _ => freeAcked s m
  | .push q n => setNoteQueue s q { noteQueueOf s q with notes := (noteQueueOf s q).notes.filter (fun x => x.seq != n) }
  | _ => s

/-- An ACK of a flow: packets retired, refusals counted, resends, rate. -/
def ackFlow (s : State) (f : Nat) (v : Flow) (b : AckBody) : State :=
  let done := v.out.filter (fun t => ackCovers b t.psn)
  let left := v.out.filter (fun t => !(ackCovers b t.psn))
  let again := resends b left
  let r := takeFree s
  let v1 := { v with out := left, perAcked := v.perAcked + done.length, perEce := v.perEce + b.ece
                     backoff := if done.isEmpty then v.backoff else 0
                     rtt := if done.isEmpty then v.rtt else r.1.toNat % 2 ^ 32 }
  let v2 := bumpCount (bumpCount (bumpCount v1 1 again.length) 2 b.ece) 3 (if b.nakCode = 0 then 0 else 1)
  let v3 := if b.ece = 0 then v2 else slowDown s.nowUs v2
  let s0 := if done.isEmpty then s else r.2
  let s1 := again.foldl (fun t x => resend t f x) (setFlow s0 f v3)
  let s2 := done.foldl pktAcked s1
  closeIfDone (pumpEmits (snapAcks s2)) f

/-! ### Flows that fail or end (R244, R253, R373) -/

/-- What a flow had not had acknowledged goes back to its EMIT and to the snapshot (R253, R304). -/
def requeue (s : State) (f : Nat) : State :=
  match flowOf s f with
  | none => s
  | some v =>
    let s1 := setFlow s f { v with out := v.out.filter (fun t => match t.kind with
      | .emitData _ _ _ | .chunk _ _ _ | .manifest _ _ => false
      | _ => true) }
    v.out.foldl (fun t x => match x.kind with
      | .emitData op off _ =>
        (match (opOf t op).map MovOp.kind with
        | some (.emit n d us fin) => setOp t op (.emit n d (us ++ [(off, x.payload)]) fin)
        | _ => t)
      | .chunk j off len => modSnap t (fun n => { n with unsent := n.unsent ++ [(j, off, len)] })
      | .manifest off len => modSnap t (fun n => { n with unsent := n.unsent ++ [(n.chunks.length, off, len)] })
      | _ => t) s1

/-- The mailbox of a session that has ended (R334). -/
def endBox (sid : Nat) (b : Mailbox) : Mailbox :=
  match b.st with
  | .free => b
  | .claimed n => if n = sid then { reply := b.reply } else b
  | .busy n => if n = sid then (if b.sent.isSome then { reply := b.reply } else { b with orphan := true }) else b

/-- A session ends (R334, R346, R363, R373): its flows and mailboxes are free, an OPEN transaction of its own
is discarded, its watches end. -/
def endSession (s : State) (sid : Nat) : State :=
  let fs := (s.host.flows.filter (fun e => e.2.session == sid)).map Prod.fst
  let s1 := fs.foldl (fun t f => endFlow (requeue t f) f) s
  let t := s1.mgmt.txn
  let s2 := { s1 with
    host := { s1.host with sessions := tabErase s1.host.sessions sid }
    mgmt := { s1.mgmt with
      boxes := s1.mgmt.boxes.map (fun e => (e.1, endBox sid e.2))
      txn := if t.st = .opened ∧ t.owner = sid then { number := t.number } else t
      notes := s1.mgmt.notes.map (fun e => (e.1, if e.2.watcher = some sid then { e.2 with watcher := none } else e.2)) } }
  tryEndJob (pumpSnap (pumpEmits (raiseEv s2 srcThimble .sessionEnd [])))

/-- A session whose CTRL flow has gone FREE ends with it (R243, R373). -/
def sweepSessions (s : State) : State :=
  (s.host.sessions.filter (fun e => !((flowOf s e.2.ctrl).any (fun v => v.session == e.1)))).foldl (fun t e => endSession t e.1) s

/-- A restore whose stream has no OPEN flow left as one fails ends; RESTORE may be sent again (R317; the status is log entry
49's). -/
def starveRestore (s : State) (v : Flow) : State :=
  if v.kind == .dataset && s.snap.rest.any (fun r => r.stream == v.stream) && (openFlows s .dataset v.stream).isEmpty then
    failRestore s .aborted []
  else s

/-- An OPEN flow fails (R244): FLOW_FAILED; its data goes to the remaining flows, and a failed CTRL flow ends
its session (R373). -/
def failFlow (s : State) (f : Nat) (v : Flow) : State :=
  let s0 := raiseEv (modFlow (requeue s f) f (fun w => { w with st := .failed, out := [] })) srcHostEdge .flowFailed []
  let s1 := starveRestore s0 v
  if v.kind = .ctrl then endSession s1 v.session else tryEndJob (pumpSnap (pumpEmits s1))

/-- The snapshot has only failed flows (R318). -/
def snapStarved (s : State) (f : Nat) : Bool :=
  match s.snap.snap with
  | none => false
  | some n => n.flows.contains f && (snapFlows s n).isEmpty

/-- FLOW_TIMEOUT (R244, R318): no progress on an OPEN or CLOSING flow; on a failed flow named by a snapshot
with no open flow left, the snapshot fails. -/
def execFlowTimeout (flow : Nat) (s : State) : Out :=
  match flowOf s flow with
  | none => noEvent s
  | some v =>
    match v.st with
    | .opened => if v.out.isEmpty then noEvent s else .next (failFlow s flow v)
    | .closing => .next (sweepSessions (tryEndJob (pumpSnap (pumpEmits (closeFlow (settleHeld (requeue s flow) flow) flow)))))
    | .failed => if snapStarved s flow then .next (tryEndJob (failSnapshot s 3)) else noEvent s

/-! ### Fences and ACKs that come due (R245, R247, R248) -/

/-- FENCE_W (R247): a held packet takes effect once every write below it has. A packet with RING waits in the
same way (R335). -/
def execFenceW (flow psn : Nat) (s : State) : Out :=
  match (flowOf s flow).bind (fun v => (v.held.find? (fun h => h.psn == psn)).map (fun h => (v, h))) with
  | some (v, h) =>
    if (h.fenceW || isRing h.act) && !h.fenceAll && !(behindFence v psn) && fenceMet s v h then
      .next (sweepSessions (closeIfDone (releaseHeld s flow h) flow))
    else noEvent s
  | none => noEvent s

/-- FENCE_ALL (R248): the packets behind it follow. -/
def execFenceAll (flow psn : Nat) (s : State) : Out :=
  match (flowOf s flow).bind (fun v => (v.held.find? (fun h => h.psn == psn)).map (fun h => (v, h))) with
  | some (v, h) =>
    if h.fenceAll && !(behindFence v psn) && fenceMet s v h then
      .next (sweepSessions (closeIfDone (releaseBehind v.held.length flow (releaseHeld s flow h)) flow))
    else noEvent s
  | none => noEvent s

/-- ACK_DELAY_EXPIRY (R245). -/
def execAckDelayExpiry (flow : Nat) (s : State) : Out :=
  match flowOf s flow with
  | some v => if 0 < v.unacked then .next (sweepSessions (sendAck s flow none)) else noEvent s
  | none => noEvent s

/-! ### Packets received (R244, R245, R254) -/

/-- The tag of a packet is that of its session's traffic key (R240, R372). -/
def authentic (s : State) (v : Flow) (k : Pkt) (t : HemType) (bs : List Byte) : Bool :=
  k.tag == pktTag (prkOf s v.session) k t bs

/-- The checks of R254 before the PSN: the frame, the flow and its far address, its authentication. A tag that fails on a CTRL
flow ends its session (R244; log entry 73). -/
def withFlow (s : State) (k : Pkt) (t : HemType) (bs : List Byte) (g : State → Flow → State) : Out :=
  if (hostPortOf s k.port).up then
    let s1 := takeFrame s k.port k.fec k.frame
    match frameFault s k.port k.length k.frame with
    | some c => .next (dropFrame s1 k.port c)
    | none =>
      match flowOf s k.dstFlow with
      | none => .next (dropFrame s1 k.port .noFlow)
      | some v =>
        if v.st = .failed ∨ v.port ≠ k.port ∨ v.farAddr ≠ k.frame.src then .next (dropFrame s1 k.port .noFlow)
        else if authentic s v k t bs = false then
          let s2 := dropFrame s1 k.port .authDrops
          .next (if v.kind = .ctrl then endSession s2 v.session else s2)
        else if epochOk s v.session k.epoch = false then .next (dropFrame s1 k.port .authDrops)
        else .next (sweepSessions (g s1 v))
  else noEvent s

/-- A sequenced packet: duplicate, beyond the window, refused for a reserved bit, or accepted (R245, R254). -/
def recvPkt (s : State) (k : Pkt) (y : HemType) (bs : List Byte) (a : PktAct) : Out :=
  withFlow s k y bs (fun s1 v =>
    let f := k.dstFlow
    if k.psn < v.cum ∨ v.sack.contains k.psn = true then sendAck s1 f none
    else if v.cum + 1024 ≤ k.psn then
      (if k.rsv then sendAck s1 f (some (6, k.psn)) else dropFrame s1 k.port .outOfWindow)
    else
      let s2 := psnEpoch (setFlow s1 f (acceptPsn v k.psn k.ce)) v k.psn
      let s3 := if k.rsv then sendAck s2 f (some (6, k.psn)) else arrivePkt s2 f k.psn k.fenceW k.fenceAll a
      ackIfDue s3 f (k.ackReq || k.psn != v.cum))

/-- WRITE (R242, R245, R247, R251, R313, R342). -/
def execWrite (k : Pkt) (bs : List Byte) (s : State) : Out := recvPkt s k .write bs (.write k.offset bs)

/-- READY (R251). -/
def execReady (k : Pkt) (count : Nat) (s : State) : Out := recvPkt s k .ready (beBytes 4 count) (.ready k.step count)

/-- HEMLINE_FENCE (R247). -/
def execHemlineFence (k : Pkt) (s : State) : Out := recvPkt s k .fence [] .fence

/-- CTRL (R333 to R335). -/
def execCtrl (k : Pkt) (mailbox : Nat) (ring abort : Bool) (off : Nat) (bs : List Byte) (s : State) : Out :=
  recvPkt s k .ctrl (ctrlInBytes mailbox ring abort off bs) (.ctrl mailbox ring abort off bs)

/-- CLOSE (R244). -/
def execClose (k : Pkt) (s : State) : Out := recvPkt s k .close [] .close

/-- ACK (R245, R246, R254). -/
def execAck (k : Pkt) (b : AckBody) (s : State) : Out :=
  withFlow s k .ack (ackInBytes b) (fun s1 v => if k.rsv then sendAck s1 k.dstFlow (some (6, k.psn)) else ackFlow s1 k.dstFlow v b)

end Sys2Proof.Machine
end

