-- ==== Sys2Proof/Machine/Session.lean ====
section
/-! DEFINITION. Management sessions: SETUP, the owner anchors, key epochs, expiry (R243, R255, R369 to R373). -/

namespace Sys2Proof.Machine

open Sys2Proof.Config

/-- The limits of R255, by the model's time base: SETUP_RATE with bursts of twice it, and four a second from
one source, counted at each port apart (R255 leaves open whether the four are of one port or of both; DESIGN CHOICE, log
entry 8). -/
def setupAllowed (s : State) (e addr : Nat) : Bool :=
  let h := hostPortOf s e
  let r := setting s 0x13B 0
  decide (h.setups - r * (s.nowUs - h.setupAt) + 1000000 ≤ 2000000 * r) && decide (tabGet 0 h.setupFrom addr < 4)

/-- A SETUP packet is taken. -/
def takeSetup (s : State) (e addr : Nat) : State :=
  let r := setting s 0x13B 0
  modHostPort s e (fun h => { h with
    setups := h.setups - r * (s.nowUs - h.setupAt) + 1000000, setupAt := s.nowUs
    setupFrom := tabPut h.setupFrom addr (tabGet 0 h.setupFrom addr + 1) })

/-- Payload bytes of a SETUP (R369): 96, the chain, and the signature of 96. -/
def setupLen (b : Setup) : Nat := 0x60 + b.chain.length + b.signature.length

/-- A SETUP packet within its limits, or one that is dropped and counted (R254, R255). -/
def withSetup (b : Setup) (s : State) (k : State → State) : Out :=
  if (hostPortOf s b.port).up then
    let t := rollSecond (takeFrame s b.port 0 b.frame) b.port
    .next (match frameFault t b.port (setupLen b) b.frame with
      | some c => dropFrame t b.port c
      | none =>
        if setupAllowed t b.port b.frame.src then k (takeSetup t b.port b.frame.src) else dropFrame t b.port .setupLimited)
  else noEvent s

/-- A SETUP ends with a status. Nothing is sent to the client (R255, R371). -/
def setupEnds (s : State) (st : Status) : State := { s with host := { s.host with setupStatus := some st } }

/-- AUTH_FAILED with the source address, in two words as R353 gives a wide value, and the phase (R371). -/
def authFailed (s : State) (addr phase : Nat) : State :=
  raiseEv (setupEnds s .authFailed) srcThimble .authFailed [addr % 2 ^ 32, addr / 2 ^ 32 % 2 ^ 32, phase]

/-- Whether a client's chain is accepted (R370): at an owner anchor; with no anchor, self-signed and only while
SLOT_ID reads 0x3F. -/
def clientOk (s : State) (chain : List Byte) : Bool :=
  if s.fw.anchors.isEmpty then s.pins.slotId == 0x3F && chainTo chain [chainKey chain] else chainTo chain s.fw.anchors

/-- With the anchor list empty and a SLOT_ID other than 0x3F every SETUP fails with OWNER_REQUIRED (R370). -/
def ownerRequired (s : State) : Bool := s.fw.anchors.isEmpty && s.pins.slotId != 0x3F

/-- An OFFER whose fields can be: CHAIN_LEN up to 7,936, and an ephemeral key on the curve (R369). One that cannot does not
verify (DESIGN CHOICE, log entry 43). -/
def offerOk (b : Setup) : Bool := decide (b.chain.length ≤ 7936) && validPoint b.ephemeral

/-- The lowest flow context that is FREE; a context named in a half-open setup is taken. -/
def freeContext (s : State) : Option Nat :=
  let used := s.host.flows.map Prod.fst ++ s.host.half.map (fun h => h.flow)
  ((List.range (used.length + 1)).find? (fun f => !(used.contains f))).bind (fun f =>
    if f < flowContexts then some f else none)

/-- The ANSWER to an OFFER (R369), with its signature over every payload byte of the exchange before it. -/
def answerBytes (f nonce : Nat) (offer : List Byte) : List Byte :=
  let a := setupBytes 2 f nonce (ephemeralKey nonce) certChain
  a ++ sign (offer ++ a)

/-- The half-open setup of an OFFER on flow context f (R369, R371, R372). -/
def halfOpen (b : Setup) (f nonce : Nat) : HalfOpen :=
  let offer := setupBytes 1 b.ctrlFlow b.nonce b.ephemeral b.chain
  { port := b.port, addr := b.frame.src, ctrlFlow := b.ctrlFlow, flow := f, prior := offer ++ answerBytes f nonce offer
    prk := hkdfExtract (beBytes 32 b.nonce ++ beBytes 32 nonce) (sharedSecret nonce b.ephemeral)
    chain := b.chain }

/-- The ANSWER leaves in clear, with a tag of zeros (R369). -/
def sendAnswer (s : State) (b : Setup) (f nonce : Nat) : State :=
  let bs := answerBytes f nonce (setupBytes 1 b.ctrlFlow b.nonce b.ephemeral b.chain)
  let h : HemHdr := { type := .setup, fenceW := false, fenceAll := false, ackReq := false, enc := false, dstFlow := b.ctrlFlow
                      psn := 0, srcFlow := f, length := bs.length, offset := 0, step := 0, epoch := 0 }
  sendHemline s b.port true b.frame.src f (.hemline h bs (List.replicate 16 0#8) none)

/-- SETUP_OFFER (R255, R369 to R371): answered within the limits; nothing is sent otherwise. -/
def execSetupOffer (b : Setup) (answerNonce : Nat) (s : State) : Out :=
  withSetup b s (fun t =>
    if 16 ≤ t.host.half.length ∨ 64 ≤ t.host.sessions.length then dropFrame t b.port .setupLimited
    else if ownerRequired t then setupEnds t .ownerRequired
    else if offerOk b = false ∨ clientOk t b.chain = false then authFailed t b.frame.src 1
    else match freeContext t with
      | none => dropFrame t b.port .setupLimited
      | some f =>
        sendAnswer { t with host := { t.host with half := t.host.half ++ [halfOpen b f answerNonce] } } b f answerNonce)

/-- A new OPEN flow context (R244, R246). -/
def newFlow (s : State) (kind : FlowKind) (port sid payload stream far addr : Nat) (enc window : Bool) : Flow :=
  { st := .opened, kind := kind, port := port, session := sid, payload := payload, enc := enc, stream := stream
    farFlow := far, farAddr := addr, window := window, txNext := 0, out := [], cum := 0, sack := [], held := [], unacked := 0, ece := 0
    fenceDone := 0, naks := [], acks := 0, rate := (setting s 0x13A 0 : Rat) / 100 * rMax s port, alpha := 1, good := 0
    perAcked := 0, perEce := 0, backoff := 0, rtt := 0, lowered := none, counts := [0, 0, 0, 0, 0], reason := .asked }

/-- The session of a FINISH that verifies: its CTRL flow and epoch 0 (R243, R371, R372). -/
def openSession (s : State) (h : HalfOpen) : State :=
  let sid := s.host.nextSession
  let s1 := setFlow s h.flow (newFlow s .ctrl h.port sid (payloadOf s h.port) 0 h.ctrlFlow h.addr true false)
  let w : Session := { port := h.port, ctrl := h.flow, prk := h.prk, epoch := 0, grace := none, provisioning := s.fw.anchors.isEmpty }
  raiseEv { s1 with host := { s1.host with sessions := tabPut s1.host.sessions sid w, nextSession := sid + 1
                                           setupStatus := some .ok } }
    srcThimble .sessionOpen []

/-- SETUP_FINISH (R370, R371): the anchor list and SLOT_ID as they are now. A FINISH without a half-open setup has no effect beyond its counts. -/
def execSetupFinish (b : Setup) (s : State) : Out :=
  withSetup b s (fun t =>
    match t.host.half.find? (fun h => h.port == b.port && h.addr == b.frame.src) with
    | none => t
    | some h =>
      let t1 := { t with host := { t.host with half := t.host.half.filter (fun x => x != h) } }
      if ownerRequired t1 then setupEnds t1 .ownerRequired
      else if clientOk t1 h.chain && verify (chainKey h.chain) (h.prior ++ setupBytes 3 b.ctrlFlow b.nonce b.ephemeral []) b.signature
          && decide (t1.host.sessions.length < 64) then openSession t1 h
      else authFailed t1 b.frame.src 3)

/-- SETUP_EXPIRY (R371). -/
def execSetupExpiry (port addr : Nat) (s : State) : Out :=
  match s.host.half.find? (fun h => h.port == port && h.addr == addr) with
  | none => noEvent s
  | some h => .next (authFailed { s with host := { s.host with half := s.host.half.filter (fun x => x != h) } } addr 3)

/-- SESSION_IDLE_TIMEOUT (R373). -/
def execSessionIdleTimeout (session : Nat) (s : State) : Out :=
  if (tabFind s.host.sessions session).isSome then .next (endSession s session) else noEvent s

/-- EPOCH_AGE_LIMIT (R373): an epoch has lasted 24 hours. -/
def execEpochAgeLimit (session : Nat) (s : State) : Out :=
  if (tabFind s.host.sessions session).isSome then .next (sendKeyUpdate s session) else noEvent s

/-- EPOCH_GRACE_END (R373): the old epoch is dropped. -/
def execEpochGraceEnd (session : Nat) (s : State) : Out :=
  match tabFind s.host.sessions session with
  | none => noEvent s
  | some v =>
    if v.grace.isSome then
      let w := { v with grace := none }
      .next { s with host := { s.host with sessions := tabPut s.host.sessions session w } }
    else noEvent s

end Sys2Proof.Machine
end

