-- ==== Sys2Proof/Machine/Messages.lean ====
section
/-! DEFINITION. How a mailbox request starts: the checks of R338 in their order (R335 to R341). -/

namespace Sys2Proof.Machine

open Sys2Proof.Config

/-- A reserved field of the request header is nonzero (R336). -/
def hdrRsv (b : Mailbox) : Bool :=
  leNat (memBytes b.req 2 2) != 0 || leNat (memBytes b.req 4 4) / 4096 != 0 || leNat (memBytes b.req 14 2) != 0

/-- Some bit from `lo` upwards of the body word at an offset is set. -/
def rsvFrom (off lo : Nat) (b : Mailbox) : Bool := reqWord b off / 2 ^ lo != 0

/-- No reserved field in the body. -/
def noRsv (_ : Mailbox) : Bool := false

/-- The body has the length that the message fixes (R339). -/
def bodyLen (n : Nat) (_ : State) (b : Mailbox) : Bool := reqLen b == n

/-- Messages of a provisioning session (R370) and of a device that runs a recovery image (R379). -/
def opAllowed (s : State) (b : Mailbox) : Bool :=
  let op := reqOp b
  (!b.provisioning || [1, 0x900, 0x901, 0x902].contains op) &&
  (!(runsRecovery s) || [1, 0x900, 0x901, 0x905, 0x906, 0x907, 0x908, 0x909].contains op)

/-- States that sessions reach (R341). -/
def reachable (s : State) : Bool :=
  match s.dev.st with
  | .off | .standby | .safe => false
  | _ => true

/-- The state check of every message, then the message's own (R338 step 4). -/
def stateFault (s : State) (b : Mailbox) (own : State → Option Status) : Option Status :=
  if reachable s && opAllowed s b then own s else some .wrongState

/-- A message that every state accepts in which sessions reach the device. -/
def anyState (_ : State) : Option Status := none

/-- A message accepted in one of some states, WRONG_STATE in the others. -/
def inStates (l : List DevState) (s : State) : Option Status := if l.contains s.dev.st then none else some .wrongState

/-- RUNNING with a job loaded (R341). -/
def inRunning (s : State) : Option Status := if s.dev.st = .running ∧ jobLoaded s = true then none else some .wrongState

/-- A request of an unknown OP at the head of the line is answered with BAD_OPCODE as it starts. No row of the table starts it,
so any request command that names its mailbox does (R335, R338; DESIGN CHOICE, log entry 42). -/
def startUnknown (m : Nat) (s : State) : Out :=
  if s.mgmt.rings.head? = some m ∧ (boxOf s m).rung = true ∧ opKnown (reqOp (boxOf s m)) = false then
    .next (replyBad (takeRing s m) m .badOpcode 0 0)
  else noEvent s

/-- A request that starts: LENGTH, reserved fields, state, then what the message does (R338, R339). A
mailbox that holds no rung request of this OP at the head of the line starts nothing (R335; log entry 17). -/
def serve (op : Nat) (lenOk : State → Mailbox → Bool) (rsv : Mailbox → Bool) (st : State → Option Status)
    (act : State → Nat → Mailbox → State) (m : Nat) (s : State) : Out :=
  let b := boxOf s m
  if s.mgmt.rings.head? = some m ∧ b.rung = true ∧ reqOp b = op then
    let s1 := takeRing s m
    .next (
      if (decide (reqLen b ≤ 4080) && lenOk s b) = false then replyBad s1 m .badLength 0 0
      else if hdrRsv b || rsv b then replyBad s1 m .badReserved 0 0
      else match stateFault s b st with
        | some x => replyBad s1 m x 0 0
        | none => act s1 m b)
  else startUnknown m s

/-- Words as reply bytes. -/
def words (ws : List Nat) : List Byte := ws.flatMap (leBytes 4)

/-- A refusal with no detail (R337). -/
def refuse (s : State) (m : Nat) (st : Status) : State := replyBad s m st 0 0

/-- The request waits for a point (R335). -/
def waitAt (s : State) (m : Nat) (w : WaitPoint) (note : List Nat) : State :=
  modBox s m (fun b => { b with waits := some w, note := note })

/-- The session that rang. -/
def fromSession (b : Mailbox) : Nat := ringer b

end Sys2Proof.Machine
end

