-- ==== Sys2Proof/Machine/Seam.lean ====
section
/-! DEFINITION. The seam links: reception in order, acknowledgement, credits, replay and retrain (R214 to
R218), lane gating (R220), fitting (R221 to R224), votes and poison (R160 to R162, R233), the loss of a
bound port and its test (R228, R325). -/

namespace Sys2Proof.Machine

open Sys2Proof.Config

/-! ### Reception (R214 to R217) -/

/-- The flits that an ACK covers leave the replay buffer (R216). -/
def ackFlits (p : SeamPort) (ack : Nat) : List TxFlit × List TxFlit :=
  if p.replay.any (fun f => f.seq == ack) then
    let out := p.replay.takeWhile (fun f => f.seq != ack)
    (p.replay.take (out.length + 1), p.replay.drop (out.length + 1))
  else ([], p.replay)

/-- The mover operations whose segments end in the flits. -/
def segEnds (fs : List TxFlit) : List Nat :=
  fs.filterMap (fun f => match f.body with | .data _ e => e | _ => none)

/-- A header's fields in a port (R214, R216, R217): credits, a NAK to answer, the flits acknowledged; an acknowledgement
ends a run of replays. `wait` is the time without credit. -/
def applyHeader (h : FlitHdr) (a : List TxFlit × List TxFlit) (wait : Nat) (p : SeamPort) : SeamPort :=
  { p with
    replay := a.2, credits := min 256 (p.credits + h.crd), nakIn := p.nakIn || h.nak
    sameReplay := if a.1.isEmpty then p.sameReplay else 0, lastReplay := if a.1.isEmpty then p.lastReplay else none
    stat := { p.stat with creditWait := sat32 (p.stat.creditWait + wait) } }

/-- The time that a port was without credit: a free value where its first credit returns (R217; log entry 2). -/
def creditTime (s : State) (port : Nat) (h : FlitHdr) : Nat × State :=
  if (portOf s port).credits = 0 ∧ 0 < h.crd then
    let r := takeFree s
    (r.1.toNat % 2 ^ 32, r.2)
  else (0, s)

/-- What a flit's header does: acknowledgement, credits, a NAK to answer; then waiting flits leave (R214,
R216, R217, R232). -/
def takeHeader (s : State) (port : Nat) (h : FlitHdr) : State :=
  let a := ackFlits (portOf s port) h.ack
  let w := creditTime s port h
  let s1 := modPort w.2 port (fun p => flushPort (applyHeader h a w.1 p))
  match s.job.pkg with
  | none => s1
  | some p => (segEnds a.1).foldl (fun t o =>
      finishRun (modRun t o (fun c => { c with unacked := c.unacked - 1 })) p o) s1

/-- A NAK goes out, and later flits are discarded until the replay (R216). -/
def sendNak (s : State) (port : Nat) : State := modPort s port (fun p => { p with nak := true })

/-- A flit accepted in order takes a receive buffer (R216, R217). -/
def acceptFlit (s : State) (port : Nat) : State :=
  modPort s port (fun p => { p with
    rxNext := (p.rxNext + 1) % 2048, nak := false, owed := p.owed + 1
    stat := { p.stat with rxFlits := sat32 (p.stat.rxFlits + 1) } })

/-- A flit with a corrected byte counts, whatever becomes of it (R235). -/
def noteCorrected (s : State) (port : Nat) (h : FlitHdr) : State :=
  modPort s port (fun p => { p with stat := { p.stat with corrected := sat32 (p.stat.corrected + boolNat h.corr) } })

/-- What a port says to a flit received: IDLE flits with its ACK, a NAK where one is due, and the buffers owed (R214, R216,
R217). -/
def answerFlit (s : State) (port : Nat) : State := modPort (returnCredits s) port sendIdle

/-- A flit of TYPE `ty` in sequence is accepted and acts; another is discarded and answered with a NAK (R214, R216). A header
of another TYPE is no flit of this kind. -/
def inOrder (s : State) (port ty : Nat) (h : FlitHdr) (k : State → Out) : Out :=
  if portTrained (portOf s port) && h.type == ty then
    let t := noteCorrected s port h
    if h.seq = (portOf s port).rxNext then outThen (k (acceptFlit (takeHeader t port h) port)) (fun u => .next (answerFlit u port))
    else .next (answerFlit (sendNak t port) port)
  else noEvent s

/-- IDLE_FLIT (R214, R216): it repeats the last number sent and is never replayed; a later number than the
last one accepted shows a loss. -/
def execIdleFlit (port : Nat) (h : FlitHdr) (s : State) : Out :=
  if portTrained (portOf s port) && h.type == 0 then
    let s1 := takeHeader (noteCorrected s port h) port h
    .next (answerFlit (if (h.seq + 1) % 2048 = (portOf s port).rxNext then s1 else sendNak s1 port) port)
  else noEvent s

/-- RESERVED_FLIT (R214): TYPE 7 to 15; acknowledged, discarded, counted in BAD_FLITS. -/
def execReservedFlit (port : Nat) (h : FlitHdr) (s : State) : Out :=
  inOrder s port (max 7 (h.type % 16)) h (fun t => .next (modPort t port (fun p =>
    { p with stat := { p.stat with badFlits := sat32 (p.stat.badFlits + 1) } })))

/-- BAD_FLIT (R215, R216): discarded, counted, answered with a NAK. -/
def execBadFlit (port : Nat) (s : State) : Out :=
  if portTrained (portOf s port) then
    .next (answerFlit (sendNak (modPort s port (fun p => { p with stat := { p.stat with bad := sat32 (p.stat.bad + 1) } })) port) port)
  else noEvent s

/-! ### Replay and retrain (R216, R218) -/

/-- A retrain starts (R218): replay buffer, credits and binding stay. -/
def startRetrain (p : SeamPort) : SeamPort :=
  { p with retraining := true, retrainDue := true, fails := 0, sameReplay := 0, lastReplay := none, nakIn := false
           stat := { p.stat with retrains := sat32 (p.stat.retrains + 1) } }

/-- The flits of the replay buffer are sent again (R216). -/
def resendAll (p : SeamPort) : SeamPort :=
  { p with stat := { p.stat with txFlits := sat32 (p.stat.txFlits + p.replay.length) } }

/-- A replay from the flit `first` on; the eighth of one flit in succession starts a retrain (R216). -/
def replayPort (p : SeamPort) (first : Nat) : SeamPort :=
  let n := if p.lastReplay = some first then p.sameReplay + 1 else 1
  let q := resendAll { p with nakIn := false, sameReplay := n, lastReplay := some first
                              stat := { p.stat with replays := sat32 (p.stat.replays + 1) } }
  if n < 8 then flushPort q else startRetrain q

/-- SEAM_REPLAY (R216): a received NAK is answered from the replay buffer; with nothing in it there is no replay. -/
def execSeamReplay (port : Nat) (s : State) : Out :=
  let p := portOf s port
  if p.nakIn && !p.retraining then
    .next (setPort s port (match p.replay with
      | [] => { p with nakIn := false }
      | f :: _ => replayPort p f.seq))
  else noEvent s

/-! ### Lane gating (R220) -/

/-- GATE_FLIT (R220): both ends switch together. -/
def execGateFlit (port : Nat) (h : FlitHdr) (wake : Bool) (s : State) : Out :=
  inOrder s port 6 h (fun t => .next (modPort t port (fun p => gatePort p wake)))

/-- LANE_WAKE (R220): full width is back; GATED_US has grown (R235). -/
def execLaneWake (port : Nat) (s : State) : Out :=
  let p := portOf s port
  if p.gated && p.waking then
    .next (modPort (gatedTime s port) port (fun q => flushPort { q with gated := false, waking := false }))
  else noEvent s

/-! ### Job traffic (R223, R231 to R233) -/

def dropStranger (s : State) (port : Nat) : State :=
  modPort s port (fun p => { p with stat := { p.stat with strangerDrops := sat32 (p.stat.strangerDrops + 1) } })

def dropStale (s : State) (port : Nat) : State :=
  modPort s port (fun p => { p with stat := { p.stat with staleDrops := sat32 (p.stat.staleDrops + 1) } })

/-- Whether a HEAD belongs to the step in force (R232). -/
def headCurrent (s : State) (h : Head) : Bool :=
  match s.job.pkg with
  | none => false
  | some p => h.jobTag == p.plan.jobId && h.step == s.job.step && (collOf p h.desc).isSome && !s.fence.abandoned

/-- A port that carries no job traffic drops it (R223); without a job no HEAD belongs to a step (R232). -/
def dropHead (s : State) (port : Nat) : State :=
  if (portOf s port).st = .fitted ∧ s.job.pkg = none then dropStale s port else dropStranger s port

/-- HEAD_FLIT (R223, R232, R233). -/
def execHeadFlit (port : Nat) (h : FlitHdr) (b : Head) (s : State) : Out :=
  inOrder s port 1 h (fun t =>
    if (portOf s port).st ≠ .member then .next (dropHead t port)
    else if headCurrent t b then .next (modPort t port (fun p => { p with rx := some (b, []) }))
    else .next (dropStale (modPort t port (fun p => { p with rx := none })) port))

/-- DATA_FLIT (R231 to R233): the segment is whole with its last flit. -/
def execDataFlit (port : Nat) (h : FlitHdr) (b : List Byte) (s : State) : Out :=
  inOrder s port 2 h (fun t =>
    if (portOf s port).st ≠ .member then .next (dropHead t port)
    else match (portOf t port).rx, t.job.pkg with
      | some (hd, bs), some p =>
        if 480 * ceilDiv hd.bytes 480 ≤ bs.length + 480 then
          .next (arriveSegment (modPort t port (fun q => { q with rx := none })) p hd ((bs ++ b).take hd.bytes))
        else .next (modPort t port (fun q => { q with rx := some (hd, bs ++ b) }))
      | _, _ => .next (dropStale t port))

/-! ### Poison and votes (R160 to R162, R233) -/

/-- Poison received for the current step: recorded, forwarded once, acted on (R162). -/
def receivePoison (s : State) (port : Nat) (b : Poison) : State :=
  let k := (b.cause, b.origin)
  let s1 := raiseEv { s with fence := { s.fence with received := s.fence.received ++ [k] } } (srcPort port)
    .poisonReceived [b.step, b.cause, b.origin]
  takePoison (if s.fence.mine.contains k then s1 else spreadPoison s1 b (some port)) b

/-- A poison that is dropped counts in POISON_DUP (R162). -/
def dropPoison (s : State) (port : Nat) : State :=
  modPort s port (fun p => { p with stat := { p.stat with poisonDup := sat32 (p.stat.poisonDup + 1) } })

/-- POISON_FLIT (R162, R223, R233); a DRAINING device drops and counts it (R332). -/
def execPoisonFlit (port : Nat) (h : FlitHdr) (b : Poison) (s : State) : Out :=
  inOrder s port 4 h (fun t =>
    if s.dev.st = .draining then .next (dropPoison t port)
    else if (portOf s port).st ≠ .member ∨ s.job.pkg = none ∨ b.jobTag ≠ jobTag s then .next (dropStranger t port)
    else if b.step ≠ s.job.step ∨ s.fence.received.contains (b.cause, b.origin) = true then .next (dropPoison t port)
    else .next (receivePoison t port b))

/-- A vote is kept with its step; the first of a rank counts. -/
def keepVote (f : Fence) (v : Vote) : Fence :=
  if f.votes.any (fun e => e.1 == v.step && e.2.1 == v.rank) then f
  else { f with votes := f.votes ++ [(v.step, v.rank, v.vote)] }

/-- VOTE_FLIT (R160, R223, R233). -/
def execVoteFlit (port : Nat) (h : FlitHdr) (b : Vote) (s : State) : Out :=
  inOrder s port 5 h (fun t =>
    match t.job.pkg with
    | none => .next (dropStranger t port)
    | some p =>
      if (portOf s port).st ≠ .member ∨ b.jobTag ≠ jobTag s then .next (dropStranger t port)
      else if b.rank = p.plan.rank ∨ p.plan.nranks ≤ b.rank then .next t
      else
        let t1 := { t with fence := keepVote t.fence b }
        .next (if t.fence.phase = .voted then judgeVotes t1 p else t1))

/-! ### Fitting (R221 to R224) -/

/-- STATE of an identity frame (R222). -/
def identState (st : DevState) : Nat :=
  match st with
  | .ready => 1 | .running => 2 | .draining => 3 | .drained => 4 | .spare => 5 | .filling => 6
  | .safe => 7 | .boot => 8 | .hibernate => 9 | .off => 0 | .standby => 0

/-- The device's own frame (R221, R222). -/
def ownIdent (s : State) (port nonce peer : Nat) : Ident :=
  { port := port, slotId := s.pins.slotId, moduleId := moduleId.toNat, state := identState s.dev.st, member := 3
    rank := ownRank s, jobTag := jobTag s, nonce := nonce, peerNonce := peer, pubkey := identityKey, signature := [] }

def ownProof (s : State) (port nonce peer : Nat) : Ident :=
  let i := ownIdent s port nonce peer
  { i with signature := sign (identBytes 2 i) }

/-- A new exchange with a new nonce: HELLO (R221). -/
def newExchange (s : State) (port nonce : Nat) : State :=
  seamSend (modPort s port (fun p => { p with nonce := nonce, farNonce := none, proofSent := false })) port
    (.hello (ownIdent s port nonce 0))

/-- PROOF with the far end's nonce (R221). -/
def sendProof (s : State) (port far : Nat) : State :=
  seamSend (modPort s port (fun p => { p with farNonce := some far, proofSent := true })) port
    (.proof (ownProof s port (portOf s port).nonce far))

/-- A FIT flit on a retraining port passes the flits that the replay has yet to bring (R218, R221). -/
def inFit (s : State) (port : Nat) (h : FlitHdr) (k : State → Out) : Out :=
  let p := portOf s port
  if p.retraining && portTrained p && h.type == 3 && h.seq != p.rxNext then
    outThen (k (takeHeader (noteCorrected s port h) port h)) (fun u => .next (answerFlit u port))
  else inOrder s port 3 h k

/-- HELLO (R221): answered with a PROOF; a HELLO of a new exchange is met with one. -/
def execHello (port : Nat) (h : FlitHdr) (b : Ident) (nonce : Nat) (s : State) : Out :=
  inFit s port h (fun t =>
    let p := portOf t port
    if p.farNonce = some b.nonce ∧ p.proofSent = true then .next t
    else if p.proofSent then .next (sendProof (newExchange t port nonce) port b.nonce)
    else .next (sendProof t port b.nonce))

/-- A PROOF is verified when its signature checks against its key and it carries the nonce of the latest
HELLO (R221). -/
def proofOk (p : SeamPort) (b : Ident) : Bool :=
  verify b.pubkey (identBytes 2 b) b.signature && b.peerNonce == p.nonce

/-- The identity that a port is bound to (R223). -/
def sameIdentity (p : SeamPort) (b : Ident) : Bool :=
  match p.far with
  | none => false
  | some f => f.moduleId == b.moduleId && f.pubkey == b.pubkey

/-- The loss of a bound port (R223, R228): LINK_DOWN, ALERT_N, poison; the loopback test of R325 follows. The identity bound
is gone; `far` is the one that the port proved instead. -/
def loseMember (s : State) (port : Nat) (st : PortState) (far : Option Ident) : State :=
  let p := portOf s port
  let origin := if port < 8 then p.peerRank.getD (ownRank s) else ownRank s
  let s1 := modPort s port (fun q => { q with
    st := st, far := far, retraining := false, retrainDue := false, testDue := true, rx := none
    queue := q.queue.filter (fun b => !(isJobTraffic b)) })
  let s2 := setCause (raiseEv s1 (srcPort port) .linkDown []) .link
  if jobLoaded s2 then sendPoisonFrom s2 4 origin else s2

/-- The port has proved its far end; after a retrain it sends again from the last acknowledged flit (R218). -/
def provePort (q : SeamPort) (b : Ident) : SeamPort :=
  let p := { q with far := some b, retraining := false }
  flushPort (if q.retraining then resendAll p else p)

/-- A verified PROOF (R223). -/
def takeProof (s : State) (port : Nat) (b : Ident) : State :=
  let p := portOf s port
  match p.st with
  | .linked => modPort s port (fun q => provePort { q with st := .fitted, slow := false } b)
  | .member => if sameIdentity p b then modPort s port (fun q => provePort q b) else loseMember s port .excluded (some b)
  | _ => modPort s port (fun q => provePort q b)

/-- PROOF (R221, R223): verified, or FIT_BAD and a new exchange. -/
def execProof (port : Nat) (h : FlitHdr) (b : Ident) (nonce : Nat) (s : State) : Out :=
  inFit s port h (fun t =>
    if proofOk (portOf t port) b then .next (takeProof t port b)
    else .next (newExchange (raiseEv t (srcPort port) .fitBad []) port nonce))

/-- HELLO_TIMER (R221, R223, R224): HELLO again; after FIT_TIMEOUT every second with a new exchange. -/
def execHelloTimer (port nonce : Nat) (s : State) : Out :=
  let p := portOf s port
  if portTrained p && p.slow && p.st == .linked then .next (newExchange s port nonce)
  else if portTrained p && p.farNonce.isNone then .next (seamSend s port (.hello (ownIdent s port p.nonce 0)))
  else noEvent s

/-- FIT_TIMEOUT (R223): a linked port tries on every second; a retrained bound port is lost. -/
def execFitTimeout (port : Nat) (s : State) : Out :=
  let p := portOf s port
  match p.st with
  | .linked => .next (modPort (raiseEv s (srcPort port) .fitTimeout []) port (fun q => { q with slow := true }))
  | .member => if p.retraining then .next (loseMember s port .excluded none) else noEvent s
  | _ => noEvent s

/-! ### Training (R218, R223) -/

/-- Lanes of a port: 8 of a neighbour port, 4 of an uplink (R212). -/
def fullWidth (port : Nat) : Nat := if port < 8 then 8 else 4

/-- A port that trained at half width (R218). -/
def degrade (s : State) (port : Nat) : State :=
  setCause (raiseEv (modPort s port (fun p => { p with stat := { p.stat with degraded := true } }))
    (srcPort port) .linkDegraded []) .link

/-- Lanes are up: link-up of a first training, or a retrain that keeps the link's state; then HELLO. A retrain keeps the lane
gating too, as the far end does, since queued and replayed GATE flits still come in their order (R220 is silent; DESIGN CHOICE,
log entry 71). -/
def trained (s : State) (port width nonce : Nat) : State :=
  let p := portOf s port
  let q := if p.st = .training then
      { p with st := .linked, width := width, fails := 0, slow := false, txSeq := 0x7FF, rxNext := 0, nak := false
               nakIn := false, replay := [], queue := [], credits := 256, owed := 0, far := none, gated := false
               waking := false, sameReplay := 0, lastReplay := none }
    else { p with width := width, fails := 0, retrainDue := false }
  let s1 := setPort s port q
  newExchange (if width < fullWidth port then degrade s1 port else s1) port nonce

/-- The lanes of a port are gone, and its gating with them (R220, R235). -/
def ungate (s : State) (port : Nat) : State :=
  modPort (gatedTime s port) port (fun p => { p with gated := false, waking := false })

/-- A failed attempt; the third in succession, or the end of t_train, puts the port into DOWN (R218, R223). -/
def failAttempt (s : State) (port : Nat) (late : Bool) : State :=
  let p := portOf s port
  if p.fails + 1 < 3 ∧ (late && p.st == .training) = false then setPort s port { p with fails := p.fails + 1 }
  else if p.st = .member then loseMember (ungate s port) port .down none
  else raiseEv (modPort (ungate s port) port (fun q => { q with
    st := .down, retraining := false, retrainDue := false, far := none, peerRank := none, queue := []
    fails := 0 })) (srcPort port)
    .linkDown []

/-- A port that is training or retraining. -/
def inTraining (p : SeamPort) : Bool := p.st == .training || p.retrainDue

/-- The outcome of a training attempt: full width, half width, or none (R218, R223). -/
def trainPort (s : State) (port : Nat) (r : TrainOutcome) (nonce : Nat) : State :=
  if r.width = fullWidth port ∨ 2 * r.width = fullWidth port then trained s port r.width nonce
  else failAttempt s port r.late

/-- PORT_TEST (R325): the loopback's result; a failure is cause 7. -/
def execPortTest (port : Nat) (pass : Bool) (s : State) : Out :=
  if (portOf s port).testDue then
    let s1 := raiseEv (modPort s port (fun p => { p with testDue := false })) srcThimble .portTest [port, boolNat pass]
    .next (if pass then s1 else makeSuspect s1 7 port 0xFFFFFFFF)
  else noEvent s

end Sys2Proof.Machine
end

