-- ==== Sys2Proof/Machine/Control.lean ====
section
/-! DEFINITION. Messages of the job and of the device's power and heat: identity, status, release and end,
recipes and flags, remap, snapshot and restore, budgets, cooling, sensors (R223, R234, R264, R265, R283 to
R287, R300, R310, R318, R341, R344, R345). -/

namespace Sys2Proof.Machine

open Sys2Proof.Config

/-! ### Identity and status (R341) -/

/-- IDENTIFY (R341): MODULE_ID, member, stepping, MAC addresses, SLOT_ID, the active image and its release, the
state. -/
def execIdentify (m : Nat) (s : State) : Out :=
  serve 1 (bodyLen 0) noRsv anyState (fun t k _ =>
    let mac := fun (e : Nat) => [(macAddr e).toNat % 2 ^ 32, (macAddr e).toNat / 2 ^ 32]
    replyOk t k (words ([moduleId.toNat / 2 ^ 32, moduleId.toNat % 2 ^ 32, 3, 0xB0] ++ mac 0 ++ mac 1
      ++ [t.pins.slotId, t.fw.running.getD 0, ((runningImage t).map Image.release).getD 0, identState t.dev.st]))) m s

/-- JOB_STATUS (R341): state, held, step counter, variant, fault, INVALID, energy. -/
def execJobStatus (m : Nat) (s : State) : Out :=
  serve 0x104 (bodyLen 0) noRsv anyState (fun t k _ =>
    replyOk t k (words ([identState t.dev.st, boolNat t.job.held, eventStep t, t.shut.variant,
      (t.job.fault.map statusCode).getD 0, boolNat t.job.invalid] ++ loHi (energyCount t % 2 ^ 64)))) m s

/-! ### Release and end (R344) -/

/-- Held: a RUNNING job that is held at a STEP_OPEN and has not reached its end (R180, R341). -/
def inHeld (s : State) : Option Status :=
  if s.dev.st = .running ∧ jobLoaded s = true ∧ s.job.held = true ∧ s.job.endDue = false then none else some .wrongState

/-- JOB_RELEASE (R344). -/
def execJobRelease (m : Nat) (s : State) : Out :=
  serve 0x102 (bodyLen 0) noRsv inHeld (fun t k _ =>
    if t.job.invalid then refuse t k .stateInvalid
    else replyOk { t with job := { t.job with held := false, fault := none }, shut := { t.shut with stopped := false } } k []) m s

/-- JOB_END is accepted while a job runs and during a fill (R317, R341). -/
def canEnd (s : State) : Option Status :=
  if (s.dev.st = .running ∧ jobLoaded s = true) ∨ (s.dev.st = .filling ∧ s.dev.work = .none) then none else some .wrongState

/-- JOB_END (R317, R344): a fill stops at once and keeps the base region; a held job ends at once; another at its
next STEP_CLOSE. -/
def endJob (s : State) (m : Nat) (b : Mailbox) : State :=
  let s1 := waitAt s m .jobEnd []
  if s.dev.st = .filling then endJobNow s1 true .jobClear
  else
    let s2 := { s1 with job := { s1.job with ending := some (bitOf (reqWord b 0) 0) } }
    if s.job.held then dueEndJob s2 else s2

/-- JOB_END (R344). -/
def execJobEnd (m : Nat) (s : State) : Out := serve 0x103 (bodyLen 4) (rsvFrom 0 1) canEnd endJob m s

/-! ### Recipes and flags (R345) -/

/-- RECIPE_SET (R158, R345): refused without an available variant for the recipe and the recompute state that will
be in force. -/
def setRecipe (s : State) (m : Nat) (b : Mailbox) : State :=
  match s.job.pkg with
  | none => refuse s m .wrongState
  | some p =>
    let r := reqWord b 0
    let cur := (variantOf p s.shut.variant).any (fun v => v.recompute)
    if (compiled s p r (s.job.wantRecompute.getD cur)).isEmpty then refuse s m .noVariant
    else replyOk { s with job := { s.job with wantRecipe := some r, clearTags := s.job.numeric } } m []

/-- RECIPE_SET (R345). -/
def execRecipeSet (m : Nat) (s : State) : Out := serve 0x105 (bodyLen 4) (rsvFrom 0 4) inRunning setRecipe m s

/-- The flags that a mask names, cleared in a panel: bits 0 to 3 of R91, 4 to 7 of R117, 8, 9 and 11 of R132, by the
bits of their records (log entry 9). -/
def clearPanel (mask : Nat) (p : Panel) : Panel :=
  let keep := fun (i : Nat) (f : Bool) => f && !(bitOf mask i)
  { p with
    mat := { p.mat with foldNonfinite := keep 0 p.mat.foldNonfinite, storeClosed := keep 1 p.mat.storeClosed
                        accNonfinite := keep 2 p.mat.accNonfinite, queueWait := keep 3 p.mat.queueWait }
    ndl := { p.ndl with laneRange := keep 4 p.ndl.laneRange, rowOrder := keep 5 p.ndl.rowOrder
                        rowEmpty := keep 6 p.ndl.rowEmpty, needleWait := keep 7 p.ndl.needleWait }
    spool := { p.spool with stat := { p.spool.stat with
      spillSeen := keep 8 p.spool.stat.spillSeen, deficit := keep 9 p.spool.stat.deficit
      masterNonfinite := keep 11 p.spool.stat.masterNonfinite } } }

/-- The flags of a mask cleared in every unit at once: 12 CE_RATE, 13 SKEW, 14 DEFERRED, 15 FIXED_EXIT, 16 CAP_UNMET;
17 NUMERIC of a tag, or of every tag (R345). -/
def clearFlags (s : State) (mask tag : Nat) : State :=
  let keep := fun (i : Nat) (f : Bool) => f && !(bitOf mask i)
  let numeric := if bitOf mask 17 then s.job.numeric.filter (fun t => tag != 0xFFFF && t != tag) else s.job.numeric
  { s with
    panels := s.panels.map (fun e => (e.1, clearPanel mask e.2))
    health := { s.health with units := s.health.units.map (fun e => (e.1, { e.2 with ceRate := keep 12 e.2.ceRate })) }
    therm := { s.therm with skew := keep 13 s.therm.skew }
    power := { s.power with deferred := keep 14 s.power.deferred, fixedExit := keep 15 s.power.fixedExit
                            capUnmet := keep 16 s.power.capUnmet }
    job := { s.job with numeric := numeric } }

/-- A reserved bit of a FLAG_CLEAR: above NUMERIC, the place of RECOMPUTE, above the tag. -/
def flagRsv (b : Mailbox) : Bool := rsvFrom 0 18 b || bitOf (reqWord b 0) 10 || rsvFrom 4 16 b

/-- FLAG_CLEAR (R345). -/
def execFlagClear (m : Nat) (s : State) : Out :=
  serve 0x106 (bodyLen 8) flagRsv inRunning (fun t k b =>
    if tensorTags ≤ reqWord b 4 ∧ reqWord b 4 ≠ 0xFFFF then refuse t k .badRange
    else replyOk (clearFlags t (reqWord b 0) (reqWord b 4)) k []) m s

/-! ### Remap (R234) -/

/-- What a REMAP names: the rank, the identity, its key hash and its switch port. -/
structure Remap where
  rank : Nat
  id : Nat
  key : Nat
  sw : Nat
deriving DecidableEq, Repr

def remapOf (b : Mailbox) : Remap :=
  { rank := reqWord b 0, id := 2 ^ 32 * reqWord b 4 + reqWord b 8, key := beNat (reqBytes b 12 48), sw := reqWord b 60 }

/-- The port carries the identity. -/
def carries (p : SeamPort) (r : Remap) : Bool :=
  match p.far with
  | some f => f.moduleId == r.id && sha384 f.pubkey == r.key
  | none => false

/-- A port that a REMAP can bind (R223, R234). -/
def bindable (p : SeamPort) : Bool := p.st == .fitted || p.st == .stranger

/-- The rank table takes the new SWITCH_PORT (R234 step 2). -/
def setSwitch (s : State) (r : Remap) : State :=
  { s with job := { s.job with pkg := s.job.pkg.map (fun p => { p with plan := { p.plan with
    ranks := (p.plan.ranks.zipIdx).map (fun e => if e.2 = r.rank then (r.sw, e.1.2) else e.1) } }) } }

/-- A port that becomes EXCLUDED carries no job traffic (R223). -/
def excludePort (p : SeamPort) : SeamPort :=
  { p with st := .excluded, rx := none, queue := p.queue.filter (fun b => !(isJobTraffic b)) }

/-- The port is bound to the rank as MEMBER, and the port bound before becomes EXCLUDED (R234 step 1). -/
def bindRank (s : State) (q : Nat) (r : Remap) : State :=
  let s1 := { s with ports := s.ports.map (fun e =>
    if e.1 ≠ q ∧ e.2.st = .member ∧ e.2.peerRank = some r.rank then (e.1, excludePort e.2) else e) }
  modPort s1 q (fun p => { p with st := .member, peerRank := some r.rank })

/-- The ports bound to a rank, as a mask. -/
def rankMask (s : State) (rank : Nat) : Nat :=
  ((allPorts.filter (fun q => (portOf s q).st == .member && (portOf s q).peerRank == some rank)).map (fun q => 2 ^ q)).sum

/-- REMAP outside a held job is refused with BUSY_STEP (R234); a spare that fills a rank refuses a second one with
BUSY_FILL (R317). -/
def remapState (s : State) : Option Status :=
  if s.dev.st = .filling ∨ inHeld s = none then none else some .busyStep

/-- REMAP (R234, R317). A module already bound to another rank is answered with BUSY_FILL (log entry 72). -/
def remapRank (s : State) (m : Nat) (b : Mailbox) : State :=
  let r := remapOf b
  match s.job.pkg with
  | none => refuse s m (if s.snap.filling.any (fun f => f.1 != r.rank) && r.id == moduleId.toNat then .busyFill else .busyStep)
  | some p =>
    if s.dev.st = .filling then
      refuse s m (if s.snap.filling.any (fun f => f.1 != r.rank) && r.id == moduleId.toNat then .busyFill else .busyStep)
    else match p.plan.ranks[r.rank]? with
      | none => refuse s m .badRange
      | some e =>
        match allPorts.find? (fun q => carries (portOf s q) r && bindable (portOf s q)),
          allPorts.find? (fun q => carries (portOf s q) r && (portOf s q).st == .member) with
        | some q, _ => replyOk (setSwitch (bindRank s q r) r) m []
        | none, some q => if (portOf s q).peerRank = some r.rank then replyOk (setSwitch s r) m [] else refuse s m .busyFill
        | none, none => if e.2 then replyBad s m .fabricMismatch (rankMask s r.rank) 0 else replyOk (setSwitch s r) m []

/-- REMAP (R234). -/
def execRemap (m : Nat) (s : State) : Out :=
  serve 0x107 (bodyLen 64) (fun b => rsvFrom 0 8 b || rsvFrom 60 8 b) remapState remapRank m s

/-! ### Snapshot and restore (R300, R301, R310, R318) -/

/-- Words 0x08 to 0x24 of a SNAPSHOT: the flows used, by index (R300). -/
def snapFlowsOf (b : Mailbox) : List Nat :=
  ((List.range 8).filterMap (fun i => let w := reqWord b (8 + 4 * i); if bitOf w 31 then some (fieldOf w 0 18) else none))

/-- Flows in rising order, each once. -/
def sortNats (l : List Nat) : List Nat := (l.foldl (fun (t : Tab Unit) f => tabPut t f ()) []).map Prod.fst

/-- A reserved field of a SNAPSHOT (R300). -/
def snapRsv (b : Mailbox) : Bool :=
  rsvFrom 4 4 b || (List.range 8).any (fun i => fieldOf (reqWord b (8 + 4 * i)) 18 13 != 0) || rsvFrom 0x2C 8 b || rsvFrom 0x38 8 b

/-- A flow the request names is an OPEN SNAPSHOT flow of its session. -/
def snapFlowOk (s : State) (sid f : Nat) : Bool :=
  (flowOf s f).any (fun v => v.st == .opened && v.kind == .snapshot && v.session == sid)

/-- The state in which a SNAPSHOT is refused, in the order of R300; DRAINING under R332. -/
def snapState (s : State) : Option Status :=
  if s.dev.st = .draining then some .wrongState
  else if jobLoaded s = false then some .noJob
  else if s.snap.snap.isSome ∨ s.snap.rest.isSome then some .busySnapshot
  else if s.dev.st = .filling then some .busyFill
  else none

/-- SNAPSHOT (R300, R301): accepted, and captured at once while the job is held. An image whose manifest would exceed the
16 MiB of R305 is out of range (DESIGN CHOICE, log entry 48). -/
def startSnapshot (s : State) (m : Nat) (b : Mailbox) : State :=
  let sid := fromSession b
  let fs := snapFlowsOf b
  let portable := bitOf (reqWord b 4) 0
  let layout := fieldOf (reqWord b 4) 1 2
  let remote := reqWord b 0x28 + 2 ^ 32 * reqWord b 0x2C
  if fs.isEmpty || !(fs.all (snapFlowOk s sid)) then refuse s m .noFlowContext
  else if (if portable then layout ≠ 1 ∧ layout ≠ 2 else layout ≠ 0) ∨ remote % 0x10000 ≠ 0 then refuse s m .badRange
  else if s.job.invalid then refuse s m .notRestorable
  else
    let n : Snap := { id := reqWord b 0, portable := portable, layout := layout, frozen := bitOf (reqWord b 4) 3
                      session := sid, flows := sortNats fs, remote := remote, mailbox := m, step := 0, captured := false
                      chunks := [], staged := [], unsent := [], manifest := 0, block := 0, variant := 0 }
    if s.job.pkg.any (fun p => decide (0x1000000 < manifestLen p (imageChunks p n).length)) then refuse s m .badRange
    else
      let s1 := waitAt { s with snap := { s.snap with snap := some n, starvedAt := none } } m .snapshot []
      if s.job.held then captureHeld s1 else s1

/-- SNAPSHOT (R300). -/
def execSnapshot (m : Nat) (s : State) : Out := serve 0x300 (bodyLen 64) snapRsv snapState startSnapshot m s

/-- SNAPSHOT_CANCEL (R318). -/
def execSnapshotCancel (m : Nat) (s : State) : Out :=
  serve 0x301 (bodyLen 0) noRsv inRunning (fun t k _ =>
    if t.snap.snap.isSome then replyOk (tryEndJob (failSnapshot t 2)) k [] else refuse t k .wrongState) m s

/-- Override entries of a RESTORE (R310). -/
def overridesOf (b : Mailbox) : List (Nat × Nat) :=
  (List.range (fieldOf (reqWord b 0xC) 0 9)).map (fun i => (fieldOf (reqWord b (0x10 + 8 * i)) 0 8, reqWord b (0x14 + 8 * i)))

/-- A reserved field of a RESTORE (R310). -/
def restoreRsv (b : Mailbox) : Bool :=
  rsvFrom 4 10 b || rsvFrom 8 25 b || rsvFrom 0xC 9 b ||
    (List.range (fieldOf (reqWord b 0xC) 0 9)).any (fun i => rsvFrom (0x10 + 8 * i) 8 b)

/-- A step is running: from its STEP_OPEN to its STEP_CLOSE, and between steps until the next STEP_OPEN, unless the job
has not issued its first STEP_OPEN since it was loaded, restored or abandoned a step (R310). -/
def stepRuns (s : State) : Bool := !s.job.held && !s.fence.abandoned && (s.shut.inStep || s.job.stepped)

/-- Where RESTORE is accepted (R310): a job loaded that does not run. -/
def restoreState (s : State) : Option Status :=
  if s.dev.st ≠ .running ∧ s.dev.st ≠ .filling then some .wrongState
  else if jobLoaded s = false then some .noJob
  else if s.job.endDue then some .wrongState
  else if s.dev.st = .running ∧ stepRuns s = true then some .busyStep
  else if s.snap.snap.isSome ∨ s.snap.rest.isSome then some .busySnapshot
  else none

/-- The package uses a stream number. -/
def usesStream (p : Package) (k : Nat) : Bool :=
  p.descs.any (fun d => match d with | .stream v => v.stream == k | _ => false)

/-- RESTORE (R310): the target opens for the writes of the restore stream. The reply has SNAP_ID in effect; write-only
words read zero (R9). -/
def startRestore (s : State) (m : Nat) (b : Mailbox) : State :=
  let stream := fieldOf (reqWord b 4) 0 8
  let mlen := reqWord b 8
  if mlen = 0 ∨ 0x1000000 < mlen ∨ mlen % 8 ≠ 0 ∨ 256 < fieldOf (reqWord b 0xC) 0 9 ∨ s.job.pkg.any (fun p => usesStream p stream) = true then
    refuse s m .badRange
  else
    let r : RestoreRun := { snapId := reqWord b 0, stream := stream, authoritative := bitOf (reqWord b 4) 8
                            overrides := if bitOf (reqWord b 4) 9 then some (overridesOf b) else none, mlen := mlen
                            mbuf := [], mgot := [], man := none, step := s.job.step, lines := [], matched := [] }
    replyOk { s with snap := { s.snap with rest := some r } } m (words [reqWord b 0, 0, 0, 0])

/-- RESTORE (R310). -/
def execRestore (m : Nat) (s : State) : Out :=
  serve 0x302 (fun _ b => decide (16 ≤ reqLen b) && reqLen b == 16 + 8 * fieldOf (reqWord b 0xC) 0 9) restoreRsv restoreState
    startRestore m s

/-! ### Budgets (R264, R265) -/

/-- Reserved bits of a POWER_BUDGET (R264). -/
def budgetRsv (b : Mailbox) : Bool := rsvFrom 8 16 b || rsvFrom 12 10 b

/-- The check of a POWER_BUDGET that fails first after its reserved bits (R265). -/
def budgetFault (s : State) (seq soft hard hold : Nat) : Option Status :=
  if soft < 1000 ∨ 8000 < soft ∨ hard < 1200 ∨ 8000 < hard ∨ hard < soft ∨ (hold ≠ 0 ∧ hold < 100) ∨ 60000 < hold then
    some .badRange
  else if seq ≤ s.power.seq then some .staleBudget
  else if s.power.accepted.any (fun t => decide (s.nowUs < t + 100000)) then some .budgetRate
  else none

/-- POWER_BUDGET (R264, R265): in force from the next window; the reply returns the values accepted. -/
def takeBudget (s : State) (m : Nat) (b : Mailbox) : State :=
  let soft := fieldOf (reqWord b 4) 0 16
  let hard := fieldOf (reqWord b 4) 16 16
  let hold := fieldOf (reqWord b 8) 0 16
  match budgetFault s (reqWord b 0) soft hard hold with
  | some st => refuse s m st
  | none =>
    let s1 := modPower s (fun w => { w with
      seq := reqWord b 0, next := some (soft, hard), hold := hold, fallback := false, accepted := some s.nowUs
      taken := sat32 (w.taken + 1) })
    replyOk s1 m (words [reqWord b 0, soft + 65536 * hard, hold, s.power.grade + 16 * dutyOf s])

/-- A POWER_BUDGET that one of its checks refuses (R265, R338). -/
def budgetRefused (s : State) (b : Mailbox) : Bool :=
  !(bodyLen 16 s b) || hdrRsv b || budgetRsv b || (stateFault s b anyState).isSome ||
    (budgetFault s (reqWord b 0) (fieldOf (reqWord b 4) 0 16) (fieldOf (reqWord b 4) 16 16) (fieldOf (reqWord b 8) 0 16)).isSome

/-- BUDGETS_REFUSED counts a refused budget (R278). -/
def countRefused (s : State) (b : Mailbox) : State :=
  if budgetRefused s b then modPower s (fun w => { w with refusedN := sat32 (w.refusedN + 1) }) else s

/-- POWER_BUDGET (R264, R265). -/
def execPowerBudget (m : Nat) (s : State) : Out :=
  if s.mgmt.rings.head? = some m ∧ (boxOf s m).rung = true ∧ reqOp (boxOf s m) = 0x500 then
    serve 0x500 (bodyLen 16) budgetRsv anyState takeBudget m (countRefused s (boxOf s m))
  else startUnknown m s

/-! ### Cooling and sensors (R283, R286, R287, R341) -/

/-- The check of a COOLING_REPORT that fails first (R286). -/
def reportFault (s : State) (seq tIn tOut flow : Nat) : Option Status :=
  if 8000 < tIn ∨ 10000 < tOut ∨ 100000 < flow then some .badRange
  else if seq ≤ s.therm.seq then some .staleReport
  else if s.therm.accepted.any (fun t => decide (s.nowUs < t + 100000)) then some .reportRate
  else none

/-- An inlet outside 15 to 45 °C (R287). -/
def inletWatch (s : State) (tIn : Nat) : State :=
  if tIn < 1500 ∨ 4500 < tIn then setCause (raiseEv s srcThimble .coolInlet [tIn]) .cooling else s

/-- COOLING_REPORT (R286, R287). -/
def takeReport (s : State) (m : Nat) (b : Mailbox) : State :=
  let tIn := fieldOf (reqWord b 4) 0 16
  let tOut := fieldOf (reqWord b 4) 16 16
  let flow := fieldOf (reqWord b 8) 0 24
  match reportFault s (reqWord b 0) tIn tOut flow with
  | some st => refuse s m st
  | none =>
    let s1 := modTherm s (fun t => { t with
      seq := reqWord b 0, tIn := tIn, tOut := tOut, flow := flow, fresh := true, accepted := some s.nowUs })
    replyOk (inletWatch s1 tIn) m (words [reqWord b 0, tIn + 65536 * tOut, flow,
      ratUnits s.therm.theta 10000 % 65536 + 65536 * (s.therm.tj % 65536).toNat])

/-- COOLING_REPORT (R286). -/
def execCoolingReport (m : Nat) (s : State) : Out := serve 0x501 (bodyLen 16) (rsvFrom 8 24) anyState takeReport m s

/-- A sensor's reading and state: 0 working, 1 failed, 2 not read; bit 18 a suspect pair (R283, R341). -/
def sensorWord (s : State) (n : Nat) : Nat :=
  let v := match tabFind s.therm.sensors n with
    | some (some x) => (x % 65536).toNat
    | some none => 65536
    | none => 2 * 65536
  v + 2 ^ 18 * boolNat (decide (n < 512) && s.therm.suspects.contains (n / 2))

/-- SENSOR_READ (R341): a word for every sensor. -/
def execSensorRead (m : Nat) (s : State) : Out :=
  serve 0x502 (bodyLen 0) noRsv anyState (fun t k _ => replyOk t k (words ((List.range 528).map (sensorWord t)))) m s

/-- SENSOR_CLEAR (R283, R341): in READY, every suspect marking and the service flag. -/
def execSensorClear (m : Nat) (s : State) : Out :=
  serve 0x503 (bodyLen 0) noRsv (inStates [.ready]) (fun t k _ =>
    replyOk { t with therm := { t.therm with suspects := [] }, dev := { t.dev with service := false } } k []) m s

/-- The lifetime totals of a memory unit (R203). -/
def lifeBytes (s : State) (u : Nat) : List Byte :=
  let l := (memUnitOf s u).life
  leBytes 8 l.1 ++ leBytes 8 l.2.1 ++ leBytes 8 l.2.2

/-- LIFETIME_READ (R203, R262): lifetime energy in 1 kJ, then memory totals of units from a cursor. -/
def execLifetimeRead (m : Nat) (s : State) : Out :=
  serve 0x504 (fun _ b => reqLen b == 8 && decide (reqWord b 4 ≤ 169)) noRsv anyState (fun t k b =>
    let n := min (reqWord b 4) (panels + channels - reqWord b 0)
    replyOk t k (leBytes 8 (t.power.lifetime / 100000000) ++ words [reqWord b 0 + n, 0]
      ++ (List.range n).flatMap (fun i => lifeBytes t (reqWord b 0 + i)))) m s

end Sys2Proof.Machine
end

