-- ==== Sys2Proof/Machine/Records.lean ====
section
/-! DEFINITION. Row records: their bytes (R109), pocket memory and overflow region (R110), the term
updates of R111 and the exchange of records (R112). -/

namespace Sys2Proof.Machine

open Sys2Proof.Config

/-- The 32 bytes of a row record (R109). -/
def rowBytes (r : RowRec) : List Byte :=
  leBytes 4 r.part.toNat ++ leBytes 4 r.total.toNat ++ leBytes 4 r.maxv.toNat ++ leBytes 4 r.result.toNat
    ++ leBytes 4 r.idx ++ leBytes 4 r.aux.toNat
    ++ leBytes 4 (r.last + 2 ^ 21 * boolNat r.fixed + 2 ^ 22 * boolNat r.seen) ++ leBytes 4 r.prev

/-- A row record from its bytes; reserved bits are ignored (R10). -/
def rowOfBytes (bs : List Byte) : RowRec :=
  let w := fun i => wordAt bs (4 * i)
  { part := BitVec.ofNat 32 (w 0), total := BitVec.ofNat 32 (w 1), maxv := BitVec.ofNat 32 (w 2)
    result := BitVec.ofNat 32 (w 3), idx := fieldOf (w 4) 0 21, aux := BitVec.ofNat 32 (w 5)
    last := fieldOf (w 6) 0 21, fixed := bitOf (w 6) 21, seen := bitOf (w 6) 22, prev := fieldOf (w 7) 0 21 }

/-- Records of pocket memory (R110). -/
def pocketRecords : Nat := 8192

/-- Address of record n of panel q in a descriptor's overflow region (R110). -/
def ovfAddr (q : Nat) (rd : RowDesc) (n : Nat) : Nat :=
  resolveAddr q (256 * rd.ovfBase) + 32 * (n - pocketRecords)

/-- Every record of a range that lies in the overflow region exists in the address map. -/
def rowsOk (q : Nat) (rd : RowDesc) (n k : Nat) : Bool :=
  if n + k ≤ pocketRecords then true
  else rangeOk (ovfAddr q rd (max n pocketRecords)) (32 * (n + k - max n pocketRecords))

/-- Read record n of panel q (R109, R110). -/
def rowGet (s : State) (q : Nat) (rd : RowDesc) (n : Nat) : RowRec :=
  if n < pocketRecords then tabGet {} (panelOf s q).rows n
  else rowOfBytes (memBytes (viewMem s) (ovfAddr q rd n) 32)

/-- What reading record n does beside delivering it (R197). -/
def rowTouch (s : State) (q : Nat) (rd : RowDesc) (n : Nat) : State :=
  if n < pocketRecords then s else touchRange s (ovfAddr q rd n) 32

/-- Write record n of panel q. -/
def rowPut (s : State) (q : Nat) (rd : RowDesc) (n : Nat) (r : RowRec) : State :=
  if n < pocketRecords then modPanel s q (fun w => { w with rows := tabPut w.rows n r })
  else stepWrite s (ovfAddr q rd n) (rowBytes r)

/-! ### Terms (R111) -/

/-- The slice step of R111. -/
def sliceStep (rd : RowDesc) (r : RowRec) (i : Nat) : RowRec :=
  if r.seen && i / max rd.sliceElems 1 != r.prev / max rd.sliceElems 1 then
    { r with total := f32Add r.total r.part, part := 0#32 }
  else r

/-- Every update sets SEEN and PREV (R111). -/
def termSeen (r : RowRec) (i : Nat) : RowRec := { r with seen := true, prev := i }

/-- MAX (R111): a later equal term does not replace MAXV; a NaN does, once. -/
def maxTerm (r : RowRec) (x : F32) (i : Nat) : RowRec :=
  if f32IsNaN x then (if f32IsNaN r.maxv then r else { r with maxv := f32NaN, idx := i })
  else if f32Lt r.maxv x then { r with maxv := x, idx := i } else r

/-- SAMPLE (R111). -/
def sampleTerm (r : RowRec) (x : F32) (i : Nat) : RowRec :=
  let r1 := { r with total := f32Add r.total x }
  if r1.fixed then r1
  else
    let r2 := if f32Lt 0#32 x then { r1 with last := i } else r1
    if f32Lt r2.aux r2.total then { r2 with idx := i, fixed := true } else r2

/-- The update of one term with sub-operation 0 to 4 (R111). -/
def rowTerm (rd : RowDesc) (sub : Nat) (r : RowRec) (x y : F32) (i : Nat) : RowRec :=
  let add := fun (t : F32) => let u := sliceStep rd r i; { u with part := f32Add u.part t }
  termSeen (match sub with
    | 0 => add x
    | 1 => add (f32Mul x x)
    | 2 => maxTerm r x i
    | 3 => add (f32Mul x y)
    | _ => sampleTerm r x i) i

/-- Apply a term to a record of panel q: the record, ROW_TERMS, ROW_ORDER (R111, R117). A record with SEEN = 0 has taken no
term that an index could fall behind, so its first term sets no ROW_ORDER, whatever PREV holds (R111 leaves it open; DESIGN
CHOICE, log entry 80). -/
def pushTerm (s : State) (q tag : Nat) (rd : RowDesc) (n sub : Nat) (x y : F32) (i : Nat) : State :=
  let r := rowGet s q rd n
  let s1 := rowPut (rowTouch s q rd n) q rd n (rowTerm rd sub r x y i)
  if stepGone s1 then s1 else
  let s2 := modPanel s1 q (fun w => { w with ndl := { w.ndl with rowTerms := sat32 (w.ndl.rowTerms + 1) } })
  setFlagIf s2 (r.seen && decide (i ≤ r.prev)) q .rowOrder tag

end Sys2Proof.Machine
end

