-- ==== Sys2Proof/Machine/Package.lean ====
section
/-! DEFINITION. Reading a job package from its bytes (R98, R100, R106, R165, R166, R170, R171, R178, R181, R191,
R225, R229, R250, R361), and the checks of the header and directory (R182, R402 step 1). -/

namespace Sys2Proof.Machine

open Sys2Proof.Config

/-! ### Failures and places (R337, R402) -/

/-- A failed check: the place of its entry in directory order, the section TYPE, the index, the status. -/
structure PkgFail where
  pos : Nat
  typ : Nat
  idx : Nat
  st : Status
deriving DecidableEq, Repr

/-- A directory entry: its position, TYPE, OFFSET and LENGTH (R181). -/
structure Sect where
  pos : Nat
  typ : Nat
  off : Nat
  len : Nat
deriving DecidableEq, Repr

/-- The header of a package (R181). -/
structure PkgHeader where
  lz7 : Bool
  npset : Nat
  ndesc : Nat
  ntags : Nat
  nstitch : Nat
  nvar : Nat
  ngp : Nat
  seed : Nat
  nsect : Nat
  nmicro : Nat
deriving DecidableEq, Repr

def readHeader (bs : List Byte) : PkgHeader :=
  { lz7 := bitOf (wordAt bs 4) 16, npset := fieldOf (wordAt bs 8) 0 11, ndesc := fieldOf (wordAt bs 12) 0 15
    ntags := fieldOf (wordAt bs 16) 0 13, nstitch := fieldOf (wordAt bs 20) 0 21, nvar := fieldOf (wordAt bs 24) 0 7
    ngp := fieldOf (wordAt bs 28) 0 13
    seed := wordAt bs 32 + 2 ^ 32 * wordAt bs 36 + 2 ^ 64 * wordAt bs 40 + 2 ^ 96 * wordAt bs 44
    nsect := fieldOf (wordAt bs 48) 0 16, nmicro := fieldOf (wordAt bs 52) 0 17 }

def readSect (bs : List Byte) (i : Nat) : Sect :=
  let o := 64 + 16 * i
  { pos := i, typ := fieldOf (wordAt bs o) 0 16, off := wordAt bs (o + 8), len := wordAt bs (o + 12) }

def readDirectory (bs : List Byte) : List Sect := (List.range (readHeader bs).nsect).map (readSect bs)

/-- The section of a TYPE; an absent one is empty, behind every section of the directory. -/
def sectOf (dir : List Sect) (typ : Nat) : Sect :=
  (dir.find? (fun d => d.typ == typ)).getD { pos := dir.length, typ := typ, off := 0, len := 0 }

def sectBytes (bs : List Byte) (d : Sect) : List Byte := (bs.drop d.off).take d.len

/-- The entries of a section in pieces of `n` bytes. -/
def packEntries (n : Nat) (bs : List Byte) : List (List Byte) :=
  (List.range (bs.length / max n 1)).map (fun i => (bs.drop (n * i)).take n)

/-- Every set bit of the words lies in the masks of the fields; words beyond the masks are reserved. -/
def rsvOk (masks : List Nat) (bs : List Byte) : Bool :=
  (List.range (bs.length / 4)).all (fun i => Nat.land (wordAt bs (4 * i)) (masks.getD i 0) == wordAt bs (4 * i))

/-- Every bit of a word. -/
def fullWord : Nat := 0xFFFFFFFF

/-! ### Header and directory (R181, R182, R402 step 1) -/

/-- Bytes that a section of a TYPE has by the header's counts, or an entry size it is a multiple of with its table's
limit (R25, R98, R100, R106, R178, R181, R191). A chalk section may be empty, also where a chain holds CHALK (R106 does
not say; DESIGN CHOICE, log entry 2: CHALK then gives a free value). -/
def sectLenOk (h : PkgHeader) (d : Sect) : Bool :=
  match d.typ with
  | 1 => d.len == 128 * h.nstitch
  | 2 => d.len == 64 * h.npset
  | 3 => d.len == 64 * h.ndesc
  | 4 => d.len % 8 == 0 && decide (d.len ≤ 4096)
  | 5 => d.len % 8 == 0 && decide (d.len ≤ 32768)
  | 6 => d.len == 0 || d.len == 8 * 8224
  | 7 => d.len == 32 * h.nvar
  | 8 => d.len % 4 == 0
  | 9 => d.len % 4 == 0
  | 10 => d.len % 4 == 0
  | 11 => d.len % 4 == 0
  | 12 => decide (32 + 12 * 64 ≤ d.len)
  | 13 => d.len % 32 == 0
  | 14 => d.len == 48 || d.len == 0
  | _ => false

/-- The masks of the header's fields. -/
def headerMasks : List Nat :=
  [fullWord, 0x1FFFF, 0x7FF, 0x7FFF, 0x1FFF, 0x1FFFFF, 0x7F, 0x1FFF, fullWord, fullWord, fullWord, fullWord, 0xFFFF,
    0x1FFFF]

def countIn (n hi : Nat) : Bool := decide (1 ≤ n) && decide (n ≤ hi)

/-- The sections that every package holds, by the header's counts. -/
def needed : List Nat := [1, 2, 3, 7, 8, 12]

/-- The checks of the header (R74, R181, R182). -/
def headerFault (bs : List Byte) : Option Status :=
  let h := readHeader bs
  if bs.length < 64 ∨ wordAt bs 0 ≠ 0x4B574C39 ∨ fieldOf (wordAt bs 4) 0 16 ≠ 1 then some .badPackage
  else if !(countIn h.npset panelSets && countIn h.ndesc descriptors && countIn h.ntags tensorTags &&
      countIn h.nstitch 0x100000 && countIn h.nvar 64 && countIn h.ngp 4096 &&
      decide (64 + 16 * h.nsect ≤ bs.length)) then some .badPackage
  else if !(needed.all (fun t => (readDirectory bs).any (fun d => d.typ == t))) then some .badPackage
  else if !(rsvOk headerMasks (bs.take 64)) then some .badReserved
  else if 65535 < h.nmicro then some .badDescriptor
  else none

/-- Two sections share a byte; an empty one shares none (R182). -/
def sectsMeet (a b : Sect) : Bool :=
  a.len != 0 && b.len != 0 && decide (a.off < b.off + b.len) && decide (b.off < a.off + a.len)

/-- The checks of a directory entry (R182): its range, TYPE, length and overlap with an earlier one, then its reserved
fields. -/
def directoryFault (bs : List Byte) (d : Sect) : Option Status :=
  let h := readHeader bs
  let earlier := (readDirectory bs).take d.pos
  if d.typ = 0 ∨ 14 < d.typ ∨ bs.length < d.off + d.len ∨ (d.len ≠ 0 ∧ d.off < 64 + 16 * h.nsect) ∨ d.off % 4 ≠ 0
      ∨ sectLenOk h d = false then some .badPackage
  else if earlier.any (fun e => sectsMeet e d || e.typ == d.typ) then some .badPackage
  else if rsvOk [0xFFFF, 0, fullWord, fullWord] ((bs.drop (64 + 16 * d.pos)).take 16) then none
  else some .badReserved

/-- The first failure of the header and the directory, placed in the header (TYPE 0) or at a directory entry. -/
def frontFail (bs : List Byte) : Option PkgFail :=
  match headerFault bs with
  | some st => some ⟨0, 0, 0, st⟩
  | none => (readDirectory bs).findSome? (fun d => (directoryFault bs d).map (fun st => ⟨d.pos, 0, d.pos, st⟩))

/-! ### Reading the sections -/

/-- A slot word (R166). -/
def readSlot (w : Nat) : Slot := { op := fieldOf w 26 6, pset := fieldOf w 16 10, desc := fieldOf w 2 14 }

/-- A stitch (R165). -/
def readStitch (b : List Byte) : Stitch :=
  let w := fun (i : Nat) => wordAt b (4 * i)
  { flow := fieldOf (w 0) 0 4, ctr := fieldOf (w 0) 4 2, arg := fieldOf (w 0) 6 20, point := fieldOf (w 0) 26 4
    microOp := fieldOf (w 0) 30 2, gp := fieldOf (w 1) 0 12, sync := fieldOf (w 1) 12 8, pmark := bitOf (w 1) 20
    gap := fieldOf (w 2) 0 16
    mslots := (List.range 8).map (fun n => readSlot (w (4 + n)))
    nslots := (List.range 8).map (fun n => readSlot (w (12 + n)))
    rslots := (List.range 4).map (fun n => readSlot (w (20 + n)))
    vslots := (List.range 8).map (fun n => readSlot (w (24 + n))) }

/-- A panel set entry (R170). -/
def readPanelSet (b : List Byte) : PanelSet := { mask := leNat (b.take 32), phases := fieldOf (wordAt b 32) 0 4 }

/-- A TENSOR descriptor; a reserved FMT reads as none (R171). -/
def readTensor (w : Nat → Nat) : Option TensorDesc :=
  (Fmt.ofCode (fieldOf (w 0) 4 4)).map (fun f =>
    { fmt := f, tag := fieldOf (w 0) 8 12, axes := fieldOf (w 0) 20 2, caxis := fieldOf (w 0) 22 2, span := fieldOf (w 0) 24 2
      kout := fieldOf (w 0) 26 3, sr := bitOf (w 0) 29, spooled := bitOf (w 0) 30, ext := [w 1, w 2, w 3, w 4]
      elemBase := w 5, scaleBase := w 6, storeBase := w 7, indexBase := w 8, storeCap := fieldOf (w 9) 0 25, storeLen := w 10
      spoolBytes := w 11, drop := w 12, mstride := w 13 })

def readProduct (w : Nat → Nat) : ProductDesc :=
  { tol := fieldOf (w 0) 4 2, stat := bitOf (w 0) 6, a := fieldOf (w 1) 0 14, b := fieldOf (w 1) 16 14, c := fieldOf (w 2) 0 14
    mT := fieldOf (w 3) 0 8, nT := fieldOf (w 3) 8 8, rotBase := fieldOf (w 3) 16 3, sliceRuns := fieldOf (w 4) 0 13
    ranges := fieldOf (w 5) 0 16, rowSplit := fieldOf (w 6) 0 9, colSplit := fieldOf (w 6) 9 9, kSplit := fieldOf (w 6) 18 9 }

def readFold (w : Nat → Nat) : FoldDesc :=
  { path := fieldOf (w 0) 4 2, src := fieldOf (w 1) 0 14, dst := fieldOf (w 1) 16 14, split := fieldOf (w 2) 0 9 }

def readRow (w : Nat → Nat) : RowDesc :=
  { tag := fieldOf (w 0) 4 12, base := fieldOf (w 1) 0 20, rowLen := fieldOf (w 2) 0 21, sliceElems := fieldOf (w 3) 0 21
    invN := BitVec.ofNat 32 (w 4), eps := BitVec.ofNat 32 (w 5), ovfBase := w 6, ovfLen := w 7, fwdBase := fieldOf (w 8) 0 20
    count := fieldOf (w 9) 0 21, saveBase := w 10, partner := fieldOf (w 11) 0 8 }

/-- A binding and its valid bit (R171). -/
def readBinding (w lo : Nat) : Option Nat := if bitOf w (lo + 14) then some (fieldOf w lo 14) else none

def readBind (w : Nat → Nat) : BindDesc :=
  { chain := fieldOf (w 0) 4 9
    binds := [readBinding (w 1) 0, readBinding (w 1) 16, readBinding (w 2) 0, readBinding (w 2) 16] }

def readMove (w : Nat → Nat) : MoveDesc :=
  { srcSp := bitOf (w 0) 4, dstSp := bitOf (w 0) 5, src := w 1, dst := w 2, len := w 3, srcMstride := w 4, dstMstride := w 5
    srcPstride := w 6, dstPstride := w 7 }

def readColl (w : Nat → Nat) : CollDesc :=
  { op := fieldOf (w 0) 4 3, elemL16 := bitOf (w 0) 7, group := fieldOf (w 0) 8 6, planes := fieldOf (w 0) 14 4, src := w 1
    dst := w 2, count := w 3, srcMstride := w 4, dstMstride := w 5 }

def readStream (w : Nat → Nat) : StreamDesc :=
  { emit := bitOf (w 0) 4, stream := fieldOf (w 0) 5 8, slots := fieldOf (w 0) 13 4 + 1, ahead := fieldOf (w 0) 17 2
    region := w 1, slotBytes := w 2, records := fieldOf (w 3) 0 16, recordBytes := w 4, loc := w 5, len := w 6
    remote := w 7 + 2 ^ 32 * fieldOf (w 8) 0 8, mstride := w 9, remoteStep := w 10 }

def readNote (w : Nat → Nat) : NoteDesc :=
  { mailbox := fieldOf (w 0) 4 4, code := fieldOf (w 0) 8 16, src := w 1, len := fieldOf (w 2) 0 9, mstride := w 3 }

/-- A descriptor by KIND; none where KIND or FMT is reserved (R171). -/
def readDesc (b : List Byte) : Option Desc :=
  let w := fun (i : Nat) => wordAt b (4 * i)
  match fieldOf (w 0) 0 4 with
  | 0 => some .empty
  | 1 => (readTensor w).map .tensor
  | 2 => some (.product (readProduct w))
  | 3 => some (.fold (readFold w))
  | 4 => some (.row (readRow w))
  | 5 => some (.bind (readBind w))
  | 6 => some (.move (readMove w))
  | 7 => some (.coll (readColl w))
  | 8 => some (.stream (readStream w))
  | 9 => some (.note (readNote w))
  | _ => none

/-- A chain table entry (R98). -/
def readChain (b : List Byte) : ChainEntry :=
  let w0 := wordAt b 0
  let w1 := wordAt b 4
  { entry := fieldOf w0 0 12, length := fieldOf w0 16 9, vl := fieldOf w1 0 7, passGroups := fieldOf w1 8 4
    source := fieldOf w1 12 2, consume := bitOf w1 14 }

/-- A needle instruction (R100). -/
def readNeedle (b : List Byte) : NInstr :=
  let v := leNat b
  { op := fieldOf v 56 8
    args := { vd := fieldOf v 52 4, va := fieldOf v 48 4, vb := fieldOf v 44 4, vc := fieldOf v 40 4, pred := fieldOf v 38 2
              pneg := bitOf v 37, bimm := bitOf v 36, sr := bitOf v 35, sub := fieldOf v 32 3
              imm := BitVec.ofNat 32 (fieldOf v 0 32) } }

/-- A signed byte. -/
def signed8 (n : Nat) : Int := (BitVec.ofNat 8 n).toInt

/-- A chalk table (R106). -/
def readChalk (b : List Byte) : Chalk :=
  let w := fun (o : Nat) => wordAt b o
  { octave := bitOf (w 0) 0, quad := bitOf (w 0) 1, below := fieldOf (w 0) 2 2, above := fieldOf (w 0) 4 2
    x0 := BitVec.ofNat 32 (w 4), hExp := signed8 (fieldOf (w 8) 0 8), e0 := signed8 (fieldOf (w 8) 8 8)
    low := BitVec.ofNat 32 (w 12), high := BitVec.ofNat 32 (w 16)
    coefs := (List.range 512).map (fun i =>
      (BitVec.ofNat 32 (w (32 + 16 * i)), BitVec.ofNat 32 (w (36 + 16 * i)), BitVec.ofNat 32 (w (40 + 16 * i)))) }

/-- A grade point table entry: the stitch address, or none (R178). -/
def readPoint (w : Nat) : Option Nat := if w = fullWord then none else some w

/-- The grade point table at an offset of its section. -/
def readPoints (gps : List Byte) (ngp off : Nat) : List (Option Nat) :=
  (List.range ngp).map (fun g => readPoint (wordAt gps (off + 4 * g)))

/-- A variant table entry with its grade point table (R178). -/
def readVariant (gps : List Byte) (ngp : Nat) (b : List Byte) : Variant :=
  let w := fun (i : Nat) => wordAt b (4 * i)
  { grade := fieldOf (w 0) 0 4, recipe := fieldOf (w 0) 4 4, recompute := bitOf (w 0) 8, pAvg := fieldOf (w 2) 0 16
    pPeak := fieldOf (w 2) 16 16, eStep := w 3, tStep := w 4, dtj := fieldOf (w 5) 0 16, spoolNeed := fieldOf (w 6) 0 16
    points := readPoints gps ngp (w 1) }

def readEscalation (w : Nat) : Escalation :=
  { tag := fieldOf w 0 12, src := fieldOf w 12 4, dst := fieldOf w 16 4, valid := bitOf w 20 }

def readLayer (w : Nat) : LayerEntry := { weight := fieldOf w 0 14, frozen := bitOf w 14, site := fieldOf w 16 14 }

/-- Rank ranges: each a count of words and as many boundaries (R64, R181). -/
def readRanges : Nat → List Nat → List (List Nat)
  | 0, _ => []
  | _, [] => []
  | n + 1, c :: t => t.take c :: readRanges n (t.drop c)

/-- The words of a section. -/
def wordsOf (b : List Byte) : List Nat := (List.range (b.length / 4)).map (fun i => wordAt b (4 * i))

/-- A region map entry (R191). -/
def readRegion (b : List Byte) : Region :=
  let w := fun (i : Nat) => wordAt b (4 * i)
  { lpddr := fieldOf (w 0) 0 4 != 0, jobState := bitOf (w 0) 4, base := bitOf (w 0) 5, frozen := bitOf (w 0) 6
    dataset := bitOf (w 0) 7, spool := bitOf (w 0) 8, number := fieldOf (w 1) 0 16, start := w 2 + 2 ^ 32 * fieldOf (w 3) 0 8
    len := w 4 + 2 ^ 32 * fieldOf (w 5) 0 8 }

/-! ### The fabric plan (R225) -/

def readPlanPort (b : List Byte) : PlanPort :=
  let w := wordAt b 0
  { use := fieldOf w 0 2, farPort := fieldOf w 8 8, peerRank := fieldOf w 16 8, peerId := 2 ^ 32 * wordAt b 4 + wordAt b 8
    keyHash := beNat ((b.drop 12).take 48) }

/-- Bytes of a group entry of G ranks: G, the ranks, padding to 4 bytes. -/
def groupLen (g : Nat) : Nat := roundUp (1 + g) 4

/-- Group entries, and the offset behind them. -/
def readGroups (b : List Byte) : Nat → Nat → List (List Nat) × Nat
  | 0, o => ([], o)
  | n + 1, o =>
    let g := leNat ((b.drop o).take 1)
    let r := readGroups b n (o + groupLen g)
    (((b.drop (o + 1)).take g).map (fun x => x.toNat) :: r.1, r.2)

/-- A gating entry: GP, PORTS, WAKE. -/
def readGate (w : Nat) : Nat × Nat × Bool := (fieldOf w 0 12, fieldOf w 12 12, bitOf w 24)

def planRanks (b : List Byte) : Nat := fieldOf (wordAt b 0) 8 8
def planGroups (b : List Byte) : Nat := fieldOf (wordAt b 0) 16 8
def planGates (b : List Byte) : Nat := fieldOf (wordAt b 4) 0 16
/-- Offset of the rank entries, and of the groups. -/
def ranksOff : Nat := 32 + 12 * 64
def groupsOff (b : List Byte) : Nat := ranksOff + 4 * planRanks b

def readPlan (b : List Byte) : Plan :=
  let g := readGroups b (planGroups b) (groupsOff b)
  { rank := fieldOf (wordAt b 0) 0 8, nranks := planRanks b
    jobId := wordAt b 16 + 2 ^ 32 * wordAt b 20 + 2 ^ 64 * wordAt b 24
    ports := (List.range 12).map (fun k => readPlanPort ((b.drop (32 + 64 * k)).take 64))
    ranks := (List.range (planRanks b)).map (fun r =>
      let w := wordAt b (ranksOff + 4 * r)
      (fieldOf w 0 8, bitOf w 8))
    groups := g.1
    gates := (List.range (planGates b)).map (fun i => readGate (wordAt b (g.2 + 4 * i))) }

/-! ### The package -/

/-- SHA-384 over the header and every section but the fabric plan, in directory order (R181). -/
def rankDigestOf (bs : List Byte) (dir : List Sect) : Nat :=
  sha384 (bs.take 64 ++ (dir.filter (fun d => d.typ != 12)).flatMap (sectBytes bs))

/-- The package that bytes spell (R181). -/
def readPackage (bs : List Byte) : Package :=
  let h := readHeader bs
  let dir := readDirectory bs
  let sec := fun (t : Nat) => sectBytes bs (sectOf dir t)
  { lz7 := h.lz7, nmicro := h.nmicro, ntags := h.ntags, seed := h.seed, digest := sha384 bs, rankDigest := rankDigestOf bs dir
    baseDigest := if (sec 14).isEmpty then none else some (beNat (sec 14))
    psets := (packEntries 64 (sec 2)).map readPanelSet
    descs := (packEntries 64 (sec 3)).map (fun b => (readDesc b).getD .empty)
    stitches := (packEntries 128 (sec 1)).map readStitch
    chains := (packEntries 8 (sec 4)).map readChain
    needle := (packEntries 8 (sec 5)).map readNeedle
    chalk := (packEntries 8224 (sec 6)).map readChalk
    variants := (packEntries 32 (sec 7)).map (readVariant (sec 8) h.ngp)
    escal := (wordsOf (sec 9)).map readEscalation
    ranges := readRanges (sec 10).length (wordsOf (sec 10))
    layers := (wordsOf (sec 11)).map readLayer
    plan := readPlan (sec 12)
    regions := (packEntries 32 (sec 13)).map readRegion }

end Sys2Proof.Machine
end

