-- ==== Sys2Proof/Machine/Entries.lean ====
section
/-! DEFINITION. The checks of a package that concern one entry alone (R182 and the chapters it names, R402 step 2). -/

namespace Sys2Proof.Machine

open Sys2Proof.Config

/-- The first check of a list that fails. -/
def firstBad : List (Bool × Status) → Option Status
  | [] => none
  | (b, st) :: t => if b then some st else firstBad t

/-! ### Pattern and panel sets (R165 to R167, R170, R182) -/

def pointOk (n : Nat) : Bool := decide (n ≤ 5)

/-- The slots of a stitch with their classes: 0 matrix, 1 needle, 2 row, 3 mover. -/
def slotsOf (st : Stitch) : List (Nat × Slot) :=
  st.mslots.map (fun x => (0, x)) ++ st.nslots.map (fun x => (1, x)) ++ st.rslots.map (fun x => (2, x)) ++ st.vslots.map (fun x => (3, x))

/-- The highest opcode of a class (R166). -/
def topOp (cls : Nat) : Nat :=
  match cls with
  | 0 => 2 | 1 => 1 | 2 => 11 | _ => 8

def slotWords (b : List Byte) : List Nat := (List.range 28).map (fun n => wordAt b (16 + 4 * n))

/-- What BAD_STITCH refuses in a stitch at address a (R182). -/
def badStitch (h : PkgHeader) (a : Nat) (b : List Byte) (st : Stitch) : Bool :=
  let nextBad := decide (h.nstitch ≤ a + 1)
  decide (4 < st.flow) || !(pointOk st.point)
    || (slotsOf st).any (fun x => decide (topOp x.1 < x.2.op))
    || (slotWords b).any (fun w => fieldOf w 26 6 == 0 && w != 0)
    || (st.point == 0 && st.gp != 0)
    || ((st.flow == 1 || st.flow == 2) && decide (h.nstitch ≤ st.arg))
    || ((st.flow == 0 || st.flow == 2 || st.flow == 3) && nextBad)
    || (st.flow == 4 && st.point != 5)
    || (h.nmicro == 0 && (st.microOp == 1 || st.microOp == 2))

/-- A stitch alone (R182). -/
def stitchFault (h : PkgHeader) (a : Nat) (b : List Byte) : Option Status :=
  let st := readStitch b
  let live := (slotsOf st).filter (fun x => x.2.op != 0)
  firstBad [
    (!(rsvOk [fullWord, 0x1FFFFF, 0xFFFF, 0] (b.take 16)) || (slotWords b).any (fun w => fieldOf w 26 6 != 0 && w % 4 != 0), .badReserved),
    (badStitch h a b st, .badStitch),
    (live.any (fun x => decide (h.npset ≤ x.2.pset) || decide (h.ndesc ≤ x.2.desc)), .tableOverflow)]

/-- The heads of the rotation groups, each with its number of phases, scanning from entry i (R170). -/
def groupHeads : Nat → List PanelSet → Nat → List (Nat × Nat)
  | _, [], _ => []
  | i, e :: t, skip =>
    if skip = 0 then (i, e.phases + 1) :: groupHeads (i + 1) t e.phases else groupHeads (i + 1) t (skip - 1)

/-- The entries that are members of a group other than its head (R170). -/
def groupMembers (ps : List PanelSet) : List Nat :=
  (groupHeads 0 ps 0).flatMap (fun h => (List.range (h.2 - 1)).map (fun k => h.1 + 1 + k))

/-- A panel set alone: the member has every panel, so only a group that overruns the table is left (R25, R182). -/
def panelSetFault (h : PkgHeader) (heads : List (Nat × Nat)) (i : Nat) (b : List Byte) : Option Status :=
  firstBad [
    (!(rsvOk [fullWord, fullWord, fullWord, fullWord, fullWord, fullWord, fullWord, fullWord, 0xF] b), .badReserved),
    (decide (2 ^ panels ≤ (readPanelSet b).mask) || heads.any (fun e => e.1 == i && decide (h.npset < i + e.2)), .badPanelSet)]

/-! ### Descriptors (R171, R229, R250, R361) -/

/-- The bits that each KIND defines, word by word (R171, R229, R250, R361). -/
def descMasks (kind : Nat) : List Nat :=
  let f := fullWord
  match kind with
  | 0 => [0xF]
  | 1 => [0x7FFFFFFF, f, f, f, f, f, f, f, f, 0x1FFFFFF, f, f, f, f]
  | 2 => [0x7F, 0x3FFF3FFF, 0x3FFF, 0x7FFFF, 0x1FFF, 0xFFFF, 0x7FFFFFF]
  | 3 => [0x3F, 0x3FFF3FFF, 0x1FF]
  | 4 => [0xFFFF, 0xFFFFF, 0x1FFFFF, 0x1FFFFF, f, f, f, f, 0xFFFFF, 0x1FFFFF, f, 0xFF]
  | 5 => [0x1FFF, 0x7FFF7FFF, 0x7FFF7FFF]
  | 6 => [0x3F, f, f, f, f, f, f, f]
  | 7 => [0x3FFFF, f, f, f, f, f]
  | 8 => [0x7FFFF, f, f, 0xFFFF, f, f, f, f, 0xFF, f, f]
  | 9 => [0xFFFFFF, f, 0x1FF, f]
  | _ => [f, f, f, f, f, f, f, f, f, f, f, f, f, f, f, f]

/-- The descriptors that a descriptor names (R171). -/
def refsOf : Desc → List Nat
  | .product d => [d.a, d.b, d.c]
  | .fold d => [d.src, d.dst]
  | .bind d => d.binds.filterMap id
  | _ => []

/-- Fields of a TENSOR outside their range (R39, R43, R171). -/
def badTensor (t : TensorDesc) : Bool :=
  t.span == 3 || (t.kout != 0 && t.fmt != .l4) || (t.ext.drop (t.axes + 1)).any (fun e => e != 0)
    || (fmtNarrow t.fmt && decide (t.axes < t.caxis)) || (t.kout == 0 && (t.storeBase != 0 || t.indexBase != 0))
    || t.spoolBytes % 64 != 0

/-- Fields of a PRODUCT outside their range (R63, R80, R171). -/
def badProduct (d : ProductDesc) : Bool :=
  !(countIn d.mT 128) || !(countIn d.nT 128) || !(countIn d.sliceRuns 4096) || !(countIn d.rowSplit 256)
    || !(countIn d.colSplit 256) || !(countIn d.kSplit 256)

/-- Fields of a ROW outside their range (R110). -/
def badRow (d : RowDesc) : Bool := !(countIn d.rowLen 0x100000) || !(countIn d.sliceElems 0x100000)

/-- Fields of a STREAM outside their range (R250). -/
def badStream (d : StreamDesc) : Bool :=
  if d.emit then d.len % 64 != 0
  else d.slotBytes == 0 || d.slotBytes % 0x10000 != 0 || d.records == 0 || d.recordBytes % 64 != 0
    || decide (d.slotBytes < d.records * d.recordBytes) || decide (d.slots ≤ d.ahead)

/-- A field of a descriptor outside its range (R182: BAD_DESCRIPTOR). -/
def badField : Desc → Bool
  | .tensor t => badTensor t
  | .product d => badProduct d
  | .fold d => d.path == 3 || !(countIn d.split 256)
  | .row d => badRow d
  | .move d => d.len % 64 != 0
  | .coll d => decide (3 < d.op)
  | .stream d => badStream d
  | .note d => !([0, 64, 128, 192, 256].contains d.len)
  | _ => false

/-- Records of the pocket memory (R109, R110). -/
def pocketSize : Nat := 8192

/-- Records up to `hi` lie beyond the end of a descriptor's overflow region (R110). -/
def beyondOvf (d : RowDesc) (hi : Nat) : Bool := decide (pocketSize < hi) && decide (d.ovfLen / 32 < hi - pocketSize)

/-- Lengths that chapter rules refuse with BAD_LENGTH: an outlier store (R48), row records and forward records beyond the
overflow region (R110, R113). -/
def badLengthOf : Desc → Bool
  | .tensor t => decide (16777216 < t.storeCap) || (t.kout != 0 && decide (t.storeLen < 16 + 8 * t.storeCap))
  | .row d => beyondOvf d (d.base + d.count) || beyondOvf d (d.fwdBase + d.count)
  | _ => false

/-- An address use of a descriptor: its start, its bytes, its MICRO stride in bytes. -/
structure Use where
  at_ : Nat
  len : Nat
  step : Nat
deriving DecidableEq, Repr

def useOf (base n stride : Nat) : Use := { at_ := 256 * base, len := n, step := 256 * stride }

/-- A use in every micro-batch of the package (R74, R186). -/
def microUses (nmicro : Nat) (u : Use) : List Use :=
  if u.step = 0 then [u] else (List.range (max nmicro 1)).map (fun m => { u with at_ := u.at_ + m * u.step })

/-- The planes of a tensor in memory; a spooled tensor's bases are offsets (R38, R49, R122). -/
def tensorUses (t : TensorDesc) : List Use :=
  if t.spooled then [] else
    [useOf t.elemBase (elemBytes t) t.mstride, useOf t.scaleBase (scaleBytesOf t) t.mstride,
      useOf t.storeBase (if t.kout = 0 then 0 else t.storeLen) t.mstride, useOf t.indexBase (indexBytesOf t) t.mstride]

/-- Every address use of a descriptor (R171, R229, R250, R361). -/
def usesOf : Desc → List Use
  | .tensor t => tensorUses t
  | .row d => [useOf d.ovfBase d.ovfLen 0]
  | .move d => (if d.srcSp then [] else [useOf d.src d.len d.srcMstride]) ++ (if d.dstSp then [] else [useOf d.dst d.len d.dstMstride])
  | .coll d =>
    let n := d.count * (if d.elemL16 then 2 else 4)
    [useOf d.src (if d.op = 1 then 0 else n) d.srcMstride, useOf d.dst (if d.op = 0 then 0 else n) d.dstMstride]
  | .stream d =>
    if d.emit then [useOf d.loc d.len d.mstride]
    else [useOf d.region (d.slots * d.slotBytes) 0, useOf d.loc (d.records * d.recordBytes) d.mstride]
  | .note d => [useOf d.src d.len d.mstride]
  | _ => []

/-- A range that the address map holds: LPDDR5X, bolt memory or the panel-local window (R186). -/
def mapped (a n : Nat) : Bool := rangeOk a n || (decide (localBase ≤ a) && decide (a + n ≤ localBase + sliceBytes))

/-- A use reaches a reserved range in some micro-batch (R186). -/
def reachesReserved (nmicro : Nat) (u : Use) : Bool :=
  u.len != 0 && (microUses nmicro u).any (fun v => !(mapped v.at_ v.len))

/-- A TAG at or beyond NTAGS, whatever the FMT of the TENSOR (R182). -/
def tagBeyond (h : PkgHeader) (b : List Byte) : Bool :=
  let w := wordAt b 0
  (fieldOf w 0 4 == 1 && decide (h.ntags ≤ fieldOf w 8 12)) || (fieldOf w 0 4 == 4 && decide (h.ntags ≤ fieldOf w 4 12))

/-- A descriptor alone (R182, then R39 to R48, R110, R186). -/
def descFault (h : PkgHeader) (b : List Byte) : Option Status :=
  let kind := fieldOf (wordAt b 0) 0 4
  if rsvOk (descMasks kind) b = false then some .badReserved
  else if tagBeyond h b then some .tableOverflow
  else match readDesc b with
    | none => some .badDescriptor
    | some d => firstBad [
        ((refsOf d).any (fun i => decide (h.ndesc ≤ i)), .tableOverflow),
        (badField d, .badDescriptor),
        (badLengthOf d, .badLength),
        ((usesOf d).any (reachesReserved h.nmicro), .noFit)]

/-! ### Needle stores (R98, R101, R106) -/

/-- A chain table entry alone: BAD_LENGTH before BAD_NEEDLE (R98). -/
def chainFault (b : List Byte) : Option Status :=
  let c := readChain b
  firstBad [
    (!(rsvOk [0x1FF0FFF, 0x7F7F] b), .badReserved),
    (decide (4096 < c.entry + c.length), .badLength),
    (decide (256 < c.length) || decide (64 < c.vl) || !(countIn c.passGroups 8) || c.source == 3 || (c.consume && c.source != 1),
      .badNeedle)]

/-- The highest SUB of an opcode; 0 where its row gives SUB no meaning (R101). -/
def topSub (op : Nat) (sr : Bool) : Nat :=
  match op with
  | 0x09 | 0x0A => 3
  | 0x1A => 5
  | 0x20 => 7
  | 0x31 | 0x38 | 0x39 | 0x3A | 0x40 | 0x41 => 3
  | 0x3B => if sr then 3 else 0
  | 0x48 | 0x49 => 4
  | _ => 0

/-- The opcodes of R101. -/
def opcodes : List Nat :=
  [0, 1, 2, 3, 4, 5, 6, 7, 8, 9, 0xA, 0x10, 0x11, 0x12, 0x13, 0x14, 0x15, 0x16, 0x17, 0x18, 0x19, 0x1A, 0x20, 0x28, 0x29, 0x30, 0x31,
    0x38, 0x39, 0x3A, 0x3B, 0x40, 0x41, 0x48, 0x49]

/-- An instruction word alone (R101). -/
def needleFault (b : List Byte) : Option Status :=
  let i := readNeedle b
  firstBad [(!(opcodes.contains i.op) || (i.args.sr && i.op != 0x3B && i.op != 0x38) || (i.op == 0x09 && i.args.vd % 4 == 0)
    || decide (topSub i.op i.args.sr < i.args.sub), .badNeedle)]

/-- The bits of a chalk table's words (R106). -/
def chalkMasks : List Nat :=
  [0x3F, fullWord, 0xFFFF, fullWord, fullWord, 0, 0, 0] ++ (List.range 2048).map (fun i => if i % 4 = 3 then 0 else fullWord)

/-- A chalk table alone (R106); QUAD 0 takes only C2 = +0. -/
def chalkFault (b : List Byte) : Option Status :=
  let t := readChalk b
  firstBad [
    (!(rsvOk chalkMasks b), .badReserved),
    ((!t.quad && t.coefs.any (fun c => c.2.2 != 0#32)) || decide (t.hExp < -32) || decide (32 < t.hExp)
      || decide (t.e0 < -126) || decide (63 < t.e0) || t.below == 3 || t.above == 3, .badNeedle)]

/-! ### Variants, grade points, escalation, ranges, layers (R64, R178, R181) -/

/-- A variant alone: GRADE 1 to 8; its table lies in the section of grade point tables (R178, R182). -/
def variantFault (h : PkgHeader) (gpLen : Nat) (b : List Byte) : Option Status :=
  firstBad [
    (!(rsvOk [0x1FF, fullWord, fullWord, fullWord, fullWord, 0xFFFF, 0xFFFF, 0] b), .badReserved),
    (!(countIn (fieldOf (wordAt b 0) 0 4) 8) || decide (gpLen < wordAt b 4 + 4 * h.ngp) || wordAt b 4 % 4 != 0, .badVariant)]

/-- A grade point table entry alone (R178, R182). -/
def gpFault (h : PkgHeader) (w : Nat) : Option Status :=
  firstBad [(w != fullWord && decide (h.nstitch ≤ w), .badGradePoint)]

def escalFault (h : PkgHeader) (w : Nat) : Option Status :=
  firstBad [(decide (2 ^ 21 ≤ w), .badReserved), (decide (h.ntags ≤ w % 4096), .tableOverflow)]

/-- Ascending numbers. -/
def ascends : List Nat → Bool
  | a :: b :: t => decide (a < b) && ascends (b :: t)
  | _ => true

/-- A rank range entry alone: its boundaries begin at 0 and ascend (R64). -/
def rangeFault (bs : List Nat) : Option Status := firstBad [(!(ascends bs) || bs.head? != some 0, .badDescriptor)]

def layerFault (h : PkgHeader) (w : Nat) : Option Status :=
  let l := readLayer w
  firstBad [(bitOf w 15 || decide (2 ^ 30 ≤ w), .badReserved),
    (decide (h.ndesc ≤ l.weight) || decide (h.ndesc ≤ l.site), .tableOverflow)]

/-! ### The fabric plan (R220, R225) -/

/-- A group entry is padded with something else than zeros (R225). -/
def groupPad (b : List Byte) : Nat → Nat → Bool
  | 0, _ => false
  | k + 1, off =>
    let g := leNat ((b.drop off).take 1)
    ((b.drop (off + 1 + g)).take (groupLen g - 1 - g)).any (· != 0#8) || groupPad b k (off + groupLen g)

/-- Reserved bits of the plan's parts. -/
def planRsv (b : List Byte) (n : Plan) (behind : Nat) : Bool :=
  !(rsvOk [0xFFFFFF, 0xFFFF, 0, 0, fullWord, fullWord, fullWord, 0] (b.take 32))
    || (List.range 12).any (fun k => !(rsvOk ([0xFFFF03] ++ List.replicate 14 fullWord) ((b.drop (32 + 64 * k)).take 64)))
    || (List.range n.nranks).any (fun r => decide (512 ≤ wordAt b (ranksOff + 4 * r)))
    || groupPad b (planGroups b) (groupsOff b)
    || (List.range n.gates.length).any (fun i => decide (2 ^ 25 ≤ wordAt b (behind + 4 * i)))

/-- A port entry of the plan that names an uplink to a switch plane (R211, R225). -/
def planePort (e : PlanPort × Nat) : Bool := decide (8 ≤ e.2) && e.1.peerRank == 0xFF

/-- A required or optional port entry (R225). -/
def planUsed (e : PlanPort × Nat) : Bool := e.1.use == 1 || e.1.use == 2

/-- A rank other than the own one is reached: by the port of a neighbour, or by its switch port through an uplink (R211,
R225). -/
def rankReached (n : Plan) (r : Nat) : Bool :=
  r == n.rank || n.ports.zipIdx.any (fun e => planUsed e &&
    (e.1.peerRank == r || (planePort e && !((n.ranks.getD r (0, false)).2))))

/-- The plan breaks a rule of R225, R220 or the ranges of its fields. -/
def badPlan (n : Plan) : Bool :=
  !(countIn n.nranks 72) || decide (n.nranks ≤ n.rank) || n.jobId == 0 || !(countIn n.groups.length 64)
    || decide (4096 < n.gates.length)
    || n.ports.zipIdx.any (fun e => e.1.use == 3 || (planUsed e && !(planePort e) && decide (n.nranks ≤ e.1.peerRank)))
    || n.groups.any (fun g => !(countIn g.length 72) || !(ascends g) || g.any (fun r => decide (n.nranks ≤ r)))
    || n.groups.head? != some (List.range n.nranks)
    || (List.range n.nranks).any (fun r => !(rankReached n r))
    || n.gates.any (fun g => (List.range 12).any (fun q => bitOf g.2.1 q && (n.ports.getD q ⟨0, 0, 0, 0, 0⟩).use == 0))

/-- The fabric plan, as one entry (R182, R225). -/
def planFault (b : List Byte) : Option Status :=
  let n := readPlan b
  let behind := (readGroups b (planGroups b) (groupsOff b)).2
  if b.length < behind + 4 * planGates b then some .badPackage
  else firstBad [(planRsv b n behind, .badReserved), (badPlan n, .badPackage)]

/-! ### The region map and the base digest (R120, R191, R192, R343) -/

/-- A range meets the staging window in force (R192, R193). -/
def meetsStaging (s : State) (a n : Nat) : Bool :=
  (List.range channels).any (fun c => decide (a < channelBytes * (c + 1)) && decide (stagingStart s c < a + n) && stagingBytes s != 0)

/-- Bytes of the system area of a slice (R187). -/
def systemArea (nstitch : Nat) : Nat := 0x100000 + 0x20000 + roundUp (ceilDiv nstitch panels * 128) 0x10000

/-- A region outside the resident base range (R343). -/
def outsideBase (s : State) (r : Region) : Bool :=
  match s.base with
  | none => true
  | some b => decide (r.start < b.start) || decide (b.start + b.len < r.start + r.len)

/-- A region alone (R182, R120, R192, R343). A reserved SPACE, BASE in bolt memory and SPOOL in LPDDR5X, for which R191 names
no status, are refused with BAD_PACKAGE (log entry 22). -/
def regionFault (s : State) (b : List Byte) : Option Status :=
  let r := readRegion b
  firstBad [
    (!(rsvOk [0x1FF, 0xFFFF, fullWord, 0xFF, fullWord, 0xFF, 0, 0] b), .badReserved),
    (r.lpddr && decide (lpddrEnd < r.start + r.len), .noFit),
    (r.spool && (decide (0x1400000 < r.len) || r.len % 0x10000 != 0), .badLength),
    (r.lpddr && meetsStaging s r.start r.len, .noFit),
    (decide (1 < fieldOf (wordAt b 0) 0 4) || r.len == 0 || r.start % 0x10000 != 0 || r.len % 0x10000 != 0
      || (r.base && (!r.frozen || r.jobState || !r.lpddr)) || (r.spool && r.lpddr) || (r.dataset && r.jobState), .badPackage),
    (r.base && outsideBase s r, .baseMismatch)]

/-- The base digest against the resident base region (R21, R343). -/
def baseFault (s : State) (b : List Byte) : Option Status :=
  firstBad [(s.base.map BaseRegion.digest != some (beNat b), .baseMismatch)]

/-! ### Every entry of a section, in order (R402 step 2) -/

/-- The first failing entry of a section: the pieces with their checks. -/
def scanEntries {α : Type} (d : Sect) (f : Nat → α → Option Status) (es : List α) : Option PkgFail :=
  (es.zipIdx).findSome? (fun e => (f e.2 e.1).map (fun st => ⟨d.pos, d.typ, e.2, st⟩))

/-- The first failing entry of a section (R402 step 2). -/
def sectFail (s : State) (bs : List Byte) (d : Sect) : Option PkgFail :=
  let h := readHeader bs
  let b := sectBytes bs d
  match d.typ with
  | 1 => scanEntries d (stitchFault h) (packEntries 128 b)
  | 2 => scanEntries d (panelSetFault h (groupHeads 0 ((packEntries 64 b).map readPanelSet) 0)) (packEntries 64 b)
  | 3 => scanEntries d (fun _ => descFault h) (packEntries 64 b)
  | 4 => scanEntries d (fun _ => chainFault) (packEntries 8 b)
  | 5 => scanEntries d (fun _ => needleFault) (packEntries 8 b)
  | 6 => scanEntries d (fun _ => chalkFault) (packEntries 8224 b)
  | 7 => scanEntries d (fun _ => variantFault h (sectOf (readDirectory bs) 8).len) (packEntries 32 b)
  | 8 => scanEntries d (fun _ => gpFault h) (wordsOf b)
  | 9 => scanEntries d (fun _ => escalFault h) (wordsOf b)
  | 10 => scanEntries d (fun _ => rangeFault) (readRanges b.length (wordsOf b))
  | 11 => scanEntries d (fun _ => layerFault h) (wordsOf b)
  | 12 => scanEntries d (fun _ => planFault) [b]
  | 13 => scanEntries d (fun _ => regionFault s) (packEntries 32 b)
  | 14 => if b.isEmpty then none else scanEntries d (fun _ => baseFault s) [b]
  | _ => none

/-- The first failure of the entries alone, in directory order (R402 step 2). -/
def entryFail (s : State) (bs : List Byte) : Option PkgFail := (readDirectory bs).findSome? (sectFail s bs)

end Sys2Proof.Machine
end

