-- ==== Sys2Proof/Machine/Needle.lean ====
section
/-! DEFINITION. Needle slots and the needle instructions (R96 to R108). -/

namespace Sys2Proof.Machine

open Sys2Proof.Config

/-! ### Chains and passes (R96 to R99) -/

/-- Groups of the source (R97). -/
def chainGroups (c : ChainRun) : Nat :=
  if c.entry.source = 0 then 1 else ceilDiv c.positions (max c.entry.vl 1)

/-- Passes of the chain; an empty chain has none (R97, R98). -/
def chainPasses (c : ChainRun) : Nat :=
  if c.entry.length = 0 ∨ c.entry.vl = 0 then 0
  else if c.entry.source = 0 then 1 else ceilDiv (chainGroups c) (max c.entry.passGroups 1)

/-- Groups of pass k (R97). -/
def passGroups (c : ChainRun) (k : Nat) : Nat := min c.entry.passGroups (chainGroups c - k * c.entry.passGroups)

/-- The head entry of the tile queue. -/
def headTile (s : State) (q : Nat) : Option Tile := (panelOf s q).queue.head?

/-- The logical index of a position (R103). -/
def laneIndex (c : ChainRun) (h : Option Tile) (pos : Nat) : Nat :=
  match c.entry.source, h with
  | 1, some t => (t.col0 + pos % max t.cols 1) + (t.row0 + pos / max t.cols 1) * c.ext0
  | _, _ => pos

/-- The lanes of pass k at its start (R99): VL lanes for each group. -/
def passLanes (c : ChainRun) (h : Option Tile) (k : Nat) : List Lane :=
  (List.range (passGroups c k * c.entry.vl)).map (fun i =>
    let pos := k * c.entry.passGroups * c.entry.vl + i
    let live := if c.entry.source = 0 then true else decide (pos < c.positions)
    { pos := pos, p0 := live, index := laneIndex c h pos
      v := List.replicate 16 0#32, p := List.replicate 3 live })

/-- The chain at the start of pass k. -/
def startPass (c : ChainRun) (h : Option Tile) (k : Nat) : ChainRun :=
  { c with pass := k, instr := 0, lanes := if k < chainPasses c then passLanes c h k else [] }

/-- What SOURCE gives a chain: the tag and axis-0 extent of its index tensor, and its positions
(R97, R103). -/
def chainSource (p : Package) (e : ChainEntry) (b : BindDesc) (h : Option Tile) : Option (Nat × Nat × Nat) :=
  match e.source with
  | 0 => some (0, 0, e.vl)
  | 1 =>
    match h with
    | none => none
    | some t =>
      match (productOf p t.desc).bind (fun d => tensorOf p d.c) with
      | none => none
      | some o => some (o.tag, (axesOf o).getD 0 1, t.rows * t.cols)
  | _ =>
    match (b.binds.getD 0 none).bind (tensorOf p) with
    | none => none
    | some t => some (t.tag, (axesOf t).getD 0 1, tensorSize t)

/-- A chain placed on a panel: t_nstart is 4 cycles, and an empty chain takes 1 (R98, R105). -/
def newChain (e : ChainEntry) (b : BindDesc) (step micro : Nat) : ChainRun :=
  { entry := e, bind := b, step := step, micro := micro, tag := 0, ext0 := 0, positions := 0, waiting := true
    pass := 0, instr := 0, lanes := [], cycles := if e.length = 0 ∨ e.vl = 0 then 1 else 4 }

/-- Begin a placed chain once its source is there. -/
def beginChain (p : Package) (c : ChainRun) (h : Option Tile) : Option ChainRun :=
  (chainSource p c.entry c.bind h).map (fun x =>
    startPass { c with waiting := false, tag := x.1, ext0 := x.2.1, positions := x.2.2 } h 0)

def putChain (s : State) (q : Nat) (c : Option ChainRun) : State := modPanel s q (fun w => { w with chain := c })

/-- Set NEEDLE_WAIT as a chain begins to wait; its event follows when the head entry tells the index tensor's tag
(R117, R118; DESIGN CHOICE, log entry 65). -/
def markWait (s : State) (q : Nat) : State := modPanel s q (fun w => putFlag w .needleWait)

/-- Place the chain of a BIND descriptor on panel q, where none runs (R96, R118). -/
def placeChain (p : Package) (b : BindDesc) (step micro : Nat) (s : State) (q : Nat) : Out :=
  match p.chains[b.chain]? with
  | some e =>
    let c := newChain e b step micro
    if e.source = 1 && (panelOf s q).queue.isEmpty then .next (markWait (putChain s q (some c)) q)
    else match beginChain p c (headTile s q) with
      | none => .fault .notAdmitted
      | some c1 => .next (putChain s q (some c1))
  | none => .fault .notAdmitted

/-- A needle slot waits: a panel runs at most one chain at a time (R96, R172). -/
def chainHeld (w : Panel) : Bool := panelHeld w || w.chain.isSome

/-- CHAIN (R96, R166): a needle slot starts one chain on every panel of its set; a stitch whose FIFOs are full does
not issue (R172). -/
def execChain (x : SlotRef) (s : State) : Out :=
  whenIssuing s (fun p =>
    match descOf p x.desc with
    | .bind b =>
      let ps := slotPanels s p x.pset
      onPanels s ps (fifoSlot s 1 1 x.desc ps none) chainHeld
        (fun u j => placeChain p b u.job.step u.shut.micro u (ps.getD j 0))
    | _ => .fault .notAdmitted)

/-! ### Applying an instruction to the groups of a pass -/

/-- What an instruction finds: the package, the state, the chain and the head entry. -/
structure NeedleCtx where
  pkg : Package
  s : State
  q : Nat
  c : ChainRun
  head : Option Tile

def laneV (l : Lane) (n : Nat) : W32 := l.v.getD n 0#32
/-- Operand b: IMM in every lane with BIMM (R100). -/
def opB (a : NArgs) (l : Lane) : W32 := if a.bimm then a.imm else laneV l a.vb
/-- Predicate n of a lane; P0 is fixed (R99). -/
def lanePred (l : Lane) (n : Nat) : Bool := if n = 0 then l.p0 else l.p.getD (n - 1) false
/-- Whether an instruction acts in a lane (R99, R100). -/
def laneActs (a : NArgs) (l : Lane) : Bool :=
  if a.pneg then !(lanePred l a.pred) && l.p0 else lanePred l a.pred
def setV (l : Lane) (n : Nat) (x : W32) : Lane := { l with v := l.v.set n x }
def setP (l : Lane) (n : Nat) (b : Bool) : Lane := if n = 0 then l else { l with p := l.p.set (n - 1) b }

/-- The chain after an instruction of latency `lat` (R97, R105): the next instruction, or the next pass. -/
def advanceChain (c : ChainRun) (h : Option Tile) (lat : Nat) (ls : List Lane) : ChainRun :=
  let c1 := { c with lanes := ls, instr := c.instr + 1, cycles := c.cycles + max (passGroups c c.pass) lat }
  if c1.instr < c.entry.length then c1 else startPass c1 h (c.pass + 1)

/-- Record the lanes an instruction leaves; ISSUE counts one cycle for each group (R105, R117). A chain
that its own store has abandoned stays gone. -/
def finishInstr (x : NeedleCtx) (lat : Nat) (r : List Lane × State) : State :=
  modPanel r.2 x.q (fun w => { w with
    chain := w.chain.map (fun _ => advanceChain x.c x.head lat r.1)
    ndl := { w.ndl with issue := sat32 (w.ndl.issue + passGroups x.c x.c.pass) } })

/-- Run one needle instruction on the chain of panel q. -/
def needleDo (q : Nat) (s : State) (k : NeedleCtx → Except Fault (Nat × List Lane × State)) : Out :=
  whenRunning s (fun pkg =>
    match (panelOf s q).chain with
    | none => noEvent s
    | some c =>
      if c.waiting || decide (chainPasses c ≤ c.pass) then noEvent s
      else
        let x : NeedleCtx := ⟨pkg, s, q, c, headTile s q⟩
        match k x with
        | .error f => .fault f
        | .ok r => .next (finishInstr x r.1 r.2))

/-- An instruction that writes its destination register in each active lane and reads only the lane. -/
def laneOp (q : Nat) (a : NArgs) (lat : Nat) (f : NeedleCtx → Lane → W32) (s : State) : Out :=
  needleDo q s (fun x => .ok (lat, x.c.lanes.map (fun l => if laneActs a l then setV l a.vd (f x l) else l), x.s))

/-- A two-operand register instruction of latency 4 (R101). -/
def binOp (q : Nat) (a : NArgs) (f : W32 → W32 → W32) (s : State) : Out :=
  laneOp q a 4 (fun _ l => f (laneV l a.va) (opB a l)) s

/-- A one-operand register instruction of latency 4 (R101). -/
def unOp (q : Nat) (a : NArgs) (f : W32 → W32) (s : State) : Out :=
  laneOp q a 4 (fun _ l => f (laneV l a.va)) s

/-- A binding of the chain: descriptor index and tensor (R96, R102). -/
def bindingOf (x : NeedleCtx) (n : Nat) : Option (Nat × TensorDesc) :=
  match x.c.bind.binds.getD n none with
  | none => none
  | some d => (tensorOf x.pkg d).map (fun t => (d, t))

/-- The planes of a binding for the panel that runs the chain, in the chain's micro-batch. -/
def bindPlanes (x : NeedleCtx) (b : Nat × TensorDesc) : Planes := planesAt x.s x.pkg x.q b.1 b.2 x.c.micro

/-- The context after the wait for a binding that lies in the spool extension (R126). -/
def waited (x : NeedleCtx) (b : Nat × TensorDesc) : NeedleCtx :=
  { x with s := waitExt x.s x.q (servedExt x.s x.q b.2.spooled b.1 x.c.micro) }

/-- The draw of a lane's element for a tensor's tag (R71, R103). -/
def laneDraw (x : NeedleCtx) (tag : Nat) (l : Lane) : W32 := drawFor x.pkg x.c.step x.c.micro tag l.index

/-- An instruction on a bound tensor: the binding exists and its planes lie in the address map. -/
def bindOp (q : Nat) (a : NArgs) (s : State)
    (k : NeedleCtx → Nat × TensorDesc → Planes → Except Fault (Nat × List Lane × State)) : Out :=
  needleDo q s (fun x =>
    match bindingOf x a.sub with
    | none => .error .notAdmitted
    | some b => if planesOk b.2 (bindPlanes x b) then k (waited x b) b (bindPlanes x b) else .error .reservedAddress)

/-- A store of a lane's operand a, lane by lane in ascending order (R102). -/
def storeLanes (x : NeedleCtx) (a : NArgs) (f : State → Lane → State) : State :=
  x.c.lanes.foldl (fun s l => if laneActs a l then f s l else s) x.s

/-! ### The instructions (R101) -/

def execNop (p : Nat) (_a : NArgs) (s : State) : Out := needleDo p s (fun x => .ok (1, x.c.lanes, x.s))
def execFadd (p : Nat) (a : NArgs) (s : State) : Out := binOp p a f32Add s
def execFsub (p : Nat) (a : NArgs) (s : State) : Out := binOp p a f32Sub s
def execFmul (p : Nat) (a : NArgs) (s : State) : Out := binOp p a f32Mul s
def execFfma (p : Nat) (a : NArgs) (s : State) : Out :=
  laneOp p a 4 (fun _ l => f32Fma (laneV l a.va) (opB a l) (laneV l a.vc)) s
def execFmin (p : Nat) (a : NArgs) (s : State) : Out := binOp p a f32Min s
def execFmax (p : Nat) (a : NArgs) (s : State) : Out := binOp p a f32Max s
def execFabs (p : Nat) (a : NArgs) (s : State) : Out := unOp p a f32AbsOp s
def execFneg (p : Nat) (a : NArgs) (s : State) : Out := unOp p a f32NegOp s

/-- The comparison of FCMP (R101). -/
def fcmpOf (sub : Nat) (a b : F32) : Bool :=
  match sub with
  | 0 => f32Eq a b
  | 1 => f32Lt a b
  | 2 => f32Le a b
  | _ => f32Unord a b

/-- FCMP (R100, R101): bits [53:52] name the predicate written, 1 to 3. -/
def execFcmp (p : Nat) (a : NArgs) (s : State) : Out :=
  needleDo p s (fun x =>
    if a.sub ≤ 3 ∧ a.vd % 4 ≠ 0 then
      .ok (4, x.c.lanes.map (fun l =>
        if laneActs a l then setP l (a.vd % 4) (fcmpOf a.sub (laneV l a.va) (opB a l)) else l), x.s)
    else .error .notAdmitted)

/-- SEL (R101). -/
def execSel (p : Nat) (a : NArgs) (s : State) : Out :=
  needleDo p s (fun x =>
    if a.sub ≤ 3 then
      .ok (4, x.c.lanes.map (fun l =>
        if laneActs a l then setV l a.vd (if lanePred l a.sub then laneV l a.va else opB a l) else l), x.s)
    else .error .notAdmitted)

def execIadd (p : Nat) (a : NArgs) (s : State) : Out := binOp p a (· + ·) s
def execIand (p : Nat) (a : NArgs) (s : State) : Out := binOp p a (· &&& ·) s
def execIor (p : Nat) (a : NArgs) (s : State) : Out := binOp p a (· ||| ·) s
def execIxor (p : Nat) (a : NArgs) (s : State) : Out := binOp p a (· ^^^ ·) s
def execIshl (p : Nat) (a : NArgs) (s : State) : Out := binOp p a (fun x y => x <<< (y.toNat % 32)) s
def execIshr (p : Nat) (a : NArgs) (s : State) : Out := binOp p a (fun x y => x >>> (y.toNat % 32)) s
def execF2i (p : Nat) (a : NArgs) (s : State) : Out := unOp p a f32ToInt s
def execI2f (p : Nat) (a : NArgs) (s : State) : Out := unOp p a f32OfInt s

/-- LANE (R101): the lane number within its group. -/
def execLane (p : Nat) (a : NArgs) (s : State) : Out :=
  laneOp p a 1 (fun x l => BitVec.ofNat 32 (l.pos % max x.c.entry.vl 1)) s

/-- IDX (R101, R103). -/
def execIdx (p : Nat) (a : NArgs) (s : State) : Out := laneOp p a 1 (fun _ l => BitVec.ofNat 32 l.index) s

/-- A header field of a tile (R101). -/
def hdrField (t : Tile) (sub : Nat) : Nat :=
  match sub with
  | 0 => t.row0 | 1 => t.col0 | 2 => t.tag | 3 => t.rows | 4 => t.cols | _ => t.seq

/-- HDR (R101): SOURCE 1 only. -/
def execHdr (p : Nat) (a : NArgs) (s : State) : Out :=
  needleDo p s (fun x =>
    match x.head with
    | none => .error .notAdmitted
    | some t =>
      if x.c.entry.source = 1 ∧ a.sub ≤ 5 then
        .ok (1, x.c.lanes.map (fun l =>
          if laneActs a l then setV l a.vd (BitVec.ofNat 32 (hdrField t a.sub)) else l), x.s)
      else .error .notAdmitted)

/-! ### Chalk tables (R106, R107) -/

/-- Step 4 of R107. -/
def chalkPoly (t : Chalk) (i : Nat) (v : F32) : F32 :=
  let c := t.coefs.getD i (0#32, 0#32, 0#32)
  f32Fma (f32Fma c.2.2 v c.2.1) v c.1

/-- The BELOW and ABOVE rules (R106). -/
def chalkEdge (t : Chalk) (mode : Nat) (k : F32) (i : Nat) (v x : F32) : F32 :=
  match mode with
  | 0 => k
  | 1 => chalkPoly t i v
  | _ => x

def chalkBelow (t : Chalk) (x : F32) : F32 := chalkEdge t t.below t.low 0 0#32 x
def chalkAbove (t : Chalk) (x : F32) : F32 := chalkEdge t t.above t.high 511 f32One x

/-- UNIFORM mode with a finite X0 (R107). -/
def chalkUniform (t : Chalk) (x : F32) : F32 :=
  if f32IsInf x then (if f32Sign x then chalkBelow t x else chalkAbove t x)
  else
    let d := dySub (f32Dy x) (f32Dy t.x0)
    let u := dyScale d (-t.hExp)
    if d.m < 0 then chalkBelow t x
    else
      let i := dyFloor u
      if i > 511 then chalkAbove t x
      else chalkPoly t i.toNat (f32OfDy (dySub u ⟨i, 0⟩))

/-- OCTAVE mode (R107). -/
def chalkOctave (t : Chalk) (x : F32) : F32 :=
  if f32IsZero x then chalkBelow t x
  else if f32Sign x then f32NaN
  else if f32IsInf x then chalkAbove t x
  else
    let E : Int := (f32Exp x : Int) - 127
    if f32Exp x = 0 ∨ E < t.e0 then chalkBelow t x
    else if E ≥ t.e0 + 64 then chalkAbove t x
    else
      chalkPoly t (8 * (E - t.e0).toNat + f32Frac x / 2 ^ 20)
        (f32OfDy ⟨((f32Frac x % 2 ^ 20 : Nat) : Int), -20⟩)

/-- R107; a UNIFORM table whose X0 is not finite has no stated result, so it gives the free value `u`
(log entry 2). -/
def chalkEval (t : Chalk) (u : W32) (x : F32) : F32 :=
  if f32IsNaN x then f32NaN
  else if t.octave then chalkOctave t x
  else if f32IsFinite t.x0 then chalkUniform t x
  else u

/-- A chalk table's value at x; of a table that the package does not hold, a free value (R106 gives the tables no
contents then; log entry 2). -/
def chalkAt (t : Option Chalk) (u : W32) (x : F32) : F32 :=
  match t with
  | some t => chalkEval t u x
  | none => u

/-- CHALK (R101, R107). -/
def execChalk (p : Nat) (a : NArgs) (s : State) : Out :=
  needleDo p s (fun x =>
    .ok (6, x.c.lanes.map (fun l =>
      if laneActs a l then
        setV l a.vd (chalkAt x.pkg.chalk[a.sub]?
          (BitVec.ofNat 32 (freeValue (x.s.free + l.pos)).toNat) (laneV l a.va))
      else l), { x.s with free := x.s.free + x.c.positions + 64 }))

/-! ### PERM and BCAST (R104) -/

/-- Lane n of a register within the group of lane l: a lane number at or beyond VL delivers +0. -/
def fromLane (x : NeedleCtx) (i : Nat) (reg : Nat) (n : W32) : W32 :=
  let vl := max x.c.entry.vl 1
  if n.toNat < x.c.entry.vl then laneV (x.c.lanes.getD (i / vl * vl + n.toNat) ⟨0, false, 0, [], []⟩) reg else 0#32

/-- The lanes that an instruction finds out of range (R104). -/
def rangeMisses (x : NeedleCtx) (a : NArgs) (n : Lane → W32) : Nat :=
  (x.c.lanes.filter (fun l => laneActs a l && decide (x.c.entry.vl ≤ (n l).toNat))).length

/-- A move between lanes by lane number. -/
def moveLanes (q : Nat) (a : NArgs) (n : Lane → W32) (s : State) : Out :=
  needleDo q s (fun x =>
    let k := rangeMisses x a n
    let s1 := modPanel x.s q (fun w => { w with ndl := { w.ndl with laneRangeN := sat32 (w.ndl.laneRangeN + k) } })
    .ok (4, (x.c.lanes.zipIdx).map (fun e =>
        if laneActs a e.1 then setV e.1 a.vd (fromLane x e.2 a.va (n e.1)) else e.1),
      setFlagIf s1 (k != 0) q .laneRange x.c.tag))

def execPerm (p : Nat) (a : NArgs) (s : State) : Out := moveLanes p a (fun l => opB a l) s
def execBcast (p : Nat) (a : NArgs) (s : State) : Out := moveLanes p a (fun _ => a.imm) s

/-! ### Tile and tensor access -/

/-- LDT (R101): SOURCE 1 only. -/
def execLdt (p : Nat) (a : NArgs) (s : State) : Out :=
  needleDo p s (fun x =>
    match x.head with
    | none => .error .notAdmitted
    | some t =>
      if x.c.entry.source = 1 then
        .ok (2, x.c.lanes.map (fun l => if laneActs a l then setV l a.vd (t.data.getD l.pos 0#32) else l), x.s)
      else .error .notAdmitted)

/-- LDB (R101). -/
def execLdb (p : Nat) (a : NArgs) (s : State) : Out :=
  bindOp p a s (fun x b pl =>
    let m := viewMem x.s
    .ok (8, x.c.lanes.map (fun l => if laneActs a l then setV l a.vd (readElem m b.2 pl l.index) else l),
      touchElems x.s b.2 pl ((x.c.lanes.filter (laneActs a)).map Lane.index)))

/-- STB (R101). An L16 element is rounded as the instruction's SR says, whatever SR its descriptor has (R33 and R171 let the
descriptor choose, R101 the instruction; DESIGN CHOICE, log entry 79). -/
def execStb (p : Nat) (a : NArgs) (s : State) : Out :=
  bindOp p a s (fun x b pl =>
    match b.2.fmt with
    | .f32 | .u32 => .ok (1, x.c.lanes, storeLanes x a (fun u l => putWord u pl l.index (laneV l a.va)))
    | .l16 => .ok (1, x.c.lanes, storeLanes x a (fun u l =>
        putL16 u x.pkg x.c.step x.c.micro b.2 pl a.sr l.index (laneV l a.va)))
    | _ => .error .notAdmitted)

/-- ACC (R65, R101): one F32 addition to the element, which STEP_OPEN has set to +0. -/
def execAcc (p : Nat) (a : NArgs) (s : State) : Out :=
  bindOp p a s (fun x b pl =>
    if b.2.fmt = .f32 then
      .ok (1, x.c.lanes, storeLanes x a (fun u l =>
        putWord u pl l.index (f32Add (readElem (viewMem u) b.2 pl l.index) (laneV l a.va))))
    else .error .notAdmitted)

/-- CVT16 (R101): the rounding is counted nowhere; with SR the draw is that of binding SUB. -/
def execCvt16 (p : Nat) (a : NArgs) (s : State) : Out :=
  needleDo p s (fun x =>
    if a.sr then
      match bindingOf x a.sub with
      | none => .error .notAdmitted
      | some b => .ok (4, x.c.lanes.map (fun l =>
          if laneActs a l then
            setV l a.vd (l16ToF32 (l16OfF32Sr (laneV l a.va) (laneDraw x b.2.tag l)))
          else l), x.s)
    else .ok (4, x.c.lanes.map (fun l =>
        if laneActs a l then setV l a.vd (l16ToF32 (l16OfF32 (laneV l a.va))) else l), x.s))

/-- An instruction on the draw of a binding (R71, R75, R103). -/
def drawOp (q : Nat) (a : NArgs) (f : TensorDesc → W32 → Lane → W32) (s : State) : Out :=
  needleDo q s (fun x =>
    match bindingOf x a.sub with
    | none => .error .notAdmitted
    | some b => .ok (6, x.c.lanes.map (fun l =>
        if laneActs a l then setV l a.vd (f b.2 (laneDraw x b.2.tag l) l) else l), x.s))

def execRand (p : Nat) (a : NArgs) (s : State) : Out := drawOp p a (fun _ u _ => u) s
def execDrop (p : Nat) (a : NArgs) (s : State) : Out :=
  drawOp p a (fun t u l => if u.toNat < t.drop then 0#32 else laneV l a.va) s

/-! ### QNT (R88 to R90) -/

/-- The pending element of a tensor's index in the output path. -/
def pendingElem (xs : List FoldElem) (d micro x : Nat) : Option FoldElem :=
  xs.find? (fun e => e.desc == d && e.micro == micro && e.index == x)

/-- The logical indices of the blocks of group g of line l, block by block (R37, R39). -/
def groupIndices (t : TensorDesc) (l g : Nat) : List (List Nat) :=
  let b0 := g * spanOf t
  (List.range (min (spanOf t) (lineBlocks t - b0))).map (fun b =>
    let c0 := (b0 + b) * fmtBlock t.fmt
    (List.range (min (fmtBlock t.fmt) (extC t - c0))).map (fun i => elemIndex t l (c0 + i)))

/-- Whether every element of a group has entered panel q's output path. -/
def groupReady (s : State) (q d micro : Nat) (t : TensorDesc) (lg : Nat × Nat) : Bool :=
  (groupIndices t lg.1 lg.2).all (fun b => b.all (fun i => (pendingElem (panelOf s q).foldIn d micro i).isSome))

/-- Fold a group that is ready, starting from claims `c`, and drop its elements (R88). -/
def foldGroup (q d micro : Nat) (t : TensorDesc) (pl : Planes) (c : Claim) (s : State) (lg : Nat × Nat) : State × Claim :=
  let ix := groupIndices t lg.1 lg.2
  let xs := (panelOf s q).foldIn
  let blks := ix.map (fun b => b.map (fun i =>
    match pendingElem xs d micro i with | some e => (⟨e.val, e.draw⟩ : SrcElem) | none => ⟨0#32, 0#32⟩))
  let r := foldInto s t (fun _ => (q, pl)) [(lg.1 * lineBlocks t + lg.2 * spanOf t, blks)] c
  (modPanel r.1 q (fun w => { w with foldIn := w.foldIn.filter (fun e =>
    !(e.desc == d && e.micro == micro && ix.any (fun b => b.contains e.index))) }), r.2)

/-- Fold group (l, g) of a tensor without an outlier store once its last element has entered (R88). -/
def foldReady (q d micro : Nat) (t : TensorDesc) (pl : Planes) (s : State) (lg : Nat × Nat) : State :=
  if groupReady s q d micro t lg then (foldGroup q d micro t pl {} s lg).1 else s

/-- Send the elements of active lanes to the output path; a later send of an index stands first. -/
def sendElems (x : NeedleCtx) (a : NArgs) (d : Nat) (t : TensorDesc) : List FoldElem :=
  ((x.c.lanes.filter (laneActs a)).map (fun l => (⟨d, x.c.micro, l.index, laneV l a.va,
    if t.sr then laneDraw x t.tag l else 0#32⟩ : FoldElem))).reverse

/-- The groups that a list of elements touches, ascending. -/
def touchedGroups (t : TensorDesc) (es : List FoldElem) : List (Nat × Nat) :=
  let gs := es.map (fun e => let q := lineOfElem t e.index; (q.1, q.2 / fmtBlock t.fmt / spanOf t))
  (List.range (lineCount t * lineGroups t)).filterMap (fun n =>
    let k := (n / max (lineGroups t) 1, n % max (lineGroups t) 1)
    if gs.contains k then some k else none)

/-- The panel of an instance that every panel holds for itself: in the panel-local window, or in its spool (R122, R171). -/
def ownInstance (t : TensorDesc) (q : Nat) : Option Nat :=
  if t.spooled || isLocal t.storeBase then some q else none

/-- The fold of a tensor with an outlier store that is under way. -/
def qntOf (s : State) (d micro : Nat) (o : Option Nat) : Option QntRun :=
  s.job.qnts.find? (fun r => r.desc == d && r.micro == micro && r.panel == o)

/-- Put or end the fold of a tensor that is under way. -/
def setQnt (s : State) (d micro : Nat) (o : Option Nat) (r : Option QntRun) : State :=
  { s with job := { s.job with
      qnts := s.job.qnts.filter (fun e => !(e.desc == d && e.micro == micro && e.panel == o)) ++ r.toList } }

/-- The group that block b begins. -/
def groupAt (t : TensorDesc) (b : Nat) : Nat × Nat :=
  (b / max (lineBlocks t) 1, b % max (lineBlocks t) 1 / spanOf t)

/-- Fold the groups of an instance with an outlier store in block order, as far as their elements have entered: a block
claims after every block before it, whichever panel folds it; an instance of panel `o` alone is a chain of one (R50, R89).
After the last block the header is written. The fuel is the number of blocks. -/
def foldInOrder (pkg : Package) (d micro : Nat) (t : TensorDesc) (o : Option Nat) : Nat → State → State
  | 0, s => s
  | n + 1, s =>
    match qntOf s d micro o with
    | none => s
    | some r =>
      match (o.elim (s.panels.map Prod.fst) (fun q => [q])).find? (fun q => groupReady s q d micro t (groupAt t r.next)) with
      | none => s
      | some q =>
        let pl := planesAt s pkg q d t micro
        let u := foldGroup q d micro t pl r.claim s (groupAt t r.next)
        let b := r.next + (groupIndices t (groupAt t r.next).1 (groupAt t r.next).2).length
        if stepGone u.1 then u.1
        else if blockCount t ≤ b then setQnt (putStore u.1 t pl u.2) d micro o none
        else foldInOrder pkg d micro t o n (setQnt u.1 d micro o (some ⟨d, micro, o, b, u.2⟩))

/-- The store is emptied as the fold of an instance begins (R48). An instance left incomplete at the end of a step, whose
elements some lanes never sent, is still under way in the next one: its claims and its next block stand, and the store is
not emptied again (R48 is silent; DESIGN CHOICE, log entry 26). -/
def openStore (s : State) (d micro : Nat) (t : TensorDesc) (o : Option Nat) (pl : Planes) : State :=
  match qntOf s d micro o with
  | some _ => s
  | none => setQnt (putStore s t pl {}) d micro o (some ⟨d, micro, o, 0, {}⟩)

/-- QNT (R88, R89, R101): the fold unit folds each group when its last element has entered, with an outlier store in
block order over the panels; L16 results are written element by element. It may have waited for a busy output path
(R118). -/
def execQnt (e : PanelWait) (a : NArgs) (s : State) : Out :=
  let p := e.panel
  bindOp p a s (fun x b pl =>
    let s0 := modPanel x.s p (fun w => { w with ndl := { w.ndl with waitPhys := sat32 (w.ndl.waitPhys + e.phys) } })
    if fmtNarrow b.2.fmt then
      let es := sendElems x a b.1 b.2
      let s1 := modPanel s0 p (fun w => { w with foldIn := es ++ w.foldIn })
      if b.2.kout = 0 then
        .ok (1, x.c.lanes, (touchedGroups b.2 es).foldl (foldReady p b.1 x.c.micro b.2 pl) s1)
      else
        let o := ownInstance b.2 p
        .ok (1, x.c.lanes, foldInOrder x.pkg b.1 x.c.micro b.2 o (blockCount b.2) (openStore s1 b.1 x.c.micro b.2 o pl))
    else if b.2.fmt = .l16 then
      .ok (1, x.c.lanes, storeLanes { x with s := s0 } a (fun u l =>
        putL16 u x.pkg x.c.step x.c.micro b.2 pl b.2.sr l.index (laneV l a.va)))
    else .error .notAdmitted)

/-! ### RPUSH and RGET (R401) -/

/-- The ROW descriptor of a chain: binding 3. -/
def rowBinding (x : NeedleCtx) : Option RowDesc := (x.c.bind.binds.getD 3 none).bind (rowOf x.pkg)

/-- A lane's row and its element index along the reduced axis (R401). -/
def laneRow (c : ChainRun) (l : Lane) : Nat × Nat :=
  if c.entry.source = 0 then (l.pos, 0) else (l.index / max c.ext0 1, l.index % max c.ext0 1)

/-- The records that the pass addresses exist. -/
def laneRowsOk (x : NeedleCtx) (rd : RowDesc) : Bool :=
  x.c.lanes.all (fun l => !(l.p0) || rowsOk x.q rd (rd.base + (laneRow x.c l).1) 1)

/-- RPUSH (R111, R401): the terms of active lanes, in ascending position. -/
def execRpush (p : Nat) (a : NArgs) (s : State) : Out :=
  needleDo p s (fun x =>
    match rowBinding x with
    | none => .error .notAdmitted
    | some rd =>
      if 4 < a.sub then .error .notAdmitted
      else if laneRowsOk x rd then
        .ok (1, x.c.lanes, storeLanes x a (fun u l =>
          let r := laneRow x.c l
          pushTerm u p x.c.tag rd (rd.base + r.1) a.sub (laneV l a.va) (opB a l) r.2))
      else .error .reservedAddress)

/-- A field of a record (R101). -/
def rowField (r : RowRec) (sub : Nat) : W32 :=
  match sub with
  | 0 => r.maxv | 1 => r.total | 2 => r.result | 3 => BitVec.ofNat 32 r.idx | _ => r.aux

/-- The latency of RGET in a pass (R105): 32 where a lane with P0 true addresses an overflow record. -/
def rgetLatency (x : NeedleCtx) (rd : RowDesc) : Nat :=
  if x.c.lanes.any (fun l => l.p0 && decide (pocketRecords ≤ rd.base + (laneRow x.c l).1)) then 32 else 8

/-- RGET (R101, R401). -/
def execRget (p : Nat) (a : NArgs) (s : State) : Out :=
  needleDo p s (fun x =>
    match rowBinding x with
    | none => .error .notAdmitted
    | some rd =>
      if 4 < a.sub then .error .notAdmitted
      else if laneRowsOk x rd then
        .ok (rgetLatency x rd, x.c.lanes.map (fun l =>
          if laneActs a l then setV l a.vd (rowField (rowGet x.s p rd (rd.base + (laneRow x.c l).1)) a.sub) else l),
          storeLanes x a (fun u l => rowTouch u p rd (rd.base + (laneRow x.c l).1)))
      else .error .reservedAddress)

end Sys2Proof.Machine
end

