-- ==== Sys2Proof/Machine/Cross.lean ====
section
/-! DEFINITION. The checks of a package that concern several entries and no schedule (R402 step 3): panel sets and
descriptors that slots name, operands, bindings, addresses and write destinations, the layer table, variants and grade
points, the region map, the grade rules (R36, R43, R55, R64, R78, R80, R88, R101, R102, R120, R134, R135, R170, R178, R182,
R187, R192, R229, R250, R263, R273, R401). -/

namespace Sys2Proof.Machine

open Sys2Proof.Config

/-! ### Places (R402) -/

/-- A place: section TYPE and index. -/
abbrev At := Nat × Nat

def placePos (dir : List Sect) (x : At) : Nat := (sectOf dir x.1).pos

/-- `a` lies after `b` in directory order. -/
def laterAt (dir : List Sect) (a b : At) : Bool :=
  decide (placePos dir b < placePos dir a) || (placePos dir b == placePos dir a && decide (b.2 < a.2))

/-- A failure of several entries, placed at the last of them (R402 step 3). -/
def failOf (dir : List Sect) (st : Status) (x : At) (xs : List At) : PkgFail :=
  let y := xs.foldl (fun m z => if laterAt dir z m then z else m) x
  ⟨placePos dir y, y.1, y.2, st⟩

/-- The failure whose place comes first; of equal places the one listed first (R402). -/
def firstFail : List PkgFail → Option PkgFail
  | [] => none
  | f :: t =>
    match firstFail t with
    | none => some f
    | some g => if g.pos < f.pos ∨ (g.pos = f.pos ∧ g.idx < f.idx) then some g else some f

/-- Failures where a condition holds. -/
def failIf (b : Bool) (f : PkgFail) : List PkgFail := if b then [f] else []

/-! ### Slots: panel sets and descriptor kinds (R166, R170, R182) -/

/-- The live slots of the pattern: stitch address, class, slot. -/
def liveSlots (p : Package) : List (Nat × Nat × Slot) :=
  (p.stitches.zipIdx).flatMap (fun e => ((slotsOf e.1).filter (fun x => x.2.op != 0)).map (fun x => (e.2, x.1, x.2)))

/-- The descriptor's kind is the one the opcode requires (R166). -/
def kindFits (cls : Nat) (op : Nat) : Desc → Bool
  | .product _ => cls == 0 && op == 1
  | .fold _ => cls == 0 && op == 2
  | .bind _ => (cls == 1 && op == 1) || (cls == 3 && op == 4)
  | .row _ => cls == 2
  | .move _ => cls == 3 && op == 1
  | .tensor t => cls == 3 && (op == 2 || op == 3) && t.spooled
  | .coll _ => cls == 3 && op == 5
  | .stream d => cls == 3 && (if d.emit then op == 7 else op == 6)
  | .note _ => cls == 3 && op == 8
  | .empty => false

/-- Panels of the entry a slot names; every phase of a group has as many. -/
def setSize (p : Package) (i : Nat) : Nat := (p.psets[i]?.map (fun e => (maskPanels e.mask).length)).getD 0

/-- The split that a descriptor asks of the panels of the set (R171): none where it asks nothing. -/
def splitOf : Desc → Option Nat
  | .product d => some (d.rowSplit * d.colSplit * d.kSplit)
  | .fold d => some d.split
  | _ => none

/-- BAD_PANEL_SET: phases that differ in size, empty masks, members named, splits (R170, R182). -/
def panelSetFails (dir : List Sect) (p : Package) : List PkgFail :=
  let members := groupMembers p.psets
  (groupHeads 0 p.psets 0).flatMap (fun g => failIf ((List.range g.2).any (fun k => setSize p (g.1 + k) != setSize p g.1))
      (failOf dir .badPanelSet (2, g.1 + g.2 - 1) [])) ++
  (liveSlots p).flatMap (fun x =>
    let sl := x.2.2
    failIf (setSize p sl.pset == 0 || members.contains sl.pset) (failOf dir .badPanelSet (1, x.1) [(2, sl.pset)]) ++
    failIf ((splitOf (descOf p sl.desc)).any (fun n => n != setSize p sl.pset))
      (failOf dir .badPanelSet (1, x.1) [(2, sl.pset), (3, sl.desc)]))

/-- BAD_DESCRIPTOR: a slot's descriptor of another kind, or empty (R166, R182). -/
def kindFails (dir : List Sect) (p : Package) : List PkgFail :=
  (liveSlots p).flatMap (fun x => failIf (!(kindFits x.2.1 x.2.2.op (descOf p x.2.2.desc)))
    (failOf dir .badDescriptor (1, x.1) [(3, x.2.2.desc)]))

/-! ### Operands of descriptors -/

/-- The contraction ranges of a product: one boundary more than the ranks, ending at its runs (R64). -/
def rangesFit (p : Package) (d : ProductDesc) (runs : Nat) : Bool :=
  d.ranges == 0xFFFF || (match p.ranges[d.ranges]? with
    | none => false
    | some bs => bs.length == p.plan.nranks + 1 && bs.getLast? == some runs)

/-- A PRODUCT's operands: kinds, pair, N_t, budgets (R36, R55, R78, R80). -/
def productFits (p : Package) (d : ProductDesc) : Bool :=
  match tensorOf p d.a, tensorOf p d.b, tensorOf p d.c with
  | some a, some b, some c =>
    c.fmt != .u32 && (pairOf a.fmt b.fmt).any (fun pr => decide (d.nT ≤ pairNt pr) && decide (a.kout + b.kout ≤ 7))
  | _, _, _ => false

/-- The contraction ranges that a PRODUCT names are those of its runs (R64). -/
def productRanged (p : Package) (d : ProductDesc) : Bool :=
  match tensorOf p d.a, tensorOf p d.b with
  | some a, some b => (pairOf a.fmt b.fmt).all (fun pr => rangesFit p d (runCount pr (extC (if d.stat then a else b))))
  | _, _ => true

/-- A FOLD's source and destination (R36, R88): quantise and refold take a source form or a folded one, requantise a
folded one. -/
def foldFits (p : Package) (d : FoldDesc) : Bool :=
  match tensorOf p d.src, tensorOf p d.dst with
  | some a, some b =>
    (fmtNarrow b.fmt || b.fmt == .l16) &&
      (if d.path = 2 then fmtNarrow a.fmt && fmtNarrow b.fmt else if d.path = 0 then a.fmt == .l16 || a.fmt == .f32
       else fmtNarrow a.fmt || a.fmt == .l16 || a.fmt == .f32)
  | _, _ => false

/-- A chain holds RPUSH or RGET (R401). -/
def usesRows (p : Package) (c : ChainEntry) : Bool := (chainCode p c).any (fun i => i.op == 0x48 || i.op == 0x49)

/-- A BIND's valid bindings are tensors, or a ROW in binding 3 (R96, R401; log entry 22); binding 3 of a chain with RPUSH or
RGET has the check of R401 instead. -/
def bindFits (p : Package) (d : BindDesc) : Bool :=
  (d.binds.zipIdx).all (fun e => match e.1 with
    | none => true
    | some i => (tensorOf p i).isSome || (e.2 == 3 && ((rowOf p i).isSome || (p.chains[d.chain]?).any (usesRows p))))

/-- A COLL's group, planes and count (R229). The own rank is left out of the planes' check: no segment goes to it (log entry
72). -/
def collFits (p : Package) (d : CollDesc) : Bool :=
  match p.plan.groups[d.group]? with
  | none => false
  | some g =>
    (d.planes != 0 || g.all (fun r => r == p.plan.rank || (p.plan.ranks.getD r (0, false)).2)) &&
      (d.op != 3 || d.count % max g.length 1 == 0)

/-- The pages of a range. -/
def pagesOf (a n : Nat) : List Nat :=
  if n = 0 then [] else (List.range ((a + n - 1) / 0x10000 - a / 0x10000 + 1)).map (fun i => (a / 0x10000 + i) * 0x10000)

/-- Every page of the slots of an INGEST lies in one DATASET region (R192, R250). -/
def streamFits (p : Package) (d : StreamDesc) : Bool :=
  d.emit || p.regions.any (fun r => r.dataset && (pagesOf (256 * d.region) (d.slots * d.slotBytes)).all (regionHas p r))

/-- BAD_DESCRIPTOR of a descriptor with those it names. -/
def operandFails (dir : List Sect) (p : Package) : List PkgFail :=
  (p.descs.zipIdx).flatMap (fun e =>
    let at_ : List At := (refsOf e.1).map (fun i => (3, i))
    match e.1 with
    | .product d => failIf (!(productFits p d)) (failOf dir .badDescriptor (3, e.2) at_) ++
        failIf (!(productRanged p d)) (failOf dir .badDescriptor (3, e.2)
          (at_ ++ if d.ranges < p.ranges.length then [(10, d.ranges), (12, 0)] else []))
    | .fold d => failIf (!(foldFits p d)) (failOf dir .badDescriptor (3, e.2) at_)
    | .bind d => failIf (!(bindFits p d)) (failOf dir .badDescriptor (3, e.2) at_)
    | .coll d => failIf (!(collFits p d)) (failOf dir .badDescriptor (3, e.2) [(12, 0)])
    | .stream d => failIf (!(streamFits p d)) (failOf dir .badDescriptor (3, e.2) [])
    | _ => [])

/-! ### Addresses and regions (R187, R192) -/

/-- The offset in a slice of a bolt or window address. -/
def sliceOffset (a : Nat) : Option Nat :=
  if localBase ≤ a then some (a - localBase) else if boltBase ≤ a then some ((a - boltBase) % sliceBytes) else none

/-- A region covers an address of the map; a window address stands for that offset of any slice (R171, R191). -/
def coversAddr (p : Package) (r : Region) (a : Nat) : Bool :=
  match sliceOffset a with
  | none => r.lpddr && decide (r.start ≤ a) && decide (a < r.start + r.len)
  | some o => !r.lpddr && decide (jobAreaOffset p + r.start ≤ o) && decide (o < jobAreaOffset p + r.start + r.len)

/-- The address lies in a slice's system area (R187). -/
def inSystem (p : Package) (a : Nat) : Bool := (sliceOffset a).any (fun o => decide (o < jobAreaOffset p))

/-- Every page of a use lies in a region, or in the system area for a read (R187, R192), in every micro-batch. -/
def useCovered (p : Package) (write : Bool) (u : Use) : Bool :=
  (microUses p.nmicro u).all (fun v => (pagesOf v.at_ v.len).all (fun a =>
    p.regions.any (fun r => coversAddr p r a) || (!write && inSystem p a)))

/-- A use that a part j moves on by its stride (R171). -/
def shifted (u : Use) (by_ : Nat) : Use := { u with at_ := u.at_ + by_ }

/-- The bytes of SRC and of DST of a COLL on this rank (R230). -/
def collLens (p : Package) (d : CollDesc) : Nat × Nat :=
  let g := p.plan.groups.getD d.group []
  let k := if d.elemL16 then 2 else 4
  let i := g.idxOf p.plan.rank
  let shard := k * ((i + 1) * d.count / max g.length 1 - i * d.count / max g.length 1)
  if g.contains p.plan.rank then (if d.op = 1 then shard else k * d.count, if d.op = 0 then shard else k * d.count) else (0, 0)

/-- The address uses of a descriptor that need other entries of the package: the shard of a COLL (R230). -/
def wideUses (p : Package) : Desc → List Use
  | .coll d => [useOf d.src (collLens p d).1 d.srcMstride, useOf d.dst (collLens p d).2 d.dstMstride]
  | _ => []

/-- The address uses of a slot that depend on its panels or its opcode: the parts of a MOVE (R171), the records that RSAVE
and RLOAD copy (R113). -/
def slotUses (p : Package) (x : Slot) : List Use :=
  match descOf p x.desc with
  | .move d => (List.range (setSize p x.pset)).flatMap (fun j =>
      (if d.srcSp then [] else [shifted (useOf d.src d.len d.srcMstride) (256 * d.srcPstride * j)]) ++
      (if d.dstSp then [] else [shifted (useOf d.dst d.len d.dstMstride) (256 * d.dstPstride * j)]))
  | .row d => if x.op = 8 ∨ x.op = 9 then [useOf d.saveBase (32 * d.count) 0] else []
  | _ => []

/-- BAD_DESCRIPTOR: an address in no region (R192). -/
def addressFails (dir : List Sect) (p : Package) : List PkgFail :=
  (p.descs.zipIdx).flatMap (fun e => failIf (!((usesOf e.1 ++ wideUses p e.1).all (useCovered p false)))
    (failOf dir .badDescriptor (3, e.2) [])) ++
  (liveSlots p).flatMap (fun x => failIf (!((slotUses p x.2.2).all (useCovered p false)))
    (failOf dir .badDescriptor (1, x.1) [(2, x.2.2.pset), (3, x.2.2.desc)]))

/-! ### Write destinations (R134, R187) -/

def tensorUsesAt (p : Package) (i : Nat) : List Use := match tensorOf p i with | some t => tensorUses t | none => []

/-- The tensors that a slot writes: the destination of a fold, the written bindings of a chain, master and remnant of an
APPLY (R88, R101, R140). -/
def writtenTensors (p : Package) (cls : Nat) (x : Slot) : List Nat :=
  match descOf p x.desc with
  | .fold d => [d.dst]
  | .bind b => if cls = 1 then chainWrites p b else [b.binds.getD 1 none, b.binds.getD 2 none].filterMap id
  | _ => []

/-- What a slot writes, with the descriptors it goes through (R121, R126, R140, R171, R230, R253). -/
def slotWrites (p : Package) (cls : Nat) (x : Slot) : List (Nat × Use) :=
  (writtenTensors p cls x).flatMap (fun i => (tensorUsesAt p i).map (fun u => (i, u))) ++
  match descOf p x.desc with
  | .move d => if d.dstSp then [] else
      (List.range (setSize p x.pset)).map (fun j => (x.desc, shifted (useOf d.dst d.len d.dstMstride) (256 * d.dstPstride * j)))
  | .coll d => [(x.desc, useOf d.dst (collLens p d).2 d.dstMstride)]
  | .stream d => if d.emit then [] else [(x.desc, useOf d.loc (d.records * d.recordBytes) d.mstride)]
  | .row d => if x.op = 8 then [(x.desc, useOf d.saveBase (32 * d.count) 0)]
      else (if pocketSize < d.base + d.count then [(x.desc, useOf d.ovfBase d.ovfLen 0)] else [])
  | _ => []

/-- A use meets a region (R133, R134). -/
def useMeets (p : Package) (u : Use) (r : Region) : Bool := (pagesOf u.at_ u.len).any (coversAddr p r)

/-- A use in the panel-local window meets one in bolt memory: that offset of some slice (R186). -/
def localMeets (a b : Use) : Bool :=
  decide (localBase ≤ a.at_) && decide (a.at_ < localBase + sliceBytes) && decide (boltBase ≤ b.at_) && decide (b.at_ < boltEnd) &&
    (let x := a.at_ - localBase
     let y := (b.at_ - boltBase) % sliceBytes
     decide (sliceBytes ≤ b.len) || (decide (x < y + b.len) && decide (y < x + a.len)) || decide (x + sliceBytes < y + b.len))

/-- Two uses share bytes. -/
def usesMeet (a b : Use) : Bool :=
  a.len != 0 && b.len != 0 &&
    ((decide (a.at_ < b.at_ + b.len) && decide (b.at_ < a.at_ + a.len)) || localMeets a b || localMeets b a)

/-- A write meets a frozen weight of the layer table that lies in no base region (R133, R134). -/
def hitsFrozen (p : Package) (l : LayerEntry) (u : Use) : Bool :=
  l.frozen && (tensorUsesAt p l.weight).any (fun t => usesMeet u t && !(p.regions.any (fun r => r.base && useMeets p t r)))

/-- What forbids a write, with the region, or the layer and its weight, that it meets: BASE_WRITE in a base region,
FROZEN_WRITE, BAD_DESCRIPTOR for the system area or no region (R21, R134, R187, R192, R402). -/
def writeBad (p : Package) (u : Use) : List (Status × List At) :=
  let us := microUses p.nmicro u
  ((p.regions.zipIdx).filter (fun r => (r.1.base || r.1.frozen) && us.any (fun v => useMeets p v r.1))).map
    (fun r => (if r.1.base then .baseWrite else .frozenWrite, [(13, r.2)])) ++
  ((p.layers.zipIdx).filter (fun l => us.any (hitsFrozen p l.1))).map
    (fun l => (.frozenWrite, [(11, l.2), (3, l.1.weight)])) ++
  if useCovered p true u then [] else [(.badDescriptor, [])]

/-- The failures of the write destinations of slots (R134, R187, R192). -/
def writeFails (dir : List Sect) (p : Package) : List PkgFail :=
  (liveSlots p).flatMap (fun x => (slotWrites p x.2.1 x.2.2).flatMap (fun w =>
    (writeBad p w.2).map (fun f => failOf dir f.1 (1, x.1) ([(3, x.2.2.desc), (3, w.1)] ++ f.2))))

/-- NO_FIT of several entries: a part's copy, saved records or a collective's shard that reach a reserved range (R186); a bolt
region beyond the job area (R182, R187, R192). -/
def fitFails (dir : List Sect) (p : Package) : List PkgFail :=
  (liveSlots p).flatMap (fun x => failIf ((slotUses p x.2.2).any (reachesReserved p.nmicro))
    (failOf dir .noFit (1, x.1) [(2, x.2.2.pset), (3, x.2.2.desc)])) ++
  (p.descs.zipIdx).flatMap (fun e => failIf ((wideUses p e.1).any (reachesReserved p.nmicro)) (failOf dir .noFit (3, e.2) [(12, 0)])) ++
  (p.regions.zipIdx).flatMap (fun e => failIf (!e.1.lpddr && decide (sliceBytes < jobAreaOffset p + e.1.start + e.1.len))
    (failOf dir .noFit (13, e.2) [(1, p.stitches.length - 1)]))

/-! ### Chains with their bindings (R36, R101, R102, R401) -/

/-- What an instruction's binding may be (R36, R101). -/
def bindingOk (p : Package) (b : BindDesc) (i : NInstr) : Bool :=
  let t := (b.binds.getD i.args.sub none).bind (tensorOf p)
  match i.op with
  | 0x31 | 0x40 | 0x41 => t.isSome
  | 0x3B => !i.args.sr || t.isSome
  | 0x38 => t.any (fun t => t.fmt == .f32 || t.fmt == .l16 || (t.fmt == .u32 && !i.args.sr))
  | 0x3A => t.any (fun t => t.fmt == .f32)
  | 0x39 => t.any (fun t => fmtNarrow t.fmt || t.fmt == .l16)
  | 0x48 | 0x49 => ((b.binds.getD 3 none).bind (rowOf p)).isSome
  | _ => true

/-- BAD_NEEDLE of an instruction in a chain (R101). -/
def instrOk (p : Package) (c : ChainEntry) (b : BindDesc) (i : NInstr) : Bool :=
  bindingOk p b i && ((i.op != 0x30 && i.op != 0x1A) || c.source == 1)

/-- The tensors that the lanes of a chain address (R102). -/
def laneTensors (p : Package) (c : ChainEntry) (b : BindDesc) : List Nat :=
  ((chainCode p c).filter (fun i => [0x31, 0x38, 0x39, 0x3A, 0x40, 0x41].contains i.op || (i.op == 0x3B && i.args.sr))).filterMap
    (fun i => b.binds.getD i.args.sub none)

/-- Positions 0 to n − 1 have the same coordinates under both lists of extents; `k` is the product of those before (R72). -/
def shapeFrom (n k : Nat) : List Nat → List Nat → Bool
  | [], [] => true
  | a :: as, [] => decide (n ≤ k) || (a == 1 && shapeFrom n k as [])
  | [], b :: bs => decide (n ≤ k) || (b == 1 && shapeFrom n k [] bs)
  | a :: as, b :: bs => decide (n ≤ k) || (if a = b then shapeFrom n (k * a) as bs else decide (n ≤ k * min a b))

/-- The same logical shape over the positions of the index tensor (R102). -/
def sameShape (ix t : TensorDesc) : Bool := shapeFrom (tensorSize ix) 1 (axesOf ix) (axesOf t)

/-- The coordinates of an index under a list of extents, the outermost first, leading zeros dropped (R72). -/
def coordsOf (ext : List Nat) (x : Nat) : List Nat :=
  (ext.foldl (fun (r : List Nat × Nat) e => (r.1 ++ [r.2 % max e 1], r.2 / max e 1)) ([], x)).1.reverse.dropWhile (· == 0)

/-- The same logical shape at the indices given (R102). -/
def sameAt (xs : List Nat) (ix t : TensorDesc) : Bool :=
  xs.all (fun x => decide (x < tensorSize t) && coordsOf (axesOf ix) x == coordsOf (axesOf t) x)

/-- What R102 and R401 ask of a chain whose index tensor is known; `same` compares it with a bound tensor. -/
def shapeOk (p : Package) (c : ChainEntry) (b : BindDesc) (ix : TensorDesc) (same : TensorDesc → Bool) : Bool :=
  (laneTensors p c b).all (fun i => (tensorOf p i).all same) &&
    (!(usesRows p c) ||
      ((b.binds.getD 3 none).bind (rowOf p)).all (fun r => decide ((axesOf ix).getD 0 1 ≤ r.rowLen)))

/-- Checks of every needle slot's chain with its bindings. A chain with SOURCE 2 whose binding 0 is no TENSOR is refused with
BAD_NEEDLE, as one whose instruction lacks its binding (the spec names no status; DESIGN CHOICE, log entry 22). -/
def chainFails (dir : List Sect) (p : Package) : List PkgFail :=
  ((liveSlots p).filter (fun x => x.2.1 == 1)).flatMap (fun x => match descOf p x.2.2.desc with
    | .bind b =>
      (match p.chains[b.chain]? with
       | none => [failOf dir .badDescriptor (1, x.1) [(3, x.2.2.desc)]]
       | some c =>
         (((chainCode p c).zipIdx).filter (fun i => !(instrOk p c b i.1))).map (fun i =>
           failOf dir .badNeedle (1, x.1) [(3, x.2.2.desc), (4, b.chain), (5, c.entry + i.2)]) ++
         failIf (decide (p.needle.length < c.entry + c.length)) (failOf dir .badNeedle (1, x.1) [(4, b.chain)]) ++
         (if c.source = 2 then
            match (b.binds.getD 0 none).bind (tensorOf p) with
            | none => [failOf dir .badNeedle (1, x.1) [(3, x.2.2.desc), (4, b.chain)]]
            | some t => failIf (!(shapeOk p c b t (sameShape t))) (failOf dir .badDescriptor (1, x.1) [(3, x.2.2.desc), (4, b.chain)])
          else []))
    | _ => [])

/-- APPLY's bindings: Δ in F32, w in L16, ρ in REM8; CHAIN is 0 (R140, R166). -/
def applyFails (dir : List Sect) (p : Package) : List PkgFail :=
  ((liveSlots p).filter (fun x => x.2.1 == 3 && x.2.2.op == 4)).flatMap (fun x => match descOf p x.2.2.desc with
    | .bind b =>
      let f := fun (n : Nat) => (b.binds.getD n none).bind (tensorOf p)
      failIf (!((f 0).any (fun t => t.fmt == .f32) && (f 1).any (fun t => t.fmt == .l16) && (f 2).any (fun t => t.fmt == .rem8)) || b.chain != 0)
        (failOf dir .badDescriptor (1, x.1) [(3, x.2.2.desc)])
    | _ => [])

/-! ### The spool, the layer table and the region map (R120, R121, R133, R135, R192) -/

/-- BAD_LENGTH: an entry larger than the spool, or spool slots without a spool (R120, R121). -/
def spoolFails (dir : List Sect) (p : Package) : List PkgFail :=
  ((liveSlots p).filter (fun x => x.2.1 == 3 && (x.2.2.op == 2 || x.2.2.op == 3))).flatMap (fun x =>
    failIf (spoolSize p == 0 || (tensorOf p x.2.2.desc).any (fun t => decide (spoolSize p < 64 + t.spoolBytes)))
      (failOf dir .badLength (1, x.1) [(3, x.2.2.desc)]))

/-- F32 elements that the accumulation destinations of a package hold in bolt memory, panel by panel (R136). -/
def sumRoom (p : Package) : Nat :=
  ((sumTargets p).map (fun x => match tensorOf p x.2 with
    | none => 0
    | some t => if localBase ≤ 256 * t.elemBase then setSize p x.1 * tensorSize t
        else if boltBase ≤ 256 * t.elemBase then tensorSize t else 0)).sum

/-- The layer entry has an earlier trainable site of the same weight (R135). -/
def tiedAt (p : Package) (l : LayerEntry) (i : Nat) : Bool :=
  !l.frozen && (p.layers.take i).any (fun k => k.weight == l.weight && k.site != l.site && !k.frozen)

/-- TIED_WEIGHT_UNSUPPORTED without LZ-7 compatibility mode; with it BAD_LENGTH, where the accumulation destinations in bolt
memory together hold fewer elements than the weight, as no entry names its buffer alone (DEDUCED, log entry 78); and entries
that name no TENSOR or no PRODUCT (R133, R135, R136, R181). -/
def layerFails (dir : List Sect) (p : Package) : List PkgFail :=
  (p.layers.zipIdx).flatMap (fun e =>
    failIf ((tensorOf p e.1.weight).isNone || (productOf p e.1.site).isNone)
      (failOf dir .badDescriptor (11, e.2) [(3, e.1.weight), (3, e.1.site)]) ++
    failIf (!p.lz7 && tiedAt p e.1 e.2) (failOf dir .tiedWeightUnsupported (11, e.2) []) ++
    failIf (p.lz7 && tiedAt p e.1 e.2 && decide (sumRoom p < ((tensorOf p e.1.weight).map tensorSize).getD 0))
      (failOf dir .badLength (11, e.2) [(3, e.1.weight)]))

def regionsMeet (a b : Region) : Bool :=
  a.lpddr == b.lpddr && decide (a.start < b.start + b.len) && decide (b.start < a.start + a.len)

/-- BAD_PACKAGE of the map as a whole: regions of one space overlap, a number twice, two spools (R191, R192). -/
def mapFails (dir : List Sect) (p : Package) : List PkgFail :=
  (p.regions.zipIdx).flatMap (fun e =>
    failIf ((p.regions.take e.2).any (fun r => regionsMeet r e.1 || r.number == e.1.number || (r.spool && e.1.spool)))
      (failOf dir .badPackage (13, e.2) []))

/-! ### Variants and grade points (R178, R179, R182) -/

def pointKind (p : Package) (a : Nat) : Nat := (p.stitches[a]?.map (fun st => st.point)).getD 0
/-- The kind at which a variant holds a grade point number. -/
def heldKind (p : Package) (v : Variant) (g : Nat) : Option Nat := (v.points.getD g none).map (pointKind p)

/-- The index in its section of a variant's table entry (R178). -/
def gpIndex (bs : List Byte) (dir : List Sect) (i g : Nat) : Nat := wordAt (sectBytes bs (sectOf dir 7)) (32 * i + 4) / 4 + g

/-- Entries of grade point tables against their stitches, and against the other variants (R178, R182). -/
def pointFails (bs : List Byte) (dir : List Sect) (p : Package) : List PkgFail :=
  (p.variants.zipIdx).flatMap (fun v => (v.1.points.zipIdx).flatMap (fun e => match e.1 with
    | none =>
      failIf (p.variants.any (fun u => heldKind p u e.2 == some 3)) (failOf dir .badVariant (7, v.2) [(8, gpIndex bs dir v.2 e.2)])
    | some a =>
      failIf (!((p.stitches[a]?).any (fun st => st.point != 0 && st.gp == e.2))) (failOf dir .badGradePoint (8, gpIndex bs dir v.2 e.2) [(1, a)]) ++
      failIf ((p.variants.take v.2).any (fun u => (heldKind p u e.2).any (fun k => k != pointKind p a)))
        (failOf dir .badGradePoint (8, gpIndex bs dir v.2 e.2) [(1, a), (7, v.2)]))) ++
  (p.variants.zipIdx).flatMap (fun v => failIf (heldKind p v.1 0 != some 3) (failOf dir .badVariant (7, v.2) [(8, gpIndex bs dir v.2 0)]))

/-- STEP_OPEN stitches whose number some variant lacks (R178, R182). -/
def openFails (bs : List Byte) (dir : List Sect) (p : Package) : List PkgFail :=
  (p.stitches.zipIdx).flatMap (fun e => if e.1.point = 3 then
      ((p.variants.zipIdx).filter (fun v => (v.1.points.getD e.1.gp none).isNone)).map (fun v =>
        failOf dir .badVariant (1, e.2) [(7, v.2), (8, gpIndex bs dir v.2 e.1.gp)])
    else [])

/-- BAD_VARIANT: keys, recipe 0, escalation targets (R182). -/
def variantFails (dir : List Sect) (p : Package) : List PkgFail :=
  let key := fun (v : Variant) => (v.grade, v.recipe, v.recompute)
  (p.variants.zipIdx).flatMap (fun v => failIf ((p.variants.take v.2).any (fun u => key u == key v.1)) (failOf dir .badVariant (7, v.2) [])) ++
  failIf (!(p.variants.any (fun v => v.recipe == 0 && !v.recompute))) (failOf dir .badVariant (7, p.variants.length - 1) []) ++
  (p.escal.zipIdx).flatMap (fun e => failIf (e.1.valid && !(p.variants.any (fun v => v.recipe == e.1.dst)))
    (failOf dir .badVariant (9, e.2) [(7, p.variants.length - 1)]))

/-- NO_VARIANT: no compiled grade is available; FIXED = 1 without its variant (R263, R273). -/
def gradeFails (s : State) (dir : List Sect) (p : Package) : List PkgFail :=
  failIf (!(p.variants.any (fun v => gradeAvailable s v.grade))
      || (setting s 0x144 0 == 1 && !(p.variants.any (fun v => v.grade == setting s 0x145 0 && v.recipe == 0 && !v.recompute))))
    (failOf dir .noVariant (7, p.variants.length - 1) [])

/-- Every check of several entries without a schedule, in the order of R182's rows and of the chapters. -/
def crossFails (s : State) (bs : List Byte) (p : Package) : List PkgFail :=
  let dir := readDirectory bs
  panelSetFails dir p ++ fitFails dir p ++ kindFails dir p ++ operandFails dir p ++ variantFails dir p ++ openFails bs dir p
    ++ pointFails bs dir p ++ chainFails dir p ++ applyFails dir p ++ spoolFails dir p ++ layerFails dir p ++ addressFails dir p
    ++ writeFails dir p ++ mapFails dir p ++ gradeFails s dir p

end Sys2Proof.Machine
end

