-- ==== Sys2Proof/Machine/Schedule.lean ====
section
/-! DEFINITION. The schedule of a variant in program cycles, and the checks of a package that rest on it (R79, R81, R82,
R88 to R90, R93, R96, R105, R112, R116, R121, R128, R138, R149, R168, R174, R182, R299). -/

namespace Sys2Proof.Machine

open Sys2Proof.Config

/-! ### Cycle counts of the units -/

/-- Row entry to result in bank (R82). -/
def tAcc : Pair → Nat
  | .l4l4 => 40
  | .l16l16 => 88
  | _ => 44

/-- Load time of a stationary tile of `k` contraction elements by `n` columns (R82). -/
def tLoad (t : TensorDesc) (k n : Nat) : Nat :=
  let b := ceilDiv k (fmtBlock t.fmt) * n
  if fmtNarrow t.fmt then ceilDiv (16 * b + ceilDiv b (spanOf t) + 8 * t.kout * b) 1024 else ceilDiv (fmtBytes t.fmt * k * n) 1024

/-- The load times of a part's stationary tiles for one column group (R79, R82). -/
def partLoads (v : ProdView) (t : Part) (cols : Nat) : List Nat :=
  let per := pairKt v.pair / runLen v.pair
  (List.range (partTiles v t)).map (fun i => tLoad v.colT (min per (t.runHi - t.runLo - i * per) * runLen v.pair) cols)

/-- A tile in the schedule: its product, its first row and column, rows, columns and the cycle of its push. -/
structure SchedTile where
  desc : Nat
  row0 : Nat
  col0 : Nat
  rows : Nat
  cols : Nat
  push : Nat
deriving DecidableEq, Repr

/-- The matrix engine of a panel in the schedule: the last tile's swap and its stream's end, the cycles at which the two
banks are free, the last push and the last hop, the last result of its products, the tiles pushed and the chain hops sent by
the part in hand (R79 to R82). -/
structure Engine where
  swap : Nat := 0
  stream : Nat := 0
  bank0 : Nat := 0
  bank1 : Nat := 0
  push : Nat := 0
  hop : Nat := 0
  done : Nat := 0
  out : List SchedTile := []
  hops : List Nat := []
deriving DecidableEq, Repr

/-- Stationary tiles stream in turn; the next one loads meanwhile (R79). -/
def streamTiles (rows avail : Nat) : List Nat → Engine → Engine
  | [], e => e
  | l :: ls, e =>
    let sw := max (max e.stream avail) (e.swap + l)
    streamTiles rows avail ls { e with swap := sw, stream := sw + rows }

/-- A block of rows: stream, then emission of its 32-row tiles, each 32 cycles after the last row's result or the previous
push, or the hops to the next panel, each 64 cycles, one after the other (R81, R82). -/
def runSchedBlock (v : ProdView) (d row0 col0 rows cols : Nat) (loads : List Nat) (hopIn : Nat) (send : Bool) (e : Engine) : Engine :=
  let e1 := streamTiles rows (max e.bank0 hopIn) loads e
  let res := if loads.isEmpty then max (max e.stream e.bank0) hopIn else e1.stream - 1 + tAcc v.pair
  let n := ceilDiv rows 32
  if send then
    let to_ := max res e.hop + 64 * n
    { e1 with bank0 := e.bank1, bank1 := to_, hop := to_, done := res, hops := e1.hops ++ [to_] }
  else
    let go := max res e.push
    { e1 with
      bank0 := e.bank1, bank1 := go + 32 * n, push := go + 32 * n, done := res
      out := e1.out ++ (List.range n).map (fun i => ⟨d, row0 + 32 * i, col0, min 32 (rows - 32 * i), cols, go + 32 * (i + 1)⟩) }

/-- The blocks of a part, column group by column group. -/
def partBlocks (t : Part) : List (Nat × Nat) :=
  (List.range (t.colHi - t.colLo)).flatMap (fun c => (List.range (t.rowHi - t.rowLo)).map (fun r => (t.colLo + c, t.rowLo + r)))

/-- The engine of a panel after a part issued at cycle c; `hopsIn` are the arrivals from the panel before it. -/
def runSchedPart (v : ProdView) (d c : Nat) (t : Part) (hopsIn : List Nat) (send : Bool) (e : Engine) : Engine :=
  ((partBlocks t).zipIdx).foldl (fun u b =>
      let rows := clipLines v.rowT (b.1.2 * v.pd.mT) v.pd.mT
      let cols := clipLines v.colT (b.1.1 * v.pd.nT) v.pd.nT
      runSchedBlock v d (b.1.2 * v.pd.mT) (b.1.1 * v.pd.nT) rows cols (partLoads v t cols) (hopsIn.getD b.2 0) send u)
    { e with swap := max e.swap c, stream := max e.stream c, bank0 := max e.bank0 c, bank1 := max e.bank1 c, out := [], hops := [] }

/-- Latencies of needle instructions (R101). -/
def opLatency (op : Nat) : Nat :=
  match op with
  | 0x00 | 0x18 | 0x19 | 0x1A | 0x38 | 0x39 | 0x3A | 0x48 => 1
  | 0x20 | 0x40 | 0x41 => 6
  | 0x30 => 2
  | 0x31 | 0x49 => 8
  | _ => 4

/-- The first row that positions lo to hi − 1 of a chain address, and how many (R401): the rows of a tile, the rows of the
index tensor, or the lane numbers. -/
def rowSpan (src row0 cols ext lo hi : Nat) : Nat × Nat :=
  let per := max (if src = 1 then cols else if src = 2 then ext else 1) 1
  if lo < hi then ((if src = 1 then row0 else 0) + lo / per, (hi - 1) / per - lo / per + 1) else (0, 0)

/-- A pass of a chain: rows that its lanes address, its end, the end of its last RPUSH (0 where it has none). -/
structure PassPlan where
  row0 : Nat
  rows : Nat
  to_ : Nat
  pushed : Nat
deriving DecidableEq, Repr

/-- The instructions of a pass over `g` groups, from a cycle on; `far` where an addressed record lies in the overflow
region (R105). -/
def passCycles (code : List NInstr) (g : Nat) (far : Bool) (from_ : Nat) : Nat × Nat :=
  code.foldl (fun r i =>
    let t := r.1 + max g (if i.op = 0x49 ∧ far = true then 32 else opLatency i.op)
    (t, if i.op = 0x48 then t else r.2)) (from_, 0)

/-- The passes of a chain that begins at a cycle (R97, R105): `base` is the record of row 0. -/
def planPasses (code : List NInstr) (c : ChainEntry) (positions row0 cols ext base go : Nat) : List PassPlan :=
  let g := if c.source = 0 then 1 else ceilDiv positions c.vl
  let per := max c.passGroups 1
  ((List.range (if c.source = 0 then 1 else ceilDiv g per)).foldl (fun (r : Nat × List PassPlan) k =>
    let gp := min per (g - k * per)
    let rs := rowSpan c.source row0 cols ext (k * per * c.vl) (min positions ((k * per + gp) * c.vl))
    let e := passCycles code gp (decide (pocketSize < base + rs.1 + rs.2)) r.1
    (e.1, r.2 ++ [⟨rs.1, rs.2, e.1, e.2⟩])) (go + 4, [])).2

/-- Cycles of a fold on one of `n` panels (R88, R89): the rate halved with outliers, the transpose of a refold, 12 after
the last element. -/
def tFold (ts td : TensorDesc) (path n : Nat) : Nat :=
  let e := ceilDiv (tensorSize ts) (max n 1)
  ceilDiv e (if td.kout = 0 then 64 else 32) + (if td.kout = 0 then 0 else 2 * n) + (if path = 1 then 128 else 0) + 12

/-! ### The state of a schedule -/

/-- Terms that records [lo, lo + n) hold and no operation has completed, applied by a cycle; `recv` for a record received
from another panel, which holds terms of it (R111, R112). -/
structure Terms where
  lo : Nat
  n : Nat
  until_ : Nat
  recv : Bool := false
deriving DecidableEq, Repr

/-- An outlier store that a fold fills: its address in the micro-batch, elements folded into it and elements in all, the end
of the work issued (R89, R90). -/
structure Fill where
  store : Nat
  got : Nat
  size : Nat
  to_ : Nat
deriving DecidableEq, Repr

/-- An entry of a panel's spool: descriptor, micro-batch, where it stands above the bottom, bytes (R121). -/
structure SpoolPlan where
  desc : Nat
  micro : Nat
  off : Nat
  size : Nat
deriving DecidableEq, Repr

/-- A panel in the schedule. -/
structure PanelPlan where
  engine : Engine := {}
  prods : List Nat := []               -- ends of the products issued
  foldEnd : Nat := 0
  chainEnd : Nat := 0
  tiles : List SchedTile := []         -- pushed or to be pushed, not yet consumed
  terms : List Terms := []             -- rows with terms and no finalisation since
  spool : List SpoolPlan := []         -- top first
deriving DecidableEq, Repr

/-- Operands of an eligible product: the cycles of its pushes, the bytes, the entries that name them (R149). -/
structure Still where
  uses : List Use
  pushes : List Nat
  places : List At
deriving DecidableEq, Repr

/-- Bytes that a slot writes, from a cycle to a cycle: none while no SYNC has waited for its mover queue (R149, R169). -/
structure WriteRun where
  uses : List Use
  from_ : Nat
  to_ : Option Nat
  queue : Nat
  places : List At
deriving DecidableEq, Repr

/-- The walk through a variant: where it is and what it has found. -/
structure Walk where
  addr : Nat
  cyc : Nat
  step : Nat
  ctrs : List Nat
  micro : Nat
  fenced : Bool
  plans : Tab PanelPlan
  fills : List Fill
  still : List Still
  writes : List WriteRun
  fresh : List Nat                     -- micro-batches with a push and no grade point since (R128)
  opens : List (Nat × List Nat × Nat × Nat)
  fails : List PkgFail
  ended : Bool
deriving DecidableEq, Repr

/-- What a walk refers to. -/
structure WalkCtx where
  dir : List Sect
  pkg : Package
  recipe : Nat
  period : Nat                         -- steps after which every rotation repeats
  used : List (Nat × List Nat)         -- descriptors that the stitches of each recipe name

def planOf (w : Walk) (q : Nat) : PanelPlan := tabGet {} w.plans q
def modPlan (w : Walk) (q : Nat) (f : PanelPlan → PanelPlan) : Walk := { w with plans := tabPut w.plans q (f (planOf w q)) }

def flag (w : Walk) (b : Bool) (f : PkgFail) : Walk := if b then { w with fails := w.fails ++ [f] } else w

/-- A failure at the stitch in hand. -/
def hereFail (x : WalkCtx) (w : Walk) (st : Status) (xs : List At) : PkgFail := failOf x.dir st (1, w.addr) xs

/-- The panels of a slot in the step of the walk (R170). -/
def walkPanels (x : WalkCtx) (w : Walk) (i : Nat) : List Nat :=
  match x.pkg.psets[phaseEntry x.pkg w.step i]? with
  | none => []
  | some e => maskPanels e.mask

/-! ### Where tensors lie (R38, R121, R122, R171, R186) -/

/-- MICRO as the stride counts it (R74). -/
def walkMicro (w : Walk) : Nat := if w.micro = 0xFFFF then 0 else w.micro

/-- A use's address as panel q reaches it in the micro-batch of the walk. -/
def useAt (w : Walk) (q : Nat) (u : Use) : Use := { u with at_ := resolveAddr q (u.at_ + walkMicro w * u.step) }

/-- The entry of panel q's spool that a descriptor reaches, as the running machine chooses it (log entry 20). -/
def spoolEntry (w : Walk) (q d : Nat) : Option SpoolPlan :=
  let l := (planOf w q).spool
  match l.find? (fun e => e.desc == d && e.micro == w.micro) with
  | some e => some e
  | none => match l.find? (fun e => e.desc == d) with
    | some e => some e
    | none => match l.find? (fun e => e.micro == w.micro) with
      | some e => some e
      | none => l.head?

/-- Bytes of a spool entry's payload, as addresses beyond the map: the entries of a panel lie one above the other, and panels
apart (R121, R122). -/
def spoolUse (w : Walk) (q d base n : Nat) : List Use :=
  match spoolEntry w q d with
  | none => []
  | some e => [{ at_ := 2 ^ 41 + 2 ^ 33 * q + e.off + 64 + 256 * base, len := n, step := 0 }]

/-- The planes of a tensor that panel q reaches. -/
def tensorAt (p : Package) (w : Walk) (q d : Nat) : List Use :=
  match tensorOf p d with
  | none => []
  | some t =>
    if t.spooled then (planeSpans t).flatMap (fun e => spoolUse w q d (e.1 + t.mstride * walkMicro w) e.2)
    else (tensorUses t).map (useAt w q)

/-! ### Writes: fences and baste windows (R138, R149, R299) -/

/-- The bytes are job state: a JOB_STATE region or a trainable master (R138, R191, R298). -/
def stateUse (p : Package) (u : Use) : Bool :=
  p.regions.any (fun r => r.jobState && useMeets p u r) ||
    (p.layers.filter (fun l => !l.frozen)).any (fun l => (tensorUsesAt p l.weight).any (usesMeet u))

/-- Every page of a use is job state (R299). -/
def allState (p : Package) (u : Use) : Bool :=
  (pagesOf u.at_ u.len).all (fun a => p.regions.any (fun r => r.jobState && coversAddr p r a))

/-- What part j of a slot, on panel q, writes (R88, R101, R113, R126, R140, R230, R250). -/
def partWrites (p : Package) (w : Walk) (cls : Nat) (sl : Slot) (q j : Nat) : List Use :=
  (writtenTensors p cls sl).flatMap (tensorAt p w q) ++
  match descOf p sl.desc with
  | .move d =>
    if d.dstSp then spoolUse w q sl.desc (d.dst + (d.dstMstride * walkMicro w + d.dstPstride * j)) d.len
    else [useAt w q (shifted (useOf d.dst d.len d.dstMstride) (256 * d.dstPstride * j))]
  | .bind _ => []
  | _ => (slotWrites p cls sl).map (fun u => useAt w q u.2)

/-- What a slot writes, on all its panels. -/
def allWrites (p : Package) (w : Walk) (cls : Nat) (sl : Slot) (ps : List Nat) : List Use :=
  (ps.zipIdx).flatMap (fun e => partWrites p w cls sl e.1 e.2)

/-- BAD_FENCE of a slot (R138, R299). -/
def fenceBad (x : WalkCtx) (w : Walk) (cls : Nat) (sl : Slot) (us : List Use) : Bool :=
  (!w.fenced && (us.any (stateUse x.pkg) || (cls == 3 && sl.op == 4))) ||
    (match cls, descOf x.pkg sl.desc with
     | 3, .stream d => !d.emit && d.ahead != 0 &&
        (!w.fenced || !(allState x.pkg (useAt w 0 (useOf d.loc (d.records * d.recordBytes) d.mstride))))
     | _, _ => false)

/-- The bytes that a slot writes, from a cycle to a cycle. -/
def noteUses (x : WalkCtx) (cls queue : Nat) (sl : Slot) (us : List Use) (from_ : Nat) (to_ : Option Nat) (w : Walk) : Walk :=
  let w1 := flag w (fenceBad x w cls sl us) (hereFail x w .badFence [(3, sl.desc)])
  if us.isEmpty then w1 else { w1 with writes := ⟨us, from_, to_, queue, [(1, w.addr), (3, sl.desc)]⟩ :: w1.writes }

/-- A slot that writes, from a cycle to a cycle. -/
def noteWrite (x : WalkCtx) (cls queue : Nat) (sl : Slot) (ps : List Nat) (from_ : Nat) (to_ : Option Nat) (w : Walk) : Walk :=
  noteUses x cls queue sl (allWrites x.pkg w cls sl ps) from_ to_ w

/-- Bytes that no slot may write: failures at the stitch in hand (R134, R187, R192). -/
def flagWrites (x : WalkCtx) (places : List At) (us : List Use) (w : Walk) : Walk :=
  { w with fails := w.fails ++ us.flatMap (fun u => (writeBad x.pkg u).map (fun f => hereFail x w f.1 (places ++ f.2))) }

/-- A SYNC: the writes of the queues it names have completed (R169). -/
def closeWrites (mask : Nat) (w : Walk) : Walk :=
  { w with writes := w.writes.map (fun r =>
      if r.to_.isNone && bitOf mask r.queue then { r with to_ := some w.cyc } else r) }

/-- A write that changes an operand within 16,384 cycles after a push (R149). -/
def basteClash (r : WriteRun) (k : Still) : Bool :=
  k.pushes.any (fun c => decide (r.from_ ≤ c + 16384) && r.to_.all (fun e => decide (c ≤ e))) &&
    r.uses.any (fun u => k.uses.any (usesMeet u))

/-- The failures of a whole walk against the baste windows (R149). -/
def basteFails (x : WalkCtx) (w : Walk) : List PkgFail :=
  w.writes.flatMap (fun r => (w.still.filter (basteClash r)).map (fun k =>
    failOf x.dir .badBasteWindow (r.places.headD (1, 0)) (r.places ++ k.places)))

/-! ### Slots -/

/-- A tile whose operands may fit the check buffer: how many outlier entries its blocks hold is known only as it is pushed
(R149). -/
def eligible (p : Package) (v : ProdView) (t : SchedTile) : Bool :=
  let r := rankElems p v
  decide (t.rows * linePlain v.rowT r.1 r.2 + t.cols * linePlain v.colT r.1 r.2 ≤ 0x100000)

/-- Where the outlier store of descriptor d lies on panel q in the micro-batch of the walk (R122, R171). -/
def storeAt (w : Walk) (q d : Nat) (t : TensorDesc) : Nat :=
  if t.spooled then ((spoolUse w q d (t.storeBase + t.mstride * walkMicro w) 0).map Use.at_).headD 0
  else resolveAddr q (256 * (t.storeBase + t.mstride * walkMicro w))

/-- A store that is still being filled, as an operand of a product on panel q (R90). -/
def storeEarly (w : Walk) (d : Nat) (t : TensorDesc) (q : Nat) : Bool :=
  t.kout != 0 && w.fills.any (fun f => f.store == storeAt w q d t && (decide (w.cyc < f.to_) || decide (f.got < f.size)))

/-- `n` elements are folded into the instance whose store lies at `a` by a cycle; a complete instance starts again (R48,
R89). -/
def fillStore (t : TensorDesc) (a n to_ : Nat) (w : Walk) : Walk :=
  if t.kout = 0 then w
  else
    let old := (w.fills.find? (fun f => f.store == a)).getD ⟨a, 0, 0, 0⟩
    let got := if old.size ≤ old.got then n else old.got + n
    { w with fills := ⟨a, got, tensorSize t, max to_ (if old.size ≤ old.got then 0 else old.to_)⟩ ::
                        w.fills.filter (fun f => f.store != a) }

/-- Two products of a panel are unfinished (R182). -/
def engineFull (w : Walk) (q : Nat) : Bool := decide (2 ≤ ((planOf w q).prods.filter (fun n => decide (w.cyc < n))).length)

/-- PROD in the schedule: two products unfinished, a store not yet filled, then its cycles (R79, R81, R90, R182). The
operands of every panel of a chain stand behind the tiles that its last panel pushes (R81, R149). -/
def walkProd (x : WalkCtx) (sl : Slot) (ps : List Nat) (w : Walk) : Walk :=
  match prodView x.pkg sl.desc with
  | none => w
  | some v =>
    let ks := max v.pd.kSplit 1
    let w1 := flag w (ps.any (storeEarly w v.rowD v.rowT) || ps.any (storeEarly w v.colD v.colT)) (hereFail x w .badDescriptor [(3, sl.desc), (3, v.rowD), (3, v.colD)])
    ((ps.zipIdx).foldl (fun (acc : Walk × List Nat × List Use) e =>
      let q := e.1
      let t := prodPart x.pkg v e.2
      let pl := planOf acc.1 q
      let en := runSchedPart v sl.desc w.cyc t (if t.kPart = 0 then [] else acc.2.1) (decide (e.2 % ks + 1 < ks)) pl.engine
      let w2 := modPlan (flag acc.1 (engineFull acc.1 q) (hereFail x w .badSchedule [])) q (fun r => { r with
        engine := en, prods := en.bank1 :: (r.prods.filter (fun n => decide (w.cyc < n))), tiles := r.tiles ++ en.out })
      let uses := (if t.kPart = 0 then [] else acc.2.2) ++ tensorAt x.pkg w q v.rowD ++ tensorAt x.pkg w q v.colD
      let live := en.out.filter (eligible x.pkg v)
      let still : Still := ⟨uses, live.map SchedTile.push, [(1, w.addr), (3, sl.desc), (3, v.rowD), (3, v.colD)]⟩
      ({ w2 with still := if live.isEmpty then w2.still else still :: w2.still }, en.hops, uses)) (w1, [], [])).1

/-- FOLD in the schedule (R88, R89, R182). -/
def walkFold (x : WalkCtx) (sl : Slot) (ps : List Nat) (w : Walk) : Walk :=
  match descOf x.pkg sl.desc with
  | .fold d =>
    match tensorOf x.pkg d.src, tensorOf x.pkg d.dst with
    | some ts, some td =>
      let e := w.cyc + tFold ts td d.path ps.length
      let w1 := ps.foldl (fun u q =>
        modPlan (flag u (decide (w.cyc < (planOf u q).foldEnd) || engineFull u q) (hereFail x w .badSchedule [])) q
          (fun r => { r with foldEnd := e })) w
      (ps.map (fun q => storeAt w q d.dst td)).eraseDups.foldl (fun u a => fillStore td a (tensorSize td) e u)
        (noteWrite x 0 0 sl ps w.cyc (some e) w1)
    | _, _ => w
  | _ => w

/-- Positions of a chain's source (R97). -/
def chainSpan (p : Package) (c : ChainEntry) (b : BindDesc) (h : Option SchedTile) : Nat :=
  match c.source, h with
  | 1, some t => t.rows * t.cols
  | 2, _ => ((b.binds.getD 0 none).bind (tensorOf p)).elim 0 tensorSize
  | 0, _ => c.vl
  | _, _ => 0

/-- The tensor that gives the positions of a chain their logical indices (R103). -/
def chainIndex (p : Package) (c : ChainEntry) (b : BindDesc) (h : Option SchedTile) : Option TensorDesc :=
  match c.source with
  | 1 => (h.bind (fun t => productOf p t.desc)).bind (fun d => tensorOf p d.c)
  | 2 => (b.binds.getD 0 none).bind (tensorOf p)
  | _ => none

/-- The instances that the QNTs of a chain fold (R90, R101). -/
def chainFills (p : Package) (c : ChainEntry) (b : BindDesc) : List (Nat × TensorDesc) :=
  ((chainCode p c).filter (fun i => i.op == 0x39)).filterMap (fun i =>
    (b.binds.getD i.args.sub none).bind (fun d => (tensorOf p d).map (fun t => (d, t))))

/-- The logical indices of a tile in its product's output (R103). -/
def tileIndices (h : SchedTile) (ext : Nat) : List Nat :=
  (List.range h.rows).flatMap (fun r => (List.range h.cols).map (fun c => (h.col0 + c) + (h.row0 + r) * ext))

/-- The overflow records to which the passes of a chain push terms on panel q (R110, R401). -/
def pushedUses (q : Nat) (r : RowDesc) (ps : List PassPlan) : List Use :=
  (ps.filter (fun a => a.pushed != 0)).filterMap (fun a =>
    let lo := max (r.base + a.row0) pocketSize
    let hi := r.base + a.row0 + a.rows
    if lo < hi then some { at_ := ovfAddr q r lo, len := 32 * (hi - lo), step := 0 } else none)

/-- CHAIN on a panel: the previous chain not completed; the shapes of a tile's chain; records beyond the overflow region, or
where no write may go; its cycles, row terms, stores and writes. A store that it fills by QNT with outliers is valid after the
second reading at 32 elements a cycle, the hand-over of the panels and the last group's latency (R88 to R90, R96, R98, R102,
R105, R110, R134, R187, R401). -/
def walkChainOn (x : WalkCtx) (sl : Slot) (c : ChainEntry) (b : BindDesc) (w : Walk) (q : Nat) : Walk :=
  let pl := planOf w q
  let code := chainCode x.pkg c
  let h := if c.source = 1 then pl.tiles.head? else none
  let go := max w.cyc ((h.map (fun t => t.push + 3)).getD 0)
  let rd := if usesRows x.pkg c then (b.binds.getD 3 none).bind (rowOf x.pkg) else none
  let ix := chainIndex x.pkg c b h
  let ext := (ix.map (fun t => (axesOf t).getD 0 1)).getD 1
  let n := chainSpan x.pkg c b h
  let empty := c.length == 0 || c.vl == 0
  let ps := if empty then [] else
    planPasses code c n ((h.map SchedTile.row0).getD 0) ((h.map SchedTile.cols).getD 1) ext ((rd.map RowDesc.base).getD 0) go
  let e := if empty then go + 1 else ((ps.getLast?).map PassPlan.to_).getD (go + 4)
  let places : List At := [(3, sl.desc), (4, b.chain)]
  let beyond := rd.any (fun r => ps.any (fun a => a.rows != 0 && beyondOvf r (r.base + a.row0 + a.rows)))
  let w1 := flag w (decide (w.cyc < pl.chainEnd)) (hereFail x w .badNeedle places)
  let bad := c.source == 1 && !(ix.all (fun t => shapeOk x.pkg c b t (sameAt ((h.map (fun e => tileIndices e ext)).getD []) t)))
  let w2 := flag w1 bad (hereFail x w .badDescriptor places)
  let rows := places ++ ((b.binds.getD 3 none).map (fun i => ((3, i) : At))).toList
  let ovf := (rd.map (fun r => pushedUses q r ps)).getD []
  let w3 := flagWrites x rows ovf (flag w2 beyond (hereFail x w .badLength rows))
  let terms := (ps.filter (fun a => a.pushed != 0 && a.rows != 0)).filterMap (fun a =>
    rd.map (fun r => (⟨r.base + a.row0, a.rows, a.pushed, false⟩ : Terms)))
  let w4 := modPlan w3 q (fun r => { r with
    chainEnd := e, tiles := if c.consume then r.tiles.drop 1 else r.tiles, terms := terms ++ r.terms })
  if empty then w4 else
    let done := e + ceilDiv n 32 + 2 * (walkPanels x w sl.pset).length + 12
    (chainFills x.pkg c b).foldl (fun u t => fillStore t.2 (storeAt w q t.1 t.2) n done u)
      (noteUses x 1 0 sl (allWrites x.pkg w 1 sl [q] ++ ovf) go (some e) w4)

def walkChain (x : WalkCtx) (sl : Slot) (ps : List Nat) (w : Walk) : Walk :=
  match descOf x.pkg sl.desc with
  | .bind b => match x.pkg.chains[b.chain]? with
    | some c => ps.foldl (walkChainOn x sl c b) w
    | none => w
  | _ => w

/-! ### Row slots (R112, R113, R116) -/

/-- Latency of a row operation in pocket memory (R113). -/
def rowLatency (op : Nat) : Nat :=
  match op with
  | 1 | 7 => 2
  | 2 | 8 | 9 => 8
  | 3 => 24
  | 4 => 32
  | 5 | 6 => 12
  | _ => 16

/-- A row slot reaches records beyond the pocket, its own or the forward ones of RFIN_RMSB (R113). -/
def rowFar (op : Nat) (d : RowDesc) : Bool :=
  decide (pocketSize < d.base + d.count) || (op == 5 && decide (pocketSize < d.fwdBase + d.count))

/-- Hops between two panels on the 16 × 16 mesh of the lining network (01_architecture.md). -/
def meshHops (a b : Nat) : Nat := (a / 16 - b / 16) + (b / 16 - a / 16) + (a % 16 - b % 16) + (b % 16 - a % 16)

/-- The cycle at which a row slot issued at cycle c on panel q reaches its record j; the latency of RCHAIN is one for each
hop to its partner (R113). -/
def rowReach (op : Nat) (d : RowDesc) (q c j : Nat) : Nat :=
  c + (rowLatency op + if rowFar op d then 24 else 0) * (if 10 ≤ op then meshHops q d.partner else 1)
    + (if 8 ≤ op then j / 8 else j)

def termsMeet (t : Terms) (lo n : Nat) : Bool := decide (t.lo < lo + n) && decide (lo < t.lo + t.n)

/-- Terms still in flight when a slot reaches the first of their records, in the records from `lo` on (R116). -/
def inFlight (op : Nat) (d : RowDesc) (q c lo : Nat) (t : Terms) : Bool :=
  termsMeet t lo d.count && decide (rowReach op d q c (t.lo - lo) < t.until_)

/-- A row slot: terms still in flight; RCHAIN_RECV after a term of its row; operations that complete the row. A record holds
a partial row from its first term to the next row operation other than RSAVE, and a received record holds one (R112, R113,
R116; log entry 24). -/
def walkRow (x : WalkCtx) (sl : Slot) (ps : List Nat) (w : Walk) : Walk :=
  match rowOf x.pkg sl.desc with
  | none => w
  | some d =>
    let e := (ps.map (fun q => rowReach sl.op d q w.cyc d.count)).foldl max w.cyc
    noteWrite x 2 0 sl ps w.cyc (some e) (ps.foldl (fun u q =>
      let ts := (planOf u q).terms
      let bad := ts.any (inFlight sl.op d q w.cyc d.base) || (sl.op == 5 && ts.any (inFlight sl.op d q w.cyc d.fwdBase))
        || (sl.op == 11 && ts.any (fun t => !t.recv && termsMeet t d.base d.count))
      let rest := ts.filter (fun t => !(termsMeet t d.base d.count))
      modPlan (flag u bad (hereFail x w .badRowSchedule [(3, sl.desc)])) q (fun r => { r with
        terms := if sl.op = 8 then ts else if sl.op = 11 then ⟨d.base, d.count, 0, true⟩ :: rest else rest })) w)

/-- SPUSH and SPOP (R121, R128). -/
def walkSpool (x : WalkCtx) (sl : Slot) (ps : List Nat) (w : Walk) : Walk :=
  if sl.op = 2 then
    let n := 64 + ((tensorOf x.pkg sl.desc).map TensorDesc.spoolBytes).getD 0
    ps.foldl (fun u q => modPlan u q (fun r => { r with
      spool := ⟨sl.desc, w.micro, ((r.spool.head?).map (fun e => e.off + e.size)).getD 0, n⟩ :: r.spool }))
      { w with fresh := w.micro :: w.fresh }
  else
    ps.foldl (fun u q => modPlan (flag u (((planOf u q).spool.head?).map SpoolPlan.desc != some sl.desc)
        (hereFail x w .badSpoolOrder [(3, sl.desc)])) q (fun r => { r with spool := r.spool.drop 1 }))
      (flag w (w.fresh.contains w.micro) (hereFail x w .badGradePoint []))

/-- One slot, with its mover queue. -/
def walkSlot (x : WalkCtx) (w : Walk) (e : (Nat × Slot) × Nat) : Walk :=
  let sl := e.1.2
  let ps := walkPanels x w sl.pset
  match e.1.1, sl.op with
  | 0, 1 => walkProd x sl ps w
  | 0, _ => walkFold x sl ps w
  | 1, _ => walkChain x sl ps w
  | 2, _ => walkRow x sl ps w
  | _, 2 => walkSpool x sl ps w
  | _, 3 => walkSpool x sl ps w
  | _, _ => noteWrite x 3 e.2 sl ps w.cyc none w

/-- The live slots of a stitch, each with its mover queue: mover slot n is queue n (R169). -/
def queuedSlots (st : Stitch) : List ((Nat × Slot) × Nat) :=
  let front := st.mslots.length + st.nslots.length + st.rslots.length
  ((slotsOf st).zipIdx.map (fun e => (e.1, e.2 - front))).filter (fun e => e.1.2.op != 0)

/-- The unit of a panel that a slot acts on: matrix engine, fold unit, needle engine, row engine (R182). -/
def unitOfSlot (e : Nat × Slot) : Nat := if e.1 = 0 ∧ e.2.op = 2 then 10 else e.1

/-- Two slots of one stitch act on the same unit of one panel (R182); each mover slot has a queue of its own. -/
def sameUnit (x : WalkCtx) (w : Walk) : List (Nat × Slot) → Bool
  | [] => false
  | e :: t => (e.1 != 3 && t.any (fun f => unitOfSlot f == unitOfSlot e &&
      (walkPanels x w f.2.pset).any (fun q => (walkPanels x w e.2.pset).contains q))) || sameUnit x w t

/-! ### Grade points (R93, R116, R174, R178) -/

/-- An alternative recipe, one that holds this grade point too, does not use the descriptor: the change replaces it (R93,
R178). -/
def replaced (x : WalkCtx) (gp d : Nat) : Bool :=
  x.used.any (fun u => u.1 != x.recipe && !(u.2.contains d)
    && x.pkg.variants.any (fun v => v.recipe == u.1 && (v.points.getD gp none).isSome))

/-- BAD_GRADE_POINT where the recipe may change: a bank whose sums are not complete, a replaced entry in a tile queue, a
running chain, a partial row (R93, R116). -/
def recipeBad (x : WalkCtx) (gp : Nat) (w : Walk) : Bool :=
  w.plans.any (fun e =>
    decide (w.cyc < e.2.engine.done) || e.2.tiles.any (fun t => replaced x gp t.desc) || decide (w.cyc < e.2.chainEnd)
      || !e.2.terms.isEmpty)

/-- What the grade point of a stitch does in the schedule. -/
def walkPoint (x : WalkCtx) (st : Stitch) (w : Walk) : Walk :=
  let w0 := if st.point = 0 ∨ st.point = 4 then w else { w with cyc := w.cyc + 32 }
  let w1 := if st.point = 0 then w0 else { w0 with fresh := [] }
  let w2 := flag w1 ((st.point == 2 || st.point == 3) && recipeBad x st.gp w1) (hereFail x w .badGradePoint [])
  match st.point with
  | 3 => { w2 with fenced := false }
  | 4 => { w2 with fenced := true }
  | 5 => { flag w2 (w2.plans.any (fun e => !e.2.spool.isEmpty)) (hereFail x w .badSpoolOrder []) with step := w2.step + 1 }
  | _ => w2

/-! ### The walk -/

/-- MICRO after a stitch's MICRO_OP (R165, R167). -/
def microAfter (st : Stitch) (m : Nat) : Nat :=
  match st.microOp with
  | 1 => 0 | 2 => m + 1 | 3 => 0xFFFF | _ => m

/-- The next address and counters (R167); none after HALT. -/
def flowAfter (st : Stitch) (a : Nat) (cs : List Nat) : Option (Nat × List Nat) :=
  let c := cs.getD st.ctr 0
  match st.flow with
  | 0 => some (a + 1, cs)
  | 1 => some (st.arg, cs)
  | 2 => if c = 0 then some (a + 1, cs) else some (if c - 1 = 0 then a + 1 else st.arg, cs.set st.ctr (c - 1))
  | 3 => some (a + 1, cs.set st.ctr st.arg)
  | _ => none

/-- The flow state at a STEP_OPEN, by which a walk knows that it repeats. -/
def openKey (x : WalkCtx) (w : Walk) : Nat × List Nat × Nat × Nat := (w.addr, w.ctrs, w.micro, w.step % x.period)

/-- One stitch of the walk; it ends at HALT, or when a step begins as two before it did. -/
def walkStitch (x : WalkCtx) (w : Walk) : Walk :=
  match x.pkg.stitches[w.addr]? with
  | none => { w with ended := true }
  | some st =>
    if st.point = 3 ∧ 2 ≤ (w.opens.filter (fun k => k == openKey x w)).length then { w with ended := true }
    else
      let w0 := if st.point = 3 then { w with opens := openKey x w :: w.opens } else w
      let w1 := walkPoint x st (closeWrites st.sync { w0 with micro := microAfter st w0.micro })
      let live := queuedSlots st
      let w2 := live.foldl (walkSlot x) (flag w1 (sameUnit x w1 (live.map Prod.fst)) (hereFail x w1 .badSchedule []))
      match flowAfter st w.addr w.ctrs with
      | none => { w2 with ended := true }
      | some n => { w2 with addr := n.1, ctrs := n.2, cyc := w2.cyc + 1 + st.gap }

/-- The walk over at most `n` stitches. -/
def walkAll (x : WalkCtx) : Nat → Walk → Walk
  | 0, w => w
  | n + 1, w => if w.ended then w else walkAll x n (walkStitch x w)

/-- The walk's bound: more stitches than four counters of 20 bits and the pattern allow between repeats. -/
def walkFuel : Nat := 2 ^ 128

/-- Steps after which every rotation group of the package repeats (R170). -/
def rotationPeriod (p : Package) : Nat := p.psets.foldl (fun n e => Nat.lcm n (e.phases + 1)) 1

/-- The addresses a variant's flow can reach, wherever its counters stand. -/
def reachStep (p : Package) (as : List Nat) : List Nat :=
  as.foldl (fun l a =>
    match p.stitches[a]? with
    | none => l
    | some st =>
      let next := match st.flow with | 1 => [st.arg] | 2 => [a + 1, st.arg] | 4 => [] | _ => [a + 1]
      next.foldl (fun m b => if m.contains b then m else m ++ [b]) l) as

/-- `n` rounds of it, or until nothing is new. -/
def reachAll (p : Package) : Nat → List Nat → List Nat
  | 0, as => as
  | n + 1, as =>
    let bs := reachStep p as
    if bs.length = as.length then as else reachAll p n bs

/-- The descriptors that the stitches of a recipe's variants name (R93, R177). -/
def usedBy (p : Package) (recipe : Nat) : List Nat :=
  let starts := (p.variants.filter (fun v => v.recipe == recipe)).flatMap (fun v => v.points.filterMap id)
  (reachAll p p.stitches.length starts).flatMap (fun a => match p.stitches[a]? with
    | none => []
    | some st => ((slotsOf st).filter (fun e => e.2.op != 0)).map (fun e => e.2.desc))

/-- The failures of a variant's schedule, from its grade point 0 (R179). -/
def variantSched (dir : List Sect) (p : Package) (used : List (Nat × List Nat)) (v : Variant) : List PkgFail :=
  match v.points.getD 0 none with
  | none => []
  | some a =>
    let x : WalkCtx := { dir := dir, pkg := p, recipe := v.recipe, period := rotationPeriod p, used := used }
    let w := walkAll x walkFuel { addr := a, cyc := 0, step := 0, ctrs := [0, 0, 0, 0], micro := 0xFFFF, fenced := false
                                  plans := [], fills := [], still := [], writes := [], fresh := [], opens := [], fails := []
                                  ended := false }
    w.fails ++ basteFails x w

/-- The failures of the schedules of every variant. -/
def schedFails (dir : List Sect) (p : Package) : List PkgFail :=
  let recipes := (p.variants.map (fun v => v.recipe)).eraseDups
  let used := recipes.map (fun r => (r, usedBy p r))
  p.variants.flatMap (variantSched dir p used)

/-! ### All the checks (R182, R402) -/

/-- The failure of a package that the device reports: the first in the order of R402. -/
def packageFail (s : State) (bs : List Byte) : Option PkgFail :=
  match frontFail bs with
  | some f => some f
  | none =>
    match entryFail s bs with
    | some f => some f
    | none =>
      let p := readPackage bs
      firstFail (crossFails s bs p ++ schedFails (readDirectory bs) p)

end Sys2Proof.Machine
end

