-- ==== Sys2Proof/Machine/Txns.lean ====
section
/-! DEFINITION. Configuration transactions and calibration: the messages of R346 to R352. -/

namespace Sys2Proof.Machine

open Sys2Proof.Config

/-! ### Entries (R347, R349) -/

/-- The elements of a setting: first INDEX and one past the last; none for an unknown ID (R349). -/
def elements (id : Nat) : Option (Nat × Nat) :=
  let within := fun (lo hi : Nat) => decide (lo ≤ id) && decide (id ≤ hi)
  if id = 0x104 then some (0, 24)
  else if within 0x130 0x136 then some (0, 2)
  else if id = 0x137 then some (0, 8)
  else if id = 0x146 then some (1, 9)
  else if id = 0x155 then some (0, 528)
  else if id = 0x170 then some (0, 8)
  else if within 0x100 0x103 || within 0x110 0x111 || within 0x120 0x124 || within 0x138 0x13B || within 0x140 0x147
      || within 0x150 0x154 || id == 0x160 || within 0x171 0x172 then some (0, 1)
  else none

def knownSetting (id idx : Nat) : Bool :=
  match elements id with
  | some (lo, hi) => decide (lo ≤ idx) && decide (idx < hi)
  | none => false

/-- Entry i of a TXN_SET body, with its number. -/
def entryAt (b : Mailbox) (num i : Nat) : TxnEntry :=
  let o := 4 + 24 * i
  { num := num, id := fieldOf (reqWord b o) 0 16, index := fieldOf (reqWord b o) 16 16
    pfx := fieldOf (reqWord b (o + 4)) 0 8, value := reqWord b (o + 8), ext := leNat (reqBytes b (o + 12) 12) }

def entriesOf (b : Mailbox) (num : Nat) : List TxnEntry := (List.range (reqWord b 0)).map (fun i => entryAt b (num + i) i)

/-- A reserved field of an entry, or a PREFIX or VALUE_EXT outside IP_ADDR, is nonzero (R347). -/
def entryRsv (b : Mailbox) : Bool :=
  (List.range (reqWord b 0)).any (fun i =>
    let e := entryAt b 0 i
    rsvFrom (4 + 24 * i + 4) 8 b || (e.id != 0x137 && (e.pfx != 0 || e.ext != 0)))

/-- An entry in the layout of R347. -/
def entryBytes24 (id idx pfx value ext : Nat) : List Byte :=
  words [id + 65536 * idx, pfx, value] ++ leBytes 12 ext

/-! ### Who may act (R346) -/

/-- The refusal of a TXN_SET, TXN_COMMIT or TXN_ROLLBACK; `num` is the transaction it names, if it names one. -/
def txnRefusal (s : State) (b : Mailbox) (num : Option Nat) : Option Status :=
  let t := s.mgmt.txn
  if t.st = .idle then some .noTransaction
  else if t.owner ≠ fromSession b then some .notOwner
  else if num.any (fun n => n != t.number) then some .noTransaction
  else if t.st = .pending then some .busyTransaction
  else none

def setTxn (s : State) (t : Txn) : State := { s with mgmt := { s.mgmt with txn := t } }

/-- No transaction; the number stays, so that the next one takes the next number. -/
def dropTxn (s : State) : State := setTxn s { number := s.mgmt.txn.number }

/-- TXN_BEGIN (R346). -/
def execTxnBegin (m : Nat) (s : State) : Out :=
  serve 0x600 (bodyLen 0) noRsv anyState (fun t k b =>
    if t.mgmt.txn.st = .idle then
      let n := (t.mgmt.txn.number + 1) % 2 ^ 32
      replyOk (setTxn t { st := .opened, number := n, owner := fromSession b }) k (words [n])
    else refuse t k .busyTransaction) m s

/-- A staged entry replaces an earlier one for the same ID and INDEX, and keeps its own number (R347). -/
def stageEntry (es : List TxnEntry) (e : TxnEntry) : List TxnEntry :=
  es.filter (fun x => !(x.id == e.id && x.index == e.index)) ++ [e]

/-- TXN_SET: an unknown ID or INDEX refuses the batch (R347). -/
def stageBatch (s : State) (m : Nat) (b : Mailbox) : State :=
  match txnRefusal s b none with
  | some st => refuse s m st
  | none =>
    let t := s.mgmt.txn
    let es := entriesOf b t.count
    match es.find? (fun e => !(knownSetting e.id e.index)) with
    | some e => replyBad s m .badSetting e.num e.id
    | none => replyOk (setTxn s { t with staged := es.foldl stageEntry t.staged, count := t.count + es.length }) m []

/-- TXN_SET (R346, R347). -/
def execTxnSet (m : Nat) (s : State) : Out :=
  serve 0x601 (fun _ b => decide (4 ≤ reqLen b) && decide (reqWord b 0 ≤ 169) && reqLen b == 4 + 24 * reqWord b 0)
    entryRsv anyState stageBatch m s

/-! ### The checks at TXN_COMMIT (R347, R352) -/

/-- A setting as it would stand after the commit. -/
def afterCommit (s : State) (es : List TxnEntry) (id idx : Nat) : Nat :=
  match es.find? (fun e => e.id == id && e.index == idx) with
  | some e => e.value
  | none => setting s id idx

/-- The range of a setting's value (R153, R184, R193, R197, R199, R239, R246, R263, R271, R294, R324, R351). -/
def valueRange (id : Nat) : Nat × Nat :=
  match id with
  | 0x100 => (4, 20) | 0x101 => (10, 60000) | 0x102 => (0, 1) | 0x103 => (0, 1)
  | 0x110 => (1, 50) | 0x111 => (1, 10000)
  | 0x120 => (0, 32768) | 0x121 => (0, 16384) | 0x122 => (1, 65535) | 0x123 => (1, 1440) | 0x124 => (1, 168)
  | 0x130 => (1518, 9216) | 0x131 => (0, 4094) | 0x132 => (0, 7) | 0x133 => (0, 7) | 0x134 => (0, 1)
  | 0x135 => (0, 255) | 0x136 => (1024, 65535)
  | 0x138 => (20, 10000) | 0x139 => (100, 60000) | 0x13A => (1, 100) | 0x13B => (1, 256)
  | 0x140 => (1, 100) | 0x141 => (0, 1000) | 0x142 => (1000, 8000) | 0x143 => (1200, 8000) | 0x144 => (0, 1)
  | 0x145 => (1, 8) | 0x146 => (0, 30) | 0x147 => (1, 1000000)
  | 0x150 => (400, 2000) | 0x151 => (0, 200) | 0x152 => (105, 300) | 0x153 => (105, 300) | 0x154 => (1, 600)
  | 0x160 => (1, 1440) | 0x170 => (0, 0x3FF) | 0x171 => (0, 0xFF) | 0x172 => (0, 1)
  | _ => (0, 0xFFFFFFFF)

/-- SENSOR_TRIM is signed (R351); a prefix is at most 128 bits, and does not matter to a removal (R349). -/
def entryInRange (e : TxnEntry) : Bool :=
  if e.id = 0x155 then decide (-20 ≤ toSigned e.value) && decide (toSigned e.value ≤ 20)
  else if e.id = 0x137 then decide (e.pfx ≤ 128) || (e.value == 0 && e.ext == 0)
  else decide ((valueRange e.id).1 ≤ e.value) && decide (e.value ≤ (valueRange e.id).2)

/-- The settings linked in pairs: the first times its unit may not exceed the second times its own (R193, R271,
R294). -/
def linkedPairs : List ((Nat × Nat) × (Nat × Nat)) :=
  [((0x142, 1), (0x143, 1)), ((0x152, 1), (0x153, 1)), ((0x121, 2), (0x120, 1))]

/-- A linked check is made at the higher-numbered staged entry of its pair (R347). -/
def checkedHere (es : List TxnEntry) (e : TxnEntry) (other oidx : Nat) : Bool :=
  !(es.any (fun x => x.id == other && x.index == oidx && decide (e.num < x.num)))

/-- The linked checks that fall to an entry fail. -/
def pairFails (s : State) (es : List TxnEntry) (e : TxnEntry) : Bool :=
  linkedPairs.any (fun p =>
    (e.id == p.1.1 && checkedHere es e p.2.1 0 || e.id == p.2.1 && checkedHere es e p.1.1 0) &&
    decide (afterCommit s es p.2.1 0 * p.2.2 < afterCommit s es p.1.1 0 * p.1.2))

/-- The panel that a TRACE value claims (R352). -/
def tracePanel (v : Nat) : Option Nat := if v / 256 % 4 = 0 then none else some (v % 256)

/-- A TRACE entry claims a panel that another claims; the check falls to the higher-numbered staged one. -/
def traceFails (s : State) (es : List TxnEntry) (e : TxnEntry) : Bool :=
  e.id == 0x170 && (tracePanel e.value).isSome &&
    (List.range 8).any (fun i => i != e.index && checkedHere es e 0x170 i && tracePanel (afterCommit s es 0x170 i) == tracePanel e.value)

/-- FIXED = 1 needs a variant of FIXED_GRADE for the recipe and recompute state in force (R273). A FIXED_GRADE whose grade is
not available passes, and so does a commit of FIXED_GRADE alone (R273 is silent; DESIGN CHOICE, log entry 36). -/
def fixedFails (s : State) (es : List TxnEntry) (e : TxnEntry) : Bool :=
  e.id == 0x144 && e.value == 1 &&
    (match s.job.pkg with
    | none => false
    | some p => match variantOf p s.shut.variant with
      | none => false
      | some v => !(p.variants.any (fun w => w.grade == afterCommit s es 0x145 0 && w.recipe == v.recipe && w.recompute == v.recompute)))

/-- EXTEST = 1 only in READY and DRAINED (R352). -/
def extestFails (s : State) (e : TxnEntry) : Bool :=
  e.id == 0x172 && e.value == 1 && s.dev.st != .ready && s.dev.st != .drained

/-- The check of one staged entry: status and details (R337, R347). -/
def entryFault (s : State) (es : List TxnEntry) (e : TxnEntry) : Option (Status × Nat × Nat) :=
  if !(entryInRange e) || pairFails s es e then some (.badRange, e.num, e.id)
  else if traceFails s es e then some (.conflict, e.num, 0x100 + e.value % 256)
  else if fixedFails s es e then some (.noVariant, 0, 0)
  else if extestFails s e then some (.wrongState, 0, 0)
  else none

/-- The window of a size meets an LPDDR5X region of the loaded package (R193). -/
def windowMeets (s : State) (bytes : Nat) : Bool :=
  (s.job.pkg.map (fun p => p.regions.any (fun r => r.lpddr && decide (0 < bytes) && decide (0 < r.len) &&
    (List.range channels).any (fun c => decide (channelBytes * (c + 1) - bytes < r.start + r.len) &&
      decide (r.start < channelBytes * (c + 1)))))).getD false

/-- A conflict that no entry causes alone (R337, R352). -/
def wholeFault (s : State) (es : List TxnEntry) : Option (Status × Nat × Nat) :=
  let window := 0x10000 * afterCommit s es 0x120 0
  if windowMeets s window then some (.conflict, 0xFFFFFFFF, 0x200)
  else if window < 0x20000 * afterCommit s es 0x121 0 + 0x800000 then some (.conflict, 0xFFFFFFFF, 0x201)
  else if afterCommit s es 0x171 0 ≠ 0 ∧ afterCommit s es 0x172 0 = 1 then some (.conflict, 0xFFFFFFFF, 0x300)
  else none

/-- The first failing check, in ascending entry number. -/
def commitFault (s : State) (es : List TxnEntry) : Option (Status × Nat × Nat) :=
  match es.findSome? (entryFault s es) with
  | some f => some f
  | none => wholeFault s es

/-- TXN_COMMIT (R346, R348): a commit that passes waits for its commit point, which may be now. -/
def commitTxn (s : State) (m : Nat) (b : Mailbox) : State :=
  match txnRefusal s b (some (reqWord b 0)) with
  | some st => refuse s m st
  | none =>
    let t := s.mgmt.txn
    match commitFault s t.staged with
    | some (st, a, d) => replyBad (dropTxn s) m st a d
    | none =>
      let s1 := waitAt (setTxn s { t with st := .pending, mailbox := m }) m .commit []
      if atCommitPoint s1 then applyCommit s1 else s1

/-- TXN_COMMIT (R346, R348). -/
def execTxnCommit (m : Nat) (s : State) : Out := serve 0x602 (bodyLen 4) noRsv anyState commitTxn m s

/-- TXN_ROLLBACK (R346). -/
def execTxnRollback (m : Nat) (s : State) : Out :=
  serve 0x603 (bodyLen 0) noRsv anyState (fun t k b =>
    match txnRefusal t b none with
    | some st => refuse t k st
    | none => replyOk (dropTxn t) k []) m s

/-- TXN_EXPIRED (R346): 30 s since TXN_BEGIN or the last TXN_SET. -/
def execTxnExpired (s : State) : Out :=
  if s.mgmt.txn.st = .opened then .next (raiseEv (dropTxn s) srcThimble .txnExpired []) else noEvent s

/-! ### Reading settings and calibration (R341, R351) -/

/-- A committed setting as an entry (R347). -/
def settingEntry (s : State) (id idx : Nat) : List Byte :=
  let v := (tabFind s.mgmt.settings (settingKey id idx)).getD { value := settingReset id }
  entryBytes24 id idx v.pfx v.value v.ext

/-- Setting i named by a CONFIG_GET: ID and INDEX. -/
def namedSetting (b : Mailbox) (i : Nat) : Nat × Nat :=
  (fieldOf (reqWord b (4 + 4 * i)) 0 16, fieldOf (reqWord b (4 + 4 * i)) 16 16)

/-- CONFIG_GET (R341). -/
def execConfigGet (m : Nat) (s : State) : Out :=
  serve 0x604 (fun _ b => decide (4 ≤ reqLen b) && decide (reqWord b 0 ≤ 170) && reqLen b == 4 + 4 * reqWord b 0) noRsv
    anyState (fun t k b =>
      let ns := (List.range (reqWord b 0)).map (namedSetting b)
      if ns.all (fun n => knownSetting n.1 n.2) then replyOk t k (ns.flatMap (fun n => settingEntry t n.1 n.2))
      else refuse t k .badSetting) m s

/-- Calibration record i: grades 1 to 8, then the sensors (R351). -/
def calRecord (s : State) (i : Nat) : List Byte :=
  if i < 8 then words [vCal (i + 1), tabGet 0 s.power.vUser (i + 1), vSet s (i + 1)]
  else
    let n := i - 8
    words [(BitVec.ofInt 32 (sensorOffset n)).toNat, setting s 0x155 n, sensorWord s n]

/-- CAL_READ (R351). -/
def execCalRead (m : Nat) (s : State) : Out :=
  serve 0x605 (fun _ b => reqLen b == 8 && decide (reqWord b 4 ≤ 339)) noRsv anyState (fun t k b =>
    let n := min (reqWord b 4) (536 - reqWord b 0)
    replyOk t k (words [reqWord b 0 + n, 0] ++ (List.range n).flatMap (fun i => calRecord t (reqWord b 0 + i)))) m s

end Sys2Proof.Machine
end

