-- ==== Sys2Proof/Machine/Trust.lean ====
section
/-! DEFINITION. Trust and firmware messages: certificates, attestation, owner anchors, images, clear records (R364 to
R380). -/

namespace Sys2Proof.Machine

open Sys2Proof.Config

/-! ### Certificates and attestation (R368, R374, R375) -/

/-- CERT_READ (R368): the length of the chain, then the bytes of a range of it. -/
def execCertRead (m : Nat) (s : State) : Out :=
  serve 0x900 (fun _ b => reqLen b == 8 && decide (reqWord b 4 ≤ 4076)) noRsv anyState (fun t k b =>
    replyOk t k (words [certChain.length] ++ (certChain.drop (reqWord b 0)).take (reqWord b 4))) m s

/-- Every setting, in ascending ID and INDEX (R349, R375). -/
def allSettings : List (Nat × Nat) :=
  (List.range 0x180).flatMap (fun id => match elements id with
    | some (lo, hi) => (List.range (hi - lo)).map (fun i => (id, lo + i))
    | none => [])

/-- CONFIG_DIGEST (R375). -/
def configDigest (s : State) : Nat := sha384 (allSettings.flatMap (fun e => settingEntry s e.1 e.2))

/-- An attestation report before its signature (R374). -/
def reportBytes (s : State) (challenge : List Byte) : List Byte :=
  let img := runningImage s
  words [0x4B574154,
      1 + 256 * identState s.dev.st + 2 ^ 16 * boolNat s.dev.suspect.isSome + 2 ^ 17 * boolNat (s.dev.replace || s.dev.replaceFull) + 2 ^ 18 * boolNat s.dev.service,
      moduleId.toNat / 2 ^ 32, moduleId.toNat % 2 ^ 32,
      (img.map Image.svn).getD 0 + 64 * s.fw.running.getD 0 + 128 * boolNat s.fw.trial + 256 * s.fw.floor, eventStep s]
    ++ challenge ++ beBytes 48 ((img.map Image.digest).getD 0) ++ beBytes 48 ((s.job.pkg.map Package.digest).getD 0)
    ++ beBytes 48 (configDigest s) ++ beBytes 48 ((s.base.map BaseRegion.digest).getD 0) ++ words [s.dev.clearSeq, 0]

/-- ATTEST (R374). -/
def execAttest (m : Nat) (s : State) : Out :=
  serve 0x901 (bodyLen 32) noRsv anyState (fun t k b =>
    let c := reqBytes b 0 32
    if c.all (fun x => x == 0#8) then refuse t k .badChallenge
    else
      let r := reportBytes t c
      replyOk t k (r ++ sign r)) m s

/-! ### Owner anchors (R370) -/

/-- Key i of an OWNER_SET: 49 bytes of 52. -/
def ownerKey (b : Mailbox) (i : Nat) : List Byte := reqBytes b (4 + 52 * i) 49

/-- A padding byte of a key is nonzero. -/
def ownerRsv (b : Mailbox) : Bool :=
  (List.range (reqWord b 0)).any (fun i => (reqBytes b (4 + 52 * i + 49) 3).any (fun x => x != 0#8))

/-- OWNER_SET (R370, R380): a session that came through an anchor, or the provisioning session while the list is
empty. -/
def setOwner (s : State) (m : Nat) (b : Mailbox) : State :=
  let keys := (List.range (reqWord b 0)).map (ownerKey b)
  if b.provisioning = true ∧ s.fw.anchors.isEmpty = false then refuse s m .ownerRequired
  else if 4 < reqWord b 0 then refuse s m .badRange
  else if keys.all validPoint then
    replyOk (raiseEv { s with fw := { s.fw with anchors := keys } } srcThimble .ownerChanged []) m []
  else refuse s m .badCert

/-- OWNER_SET (R370). -/
def execOwnerSet (m : Nat) (s : State) : Out :=
  serve 0x902 (fun _ b => decide (4 ≤ reqLen b) && decide (reqWord b 0 ≤ 78) && reqLen b == 4 + 52 * reqWord b 0) ownerRsv
    anyState setOwner m s

/-! ### Images (R364 to R366, R377, R378) -/

/-- Where the update messages are accepted (R377, R379). -/
def updateState (s : State) : Option Status :=
  if jobLoaded s = true ∨ s.dev.st = .filling then some .busyJob
  else match s.dev.st with
    | .ready | .spare | .drained => none
    | .boot => if runsRecovery s then none else some .wrongState
    | _ => some .wrongState

/-- The length of a load window: LEN (R342). -/
def windowLen (b : Mailbox) : Nat := reqWord b 0 + 2 ^ 32 * fieldOf (reqWord b 4) 0 8

/-- Reserved fields of a BEGIN (R342). -/
def beginRsv (b : Mailbox) : Bool := rsvFrom 4 16 b || reqWord b 12 != 0

/-- A load window opens (R342). -/
def openWindowOf (s : State) (b : Mailbox) (kind start : Nat) : State :=
  { s with load := some { kind := kind, session := fromSession b, len := windowLen b, stream := fieldOf (reqWord b 4) 8 8
                          start := start, digest := beNat (reqBytes b 16 48), got := [], buf := [] } }

/-- FW_BEGIN (R377, R378). -/
def beginFw (s : State) (m : Nat) (b : Mailbox) : State :=
  if s.fw.trial then refuse s m .updatePending
  else if s.load.isSome then refuse s m .busyJob
  else if windowLen b = 0 ∨ 2 ^ 30 < windowLen b then refuse s m .badLength
  else replyOk (openWindowOf s b 2 0) m []

/-- FW_BEGIN (R377). -/
def execFwBegin (m : Nat) (s : State) : Out := serve 0x905 (bodyLen 64) beginRsv updateState beginFw m s

/-- The 256-byte header of an image and its body, from its bytes (R365). -/
def readImage (bs : List Byte) : Image :=
  let len := wordAt bs 8
  { magic := wordAt bs 0, svn := fieldOf (wordAt bs 4) 0 6, key := fieldOf (wordAt bs 4) 8 2, recovery := bitOf (wordAt bs 4) 12
    len := len, release := wordAt bs 12, bodyDigest := beNat ((bs.drop 16).take 48), pubkey := (bs.drop 0x40).take 49
    signature := (bs.drop 0x74).take 96, signed := bs.take 0x74, digest := sha384 (bs.take len)
    bodyOk := decide (256 ≤ len) && decide (len ≤ bs.length) && sha384 ((bs.take len).drop 256) == beNat ((bs.drop 16).take 48) }

/-- The check of R366 that an image fails first, as FW_COMMIT reports it (R377). -/
def imageFault (f : Firmware) (i : Image) : Option Status :=
  if i.magic ≠ 0x4B574657 then some .badImage
  else if sha384 i.pubkey ≠ romKey i.key ∨ f.revoked.contains i.key = true then some .keyRevoked
  else if i.svn < f.floor then some .imageRollback
  else if verify i.pubkey i.signed i.signature && i.bodyOk then none
  else some .badImage

/-- The inactive slot takes an image. -/
def putInactive (f : Firmware) (i : Image) : Firmware :=
  if f.active = 0 then { f with slotB := some i } else { f with slotA := some i }

/-- FW_COMMIT (R343, R366, R377). -/
def commitFw (s : State) (m : Nat) (_ : Mailbox) : State :=
  match s.load with
  | none => refuse s m .wrongState
  | some w =>
    if w.kind ≠ 2 then refuse s m .wrongState
    else
      let s1 := closeWindow s
      let bs := memBytes w.buf 0 w.len
      let i := readImage bs
      if coversTo w.got w.len = false then refuse s1 m .badLength
      else if sha384 bs ≠ w.digest then refuse s1 m .digestMismatch
      else match imageFault s.fw i with
        | some st => refuse s1 m st
        | none =>
          if i.recovery then refuse s1 m .badImage
          else replyOk { s1 with fw := { putInactive s1.fw i with committed := true } } m []

/-- FW_COMMIT (R377). -/
def execFwCommit (m : Nat) (s : State) : Out := serve 0x906 (bodyLen 0) noRsv updateState commitFw m s

/-- FW_ACTIVATE (R377): the new image runs from the next reset or power cycle. -/
def execFwActivate (m : Nat) (s : State) : Out :=
  serve 0x907 (bodyLen 0) noRsv updateState (fun t k _ =>
    if t.fw.committed then
      let f := { t.fw with active := 1 - t.fw.active, trial := true, committed := false }
      replyOk (raiseEv { t with fw := f } srcThimble .fwActivated []) k []
    else refuse t k .wrongState) m s

/-- FW_CONFIRM (R378): TRIAL clear, fuses burned until F equals the running SVN. -/
def execFwConfirm (m : Nat) (s : State) : Out :=
  serve 0x908 (bodyLen 0) noRsv anyState (fun t k _ =>
    if t.fw.trial then
      let f := { t.fw with trial := false, floor := max t.fw.floor (((runningImage t).map Image.svn).getD 0) }
      replyOk (raiseEv { t with fw := f } srcThimble .fwConfirmed []) k []
    else refuse t k .notTrial) m s

/-- The header of a slot's image; an absent image reads zero (R365). -/
def headerBytes : Option Image → List Byte
  | none => List.replicate 256 0#8
  | some i => padTo 256 (padTo 0x74 i.signed ++ padTo 96 i.signature)

/-- FW_STATUS (R380): both headers, the selector, TRIAL, F. -/
def execFwStatus (m : Nat) (s : State) : Out :=
  serve 0x909 (bodyLen 0) noRsv anyState (fun t k _ =>
    replyOk t k (headerBytes t.fw.slotA ++ headerBytes t.fw.slotB ++ words [t.fw.active, boolNat t.fw.trial, t.fw.floor])) m s

/-! ### Clear records (R376) -/

/-- A clear record before its signature (R376). -/
def clearBytes (r : ClearRec) : List Byte :=
  words [0x4B57434C, r.kind + 4 * boolNat r.clearOk + 8 * boolNat r.scanOk + 16 * boolNat r.retained, r.seq,
      r.cause + 65536 * r.scanFirst, moduleId.toNat / 2 ^ 32, moduleId.toNat % 2 ^ 32]
    ++ leBytes 8 r.energy ++ beBytes 48 r.pkgDigest ++ beBytes 48 r.baseDigest

def clearRecord (r : ClearRec) : List Byte := clearBytes r ++ sign (clearBytes r)

/-- CLEAR_RECORD_READ (R376): a cursor is a CLEAR_SEQ; one before the oldest record held reads from the oldest. -/
def readClears (s : State) (m : Nat) (b : Mailbox) : State :=
  let rs := (s.dev.clears.filter (fun r => decide (reqWord b 0 ≤ r.seq))).take (reqWord b 4)
  let next := match rs.getLast? with | some r => r.seq + 1 | none => reqWord b 0
  replyOk s m (words [next, 0] ++ rs.flatMap clearRecord)

/-- CLEAR_RECORD_READ (R376). -/
def execClearRecordRead (m : Nat) (s : State) : Out :=
  serve 0x90A (fun _ b => reqLen b == 8 && decide (reqWord b 4 ≤ 18)) noRsv anyState readClears m s

end Sys2Proof.Machine
end

