-- ==== Sys2Proof/Machine/Load.lean ====
section
/-! DEFINITION. Loads: the windows of a job package and of a base region, their commits, admission and the start
of the job (R18, R19, R21, R179, R187, R226, R315, R324, R342, R343). -/

namespace Sys2Proof.Machine

open Sys2Proof.Config

/-! ### Where loads are accepted (R19, R324, R328, R332, R341) -/

/-- A device with the replacement flag refuses every load, FILL, SPARE and UNDRAIN (R328). -/
def flagged (s : State) : Bool := (s.dev.replace || s.dev.replaceFull) && s.dev.st == .drained

/-- A JOB_LOAD_COMMIT waits for fitting (R226, R335). -/
def loadWaits (s : State) : Bool := !(boxesAt s .fitting).isEmpty

/-- JOB_LOAD messages: READY and FILLING; BUSY_JOB while a job is loaded, running or being cleared (R19). -/
def jobLoadState (s : State) : Option Status :=
  if flagged s then some .replaceFlagged
  else match s.dev.st with
    | .ready => none
    | .running => some .busyJob
    | .filling => if jobLoaded s = true ∨ s.dev.work ≠ .none then some .busyJob else none
    | _ => some .wrongState

/-- BASE_LOAD messages: READY; a load during the between-job clearing and pass is refused with BUSY_JOB (R324). -/
def baseLoadState (s : State) : Option Status :=
  if flagged s then some .replaceFlagged
  else match s.dev.st with
    | .ready => none
    | .running => if jobLoaded s then some .wrongState else some .busyJob
    | _ => some .wrongState

/-- A SELF_TEST or cadence pass gives way to a load or a FILL, and is repeated after the job (R315, R324). -/
def stopScan (s : State) : State :=
  match s.dev.work with
  | .selfScan | .spareScan => { s with dev := { s.dev with work := .none, scanDue := true } }
  | _ => s

/-! ### BEGIN (R342) -/

/-- JOB_LOAD_BEGIN (R342): at most the total of the snapshot shares. -/
def beginJobLoad (s : State) (m : Nat) (b : Mailbox) : State :=
  if s.load.isSome || loadWaits s then refuse s m .busyJob
  else if windowLen b = 0 ∨ channels * snapShareBytes s < windowLen b then refuse s m .badLength
  else replyOk (stopScan (openWindowOf s b 0 0)) m []

/-- JOB_LOAD_BEGIN (R342). -/
def execJobLoadBegin (m : Nat) (s : State) : Out :=
  serve 0x100 (bodyLen 64) beginRsv jobLoadState beginJobLoad m s

/-- START of a base load: address bits [39:8] (R342). -/
def baseStart (b : Mailbox) : Nat := 256 * reqWord b 8

/-- BASE_LOAD_BEGIN (R342): inside the usable LPDDR5X and outside the staging window. -/
def beginBaseLoad (s : State) (m : Nat) (b : Mailbox) : State :=
  if s.load.isSome || loadWaits s then refuse s m .busyJob
  else if baseStart b % 0x10000 ≠ 0 then refuse s m .badRange
  else if windowLen b = 0 ∨ lpddrEnd < baseStart b + windowLen b ∨ meetsStaging s (baseStart b) (windowLen b) = true then
    refuse s m .badLength
  else replyOk (stopScan (openWindowOf s b 1 (baseStart b))) m []

/-- BASE_LOAD_BEGIN (R342). -/
def execBaseLoadBegin (m : Nat) (s : State) : Out := serve 0x108 (bodyLen 64) beginRsv baseLoadState beginBaseLoad m s

/-! ### BASE_LOAD_COMMIT (R21, R343) -/

/-- The bytes are checked and the region becomes resident (R343). -/
def commitBase (s : State) (m : Nat) (_ : Mailbox) : State :=
  match s.load with
  | none => refuse s m .wrongState
  | some w =>
    if w.kind ≠ 1 then refuse s m .wrongState
    else if coversTo w.got w.len = false then refuse (closeWindow s) m .badLength
    else
      let r := readBytes (closeWindow s) w.start w.len
      if sha384 r.1 ≠ w.digest then refuse r.2 m .digestMismatch
      else replyOk { r.2 with base := some ⟨w.start, w.len, w.digest⟩ } m []

/-- BASE_LOAD_COMMIT (R343). -/
def execBaseLoadCommit (m : Nat) (s : State) : Out := serve 0x109 (bodyLen 0) noRsv baseLoadState commitBase m s

/-! ### Admission (R226) -/

/-- The plan's entry for a port. -/
def planPort (p : Package) (q : Nat) : PlanPort := p.plan.ports.getD q ⟨0, 0, 0, 0, 0⟩

/-- A port that matches its entry (R226): MEMBER 0xF0 marks the frame of a switch plane (R222). -/
def portMatches (p : Package) (e : PlanPort) (v : SeamPort) : Bool :=
  v.st == .fitted && v.far.any (fun f =>
    f.port == e.farPort && f.moduleId == e.peerId && sha384 f.pubkey == e.keyHash
      && (f.member == 0xF0 || f.jobTag == 0 || f.jobTag == p.plan.jobId))

/-- The required ports that do not match. -/
def unmatched (s : State) (p : Package) : List Nat :=
  allPorts.filter (fun q => (planPort p q).use == 1 && !(portMatches p (planPort p q) (portOf s q)))

/-- Ports as a 12-bit mask. -/
def portMask (qs : List Nat) : Nat := (qs.map (fun q => 2 ^ q)).sum

/-- A port at admission: bound, a STRANGER, or as it was (R223, R226). -/
def admitPort (p : Package) (s : State) (q : Nat) : State :=
  let e := planPort p q
  if (e.use = 1 ∨ e.use = 2) ∧ portMatches p e (portOf s q) = true then
    modPort s q (fun v => { v with st := .member, peerRank := some e.peerRank })
  else if (portOf s q).st = .fitted then
    raiseEv (modPort s q (fun v => { v with st := .stranger })) (srcPort q) .stranger []
  else s

/-- t_fit has passed since start-up (R224, R226). -/
def fitPassed (s : State) : Bool := s.pins.upAt.any (fun t => decide (t + 5000000 ≤ s.nowUs))

/-- The load waits for fitting. -/
def mustFit (s : State) : Bool := allPorts.any (fun q => (portOf s q).st == .training) && !(fitPassed s)

/-! ### The start of the job (R18, R179, R187, R262, R343, R359) -/

/-- A range is written with zero lines, check bytes included. -/
def zeroRange (s : State) (a n : Nat) : State :=
  let out := fun (l : Nat) => decide (64 * l + 64 ≤ a) || decide (a + n ≤ 64 * l)
  { s with mem := memErase s.mem a n
           health := { s.health with errors := s.health.errors.filter (fun e => out e.1)
                                     poison := s.health.poison.filter out } }

/-- The stitches that the slice of panel q stores (R165, R187). -/
def stitchStore (bs : List Byte) (q : Nat) : List Byte :=
  let st := packEntries 128 (sectBytes bs (sectOf (readDirectory bs) 1))
  ((List.range (ceilDiv st.length panels)).map (fun i => st.getD (panels * i + q) [])).flatten

/-- The system area of a slice (R187): descriptor copies, needle program, chain table, chalk tables, pattern store, the
rest zero. -/
def writeSlice (bs : List Byte) (s : State) (q : Nat) : State :=
  let sec := fun (t : Nat) => sectBytes bs (sectOf (readDirectory bs) t)
  let a := boltBase + sliceBytes * q
  let put := fun (t : State) (e : Nat × List Byte) => rawWrite t (a + e.1) e.2
  [(0, sec 3), (0x100000, sec 5), (0x108000, sec 4), (0x109000, sec 6), (0x120000, stitchStore bs q)].foldl put
    (zeroRange s a (systemArea (readHeader bs).nstitch))

/-- The system areas of every slice are written (R187). -/
def writeSystem (s : State) (bs : List Byte) : State := allPanels.foldl (writeSlice bs) s

/-- What a panel holds as a job begins: nothing of another job, its counters zero (R91, R92, R117, R132). -/
def freshPanel (p : Panel) : Panel := { trace := p.trace }

/-- Counters of a memory unit at JOB_BEGIN (R91, R203). -/
def freshUnit (u : MemUnit) : MemUnit :=
  { u with corrected := 0, symbols := 0, uncorrectable := 0, scrubPasses := 0, retrains := 0, ceRate := false }

/-- Counters and correction of the power chapter at JOB_BEGIN (R267, R278). -/
def freshPower (w : Power) : Power :=
  { w with ratios := [], kE := 1, toldLow := false, pinches := 0, deferrals := 0, capWindows := 0, rampWindows := 0
           taken := 0, refusedN := 0, fixedExit := false, capUnmet := false, deferred := false }

/-- COUNTER_READs that wait for a mark of the numbering that ends (R359). -/
def staleReads (s : State) : State :=
  (s.mgmt.boxes.filter (fun e => match e.2.waits with | some (.mark _) => true | _ => false)).foldl
    (fun t e => refuse t e.1 .staleMark) s

/-- The variant a job starts with: recipe 0, without recompute, at the grade Apgiosh chooses (R179, R273); where none of
these has an available grade, the lowest of the package that has one (R263; DESIGN CHOICE, log entry 36). -/
def startVariant (s : State) (p : Package) : Nat :=
  let fixed := setting s 0x144 0 == 1 && (s.power.fixedNew || s.power.fixedGrade != 0)
  let t := modPower s (fun w => { w with fixedGrade := if fixed then setting s 0x145 0 else 0, stay := none })
  match selectFrom t (compiled t p 0 false) with
  | some e => e.1
  | none => ((lowestOf (available t p)).map Prod.fst).getD 0

/-- The records of the overflow regions take their Reset values, each region once (R109, R110), but for those in write-protected
regions, which no row of the job reaches (R21, R134). -/
def freshOverflow (s : State) (p : Package) : State :=
  let rs := (p.descs.filterMap (fun d => match d with
    | .row r => if r.ovfLen = 0 then none else some r
    | _ => none)).flatMap (fun r => allPanels.map (fun q => (resolveAddr q (256 * r.ovfBase), r.ovfLen / 32)))
  let shut := fun (a : Nat) => inBase s a || p.regions.any (fun r => r.frozen && regionHas p r a)
  (rs.eraseDups.flatMap (fun e => (List.range e.2).map (fun i => e.1 + 32 * i))).foldl (fun t a =>
    if shut a then t else rawWrite t a (rowBytes {})) s

/-- The job begins, held at grade point 0 (R109, R179, R262, R343, R359). -/
def startJob (s : State) (p : Package) (bs : List Byte) : State :=
  let s1 := staleReads (if p.baseDigest.isNone then dropBase s else s)
  let s2 := freshOverflow (writeSystem s1 bs) p
  let i := startVariant { s2 with power := freshPower s2.power } p
  let a := ((variantOf p i).bind (fun v => v.points.getD 0 none)).getD 0
  let s3 := { s2 with
    job := { pkg := some p, held := true, counting := true }
    panels := s2.panels.map (fun e => (e.1, freshPanel e.2))
    hubs := s2.hubs.map (fun e => (e.1, { pinched := e.2.pinched, pinchTimes := e.2.pinchTimes }))
    fence := {}
    coll := {}
    shut := { variant := i, selection := i, addr := a, saved := { variant := i, addr := a } }
    ports := s2.ports.map (fun e => (e.1, { e.2 with stat := {} }))
    health := { s2.health with units := s2.health.units.map (fun e => (e.1, freshUnit e.2)) }
    power := freshPower s2.power
    mgmt := { s2.mgmt with markNext := 1, marks := [] }
    snap := { s2.snap with blocks := s2.snap.blocks.map (fun b => { b with mark := none }) } }
  let s4 := raiseEv s3 srcThimble .jobBegin []
  if s4.dev.st = .ready then goState s4 .running else s4

/-! ### JOB_LOAD_COMMIT (R226, R343) -/

/-- The bytes of the package in the snapshot shares, in channel order, as the decoder delivers them (R342). -/
def packageBytes (s : State) (len : Nat) : List Byte :=
  let v := viewMem s
  (List.range len).map (fun i => memGet v (snapShareAddr s i))

/-- What reading the package does. -/
def packageTouch (s : State) (len : Nat) : State :=
  let n := max (snapShareBytes s) 1
  (List.range channels).foldl (fun t c =>
    if n * c < len then touchRange t (snapShareAddr s (n * c)) (min n (len - n * c)) else t) s

/-- Admission, or the wait for fitting (R226). -/
def admitJob (s : State) (m len digest : Nat) (p : Package) (bs : List Byte) : State :=
  if mustFit s then waitAt s m .fitting [len, digest]
  else
    let bad := unmatched s p
    if bad.isEmpty then
      let s1 := allPorts.foldl (admitPort p) (startJob (stopScan s) p bs)
      replyOk s1 m (words [portMask (allPorts.filter (fun q => (portOf s1 q).st == .stranger))])
    else replyBad s m .fabricMismatch (portMask bad) 0

/-- The digest, the checks of the package, then admission (R343). -/
def checkPackage (s : State) (m len digest : Nat) : State :=
  let bs := packageBytes s len
  let s1 := packageTouch s len
  if sha384 bs ≠ digest then refuse s1 m .digestMismatch
  else match packageFail s1 bs with
    | some f => replyBad s1 m f.st f.typ f.idx
    | none => admitJob s1 m len digest (readPackage bs) bs

/-- JOB_LOAD_COMMIT (R343): the window closes. -/
def commitJobLoad (s : State) (m : Nat) (_ : Mailbox) : State :=
  match s.load with
  | none => refuse s m .wrongState
  | some w =>
    if w.kind ≠ 0 then refuse s m .wrongState
    else if coversTo w.got w.len = false then refuse (closeWindow s) m .badLength
    else checkPackage (closeWindow s) m w.len w.digest

/-- JOB_LOAD_COMMIT (R343). -/
def execJobLoadCommit (m : Nat) (s : State) : Out := serve 0x101 (bodyLen 0) noRsv jobLoadState commitJobLoad m s

/-- A load that waited for fitting goes on (R226, R335). -/
def retryLoad (s : State) : State :=
  match boxesAt s .fitting with
  | [] => s
  | m :: _ =>
    if mustFit s then s
    else match jobLoadState s with
      | some st => refuse s m st
      | none => checkPackage s m ((boxOf s m).note.getD 0 0) ((boxOf s m).note.getD 1 0)

/-- POWER_WINDOW (R261, R262, R268); t_fit may pass in it (R226). -/
def execPowerWindow (p pCore vIn vCore : Nat) (s : State) : Out :=
  outThen (powerWindow p pCore vIn vCore s) (fun t => .next (retryLoad t))

/-- Step 7 of R383 ends when no port is left in TRAINING. -/
def endTraining (s : State) : State :=
  if s.pins.startup == 7 && allPorts.all (fun q => (portOf s q).st != .training) then
    { s with pins := { s.pins with startup := 8, trainedAt := some s.nowUs } }
  else s

/-- LINK_TRAINING (R218, R223, R383): the outcome of an attempt on a port that is training or retraining. -/
def execLinkTraining (port : Nat) (r : TrainOutcome) (nonce : Nat) (s : State) : Out :=
  if inTraining (portOf s port) then .next (retryLoad (endTraining (trainPort s port r nonce))) else noEvent s

end Sys2Proof.Machine
end

