-- ==== Sys2Proof/Machine/Device.lean ====
section
/-! DEFINITION. Messages that move the device between its states, the drain that ends in DRAINED, and the fault
injection and retrain requests (R208, R223, R315, R324, R326 to R332). -/

namespace Sys2Proof.Machine

open Sys2Proof.Config

/-! ### Windows and waits that a state ends (R341, R342) -/

/-- A load window that the next state does not accept closes (log entry 33). -/
def closeKinds (s : State) (ks : List Nat) : State :=
  if s.load.any (fun w => ks.contains w.kind) then closeWindow s else s

/-- A load that waits for fitting ends, since the state no longer accepts it. -/
def endWait (s : State) : State := abortAt s .fitting .wrongState

/-! ### SPARE and SPARE_EXIT (R331) -/

/-- READY with a base region resident; a flagged device refuses (R328). -/
def spareState (s : State) : Option Status :=
  if flagged s then some .replaceFlagged
  else if s.dev.st = .ready ∧ s.base.isSome = true then none else some .wrongState

/-- SPARE (R331). -/
def execSpare (m : Nat) (s : State) : Out :=
  serve 0x400 (bodyLen 0) noRsv spareState (fun t k _ =>
    replyOk (goState (endWait (closeKinds t [0, 1])) .spare) k []) m s

/-- SPARE_EXIT (R331). -/
def execSpareExit (m : Nat) (s : State) : Out :=
  serve 0x401 (bodyLen 0) noRsv (inStates [.spare]) (fun t k _ =>
    replyOk (goState (closeKinds t []) .ready) k []) m s

/-! ### FILL (R315, R317) -/

/-- Where FILL is accepted, in the order of R315; DRAINING under R332. -/
def fillState (s : State) : Option Status :=
  if flagged s then some .replaceFlagged
  else match s.dev.st with
    | .filling => some .busyFill
    | .ready | .spare => none
    | .draining => some .wrongState
    | _ => some .notSpare

/-- FILL (R315): the rank, NRANKS and the expected base digest. -/
def startFill (s : State) (m : Nat) (b : Mailbox) : State :=
  let rank := reqWord b 0
  let nranks := reqWord b 4
  let d := beNat (reqBytes b 8 48)
  if 72 < nranks ∨ nranks ≤ rank then refuse s m .badRange
  else if s.base.map BaseRegion.digest ≠ some d then refuse s m .baseMismatch
  else
    let t := goState (stopScan (closeKinds s [1, 2])) .filling
    replyOk { t with snap := { t.snap with filling := some (rank, nranks, d) } } m []

/-- FILL (R315). -/
def execFill (m : Nat) (s : State) : Out :=
  serve 0x402 (bodyLen 56) (fun b => rsvFrom 0 8 b || rsvFrom 4 8 b) fillState startFill m s

/-! ### DRAIN and UNDRAIN (R328) -/

/-- DRAIN drains a device that is not suspect (R328, R331). -/
def drainState (s : State) : Option Status :=
  if s.dev.suspect.isSome then some .wrongState else inStates [.ready, .running, .spare] s

/-- DRAIN (R328): code 8, and the replacement flag if REPLACE is set; the drain begins once no case is held. -/
def askDrain (s : State) (m : Nat) (b : Mailbox) : State :=
  let r := match s.dev.drain with | some r => r | none => (8, 0xFFFF, eventStep s, 0xFFFFFFFF, jobTag s)
  drainIfDue { replyOk s m [] with
    dev := { (replyOk s m []).dev with drain := some r, drainReplace := s.dev.drainReplace || bitOf (reqWord b 0) 0 } }

/-- DRAIN (R328). -/
def execDrain (m : Nat) (s : State) : Out := serve 0x403 (bodyLen 4) (rsvFrom 0 1) drainState askDrain m s

/-- UNDRAIN in DRAINED, without the replacement flag (R328). -/
def undrainState (s : State) : Option Status :=
  if flagged s then some .replaceFlagged else inStates [.drained] s

/-- UNDRAIN (R328): READY after a scan pass that passes. -/
def execUndrain (m : Nat) (s : State) : Out :=
  serve 0x404 (bodyLen 0) noRsv undrainState (fun t k _ =>
    replyOk { t with dev := { t.dev with work := .undrainScan } } k []) m s

/-! ### SELF_TEST (R324) -/

/-- SELF_TEST (R324): a full pass; a pass already under way serves. -/
def startSelfTest (s : State) (m : Nat) (_ : Mailbox) : State :=
  replyOk (if s.dev.work = .undrainScan then s else { s with dev := { s.dev with work := .selfScan } }) m []

/-- SELF_TEST (R324). -/
def execSelfTest (m : Nat) (s : State) : Out :=
  serve 0x405 (bodyLen 0) noRsv (inStates [.ready, .spare, .drained]) startSelfTest m s

/-- SPARE_SCAN (R324, R332): the cadence is due in SPARE; during another pass it restarts. -/
def execSpareScan (s : State) : Out :=
  if s.dev.st = .spare then
    .next (if s.dev.work = .none then { s with dev := { s.dev with work := .spareScan } } else s)
  else noEvent s

/-! ### HIBERNATE and WAKE (R204, R331, R382) -/

/-- Bolt memory loses its contents (R204, R324): every byte reads 0 (log entry 1). -/
def boltLost (s : State) : State :=
  { s with
    mem := memErase s.mem boltBase (panels * sliceBytes)
    health := { s.health with errors := s.health.errors.filter (fun e => decide (64 * e.1 < boltBase))
                              poison := s.health.poison.filter (fun l => decide (64 * l < boltBase)) } }

/-- HIBERNATE (R331, R382): LPDDR5X in self refresh, bolt lost and VSRAM off, the seam ports down; VSER stays for E0 and
E1. -/
def hibernate (s : State) (m : Nat) (_ : Mailbox) : State :=
  let t := boltLost (endWait (closeKinds s [0, 1, 2]))
  let u := { t with
    dev := { t.dev with work := .none, hibSpare := t.dev.st == .spare }
    health := { t.health with selfRefresh := true, scrubbing := false }
    ports := t.ports.map (fun e => (e.1, { stat := e.2.stat }))
    power := { t.power with grade := 1, vset := vSet t 1, switching := none, stay := none }
    pins := { t.pins with rails := t.pins.rails.filter (fun r => r != .vsram), lowPower := true } }
  replyOk (goState u .hibernate) m []

/-- HIBERNATE (R331). -/
def execHibernate (m : Nat) (s : State) : Out :=
  serve 0x406 (bodyLen 0) noRsv (inStates [.ready, .spare]) hibernate m s

/-- WAKE (R291, R331): the bolt self-test comes next, then training and fitting; the slope of T_j starts anew. -/
def execWake (m : Nat) (s : State) : Out :=
  serve 0x407 (bodyLen 0) noRsv (inStates [.hibernate]) (fun t k _ =>
    replyOk (if t.health.selfRefresh then
        { t with health := { t.health with selfRefresh := false }, pins := { t.pins with
                   startup := 6, upAt := none, trainedAt := none, lowPower := false
                   rails := t.pins.rails ++ (if t.pins.rails.contains .vsram then [] else [.vsram]) }
                 therm := { t.therm with history := [] } }
      else t) k []) m s

/-! ### MEM_INJECT (R208) -/

/-- MEM_INJECT outside READY is refused with BUSY_JOB (R208). -/
def injectState (s : State) : Option Status := if s.dev.st = .ready then none else some .busyJob

/-- The line of a unit (R186, R188). -/
def unitLine (bolt : Bool) (u line : Nat) : Nat :=
  (if bolt then boltBase + sliceBytes * u else channelBytes * u) / 64 + line

def unitLines (bolt : Bool) : Nat := (if bolt then sliceBytes else channelBytes) / 64

/-- The XOR pattern of a MEM_INJECT as byte positions of a codeword: data bytes at 0 to 63, check bytes from 64;
none where a byte of it falls outside (R194, R208). -/
def injectPattern (check : Bool) (off : Nat) (bs : List Byte) : Option (List (Nat × Byte)) :=
  let ps := (bs.zipIdx).filterMap (fun e => if e.1 = 0#8 then none else some (off + e.2, e.1))
  if ps.all (fun e => decide (e.1 < (if check then 8 else 64))) then
    some (ps.map (fun e => (if check then 64 + e.1 else e.1, e.2)))
  else none

/-- MEM_INJECT (R208): the pattern is applied to the stored codeword. An absent unit or line and a byte outside the
codeword are answered with BAD_RANGE, for which R208 names no status (DESIGN CHOICE, log entry 75). -/
def injectError (s : State) (m : Nat) (b : Mailbox) : State :=
  let bolt := !(bitOf (reqWord b 0) 8)
  let u := fieldOf (reqWord b 0) 0 8
  if (if bolt then panels else channels) ≤ u ∨ unitLines bolt ≤ reqWord b 4 then refuse s m .badRange
  else match injectPattern (bitOf (reqWord b 0) 9) (reqWord b 8) (reqBytes b 12 8) with
    | none => refuse s m .badRange
    | some pat =>
      let l := unitLine bolt u (reqWord b 4)
      let p := patXor (tabGet [] s.health.errors l) pat
      replyOk { s with health := { s.health with
        errors := if p.isEmpty then tabErase s.health.errors l else tabPut s.health.errors l p } } m []

/-- MEM_INJECT (R208). -/
def execMemInject (m : Nat) (s : State) : Out :=
  serve 0x800 (bodyLen 20) (fun b => rsvFrom 0 10 b || rsvFrom 8 6 b) injectState injectError m s

/-! ### PORT_RETRAIN (R223) -/

/-- A port at the start of training: nothing of its last link (R214 to R223). -/
def untrained (p : SeamPort) : SeamPort := { st := .training, stat := p.stat }

/-- PORT_RETRAIN (R223): DOWN to TRAINING. -/
def execPortRetrain (m : Nat) (s : State) : Out :=
  serve 0x801 (bodyLen 4) noRsv anyState (fun t k b =>
    if 12 ≤ reqWord b 0 then refuse t k .badRange
    else if (portOf t (reqWord b 0)).st = .down then replyOk (modPort t (reqWord b 0) untrained) k []
    else refuse t k .wrongState) m s

/-! ### An access outside the customer interface (R3) -/

/-- REGISTER_ACCESS (R3): logged as an event of the source that the access reached. -/
def execRegisterAccess (source : Nat) (s : State) : Out := .next (raiseEv s source .registerAccess [])

end Sys2Proof.Machine
end

