-- ==== Sys2Proof/Machine/FlowMsgs.lean ====
section
/-! DEFINITION. Messages of flows and sessions (R242 to R244, R256, R373). -/

namespace Sys2Proof.Machine

open Sys2Proof.Config

/-! ### FLOW_OPEN (R242, R243) -/

/-- The body of a FLOW_OPEN, a word each but the 16 bytes of the far address (log entry 32). -/
structure OpenReq where
  kind : Nat
  port : Nat
  payload : Nat
  enc : Nat
  farFlow : Nat
  stream : Nat
  farAddr : Nat
deriving DecidableEq, Repr

def openReq (b : Mailbox) : OpenReq :=
  { kind := reqWord b 0, port := reqWord b 4, payload := reqWord b 8, enc := reqWord b 12, farFlow := reqWord b 32
    stream := reqWord b 36, farAddr := leNat (reqBytes b 16 16) }

/-- Kinds by number: 1 DATASET, 2 EMIT, 3 SNAPSHOT. -/
def kindOf (n : Nat) : FlowKind := if n = 1 then .dataset else if n = 2 then .emit else .snapshot

/-- PAYLOAD of a flow: the largest power of two from 512 that the MTU holds and the request allows (R242). -/
def flowPayload (s : State) (r : OpenReq) : Nat :=
  ([8192, 4096, 2048, 1024].filter (fun p => decide (p ≤ payloadOf s r.port) && decide (p ≤ r.payload))).headD 512

/-- A field out of its range; a flow for a load window only on the window's stream (R243). -/
def openRange (s : State) (r : OpenReq) : Bool :=
  decide (1 ≤ r.kind) && decide (r.kind ≤ 3) && decide (r.port ≤ 1) && decide (512 ≤ r.payload) && decide (r.enc ≤ 1)
    && decide (r.farFlow < flowContexts) && decide (r.stream ≤ 255) && s.load.all (fun w => w.stream == r.stream)

/-- The far address of a flow (R243): the request's for a kind that sends, else the session's (log entry 32). -/
def flowAddr (s : State) (b : Mailbox) (r : OpenReq) : Nat :=
  if r.kind = 1 then
    match (tabFind s.host.sessions (fromSession b)).bind (fun w => flowOf s w.ctrl) with
    | some v => v.farAddr
    | none => r.farAddr
  else r.farAddr

/-- Flows of a session, and flows that share a stream. -/
def sessionFlows (s : State) (sid : Nat) : Nat := (s.host.flows.filter (fun e => e.2.session == sid)).length
def streamFlows (s : State) (k : FlowKind) (stream : Nat) : Nat :=
  (s.host.flows.filter (fun e => e.2.kind == k && e.2.stream == stream)).length

/-- A job flow may be opened: a job is loaded, or a load window is open and the flow is a DATASET flow (R243). -/
def mayOpen (s : State) (r : OpenReq) : Bool := jobLoaded s || (s.load.isSome && r.kind == 1)

/-- FLOW_OPEN (R243, R244). -/
def openFlow (s : State) (m : Nat) (b : Mailbox) : State :=
  let r := openReq b
  let sid := fromSession b
  if mayOpen s r = false then refuse s m .noJob
  else if openRange s r = false then refuse s m .badRange
  else if 16384 ≤ sessionFlows s sid ∨ (r.kind ≠ 3 ∧ 64 ≤ streamFlows s (kindOf r.kind) r.stream) then refuse s m .noFlowContext
  else match freeContext s with
    | none => refuse s m .noFlowContext
    | some f =>
      let pay := flowPayload s r
      let v := newFlow s (kindOf r.kind) r.port sid pay r.stream r.farFlow (flowAddr s b r) (r.enc == 1) (!(jobLoaded s))
      pumpSnap (pumpEmits (replyOk (setFlow s f v) m (words [f, pay])))

/-- FLOW_OPEN (R243). -/
def execFlowOpen (m : Nat) (s : State) : Out := serve 0x200 (bodyLen 40) noRsv anyState openFlow m s

/-! ### FLOW_CLOSE and FLOW_STATUS (R244, R256) -/

/-- A flow that the session holds. -/
def ownFlow (s : State) (b : Mailbox) (f : Nat) : Option Flow :=
  (flowOf s f).bind (fun v => if v.session = fromSession b then some v else none)

/-- FLOW_CLOSE (R244): a flow with packets outstanding sends until they are acknowledged, and one with packets
held stays until they have taken effect (R245). The CTRL flow ends with its
session only. -/
def closeReq (s : State) (m : Nat) (b : Mailbox) : State :=
  let f := reqWord b 0
  match ownFlow s b f with
  | none => refuse s m .noFlowContext
  | some v =>
    if v.kind = .ctrl then refuse s m .badRange
    else
      let s1 := match v.st with
        | .failed => endFlow s f
        | .closing => s
        | .opened => closeIfDone (setFlow s f { v with st := .closing, reason := .asked }) f
      replyOk (tryEndJob (pumpSnap (pumpEmits s1))) m []

/-- FLOW_CLOSE (R244). -/
def execFlowClose (m : Nat) (s : State) : Out := serve 0x201 (bodyLen 4) noRsv anyState closeReq m s

/-- Flow states and kinds as numbers. -/
def flowStCode : FlowSt → Nat
  | .opened => 1 | .closing => 2 | .failed => 3
def kindCode : FlowKind → Nat
  | .ctrl => 0 | .dataset => 1 | .emit => 2 | .snapshot => 3

/-- FLOW_STATUS (R256): the flow's state, its counts, R in bytes/s, α as F32 (R353). -/
def execFlowStatus (m : Nat) (s : State) : Out :=
  serve 0x202 (bodyLen 4) noRsv anyState (fun t k b =>
    match ownFlow t b (reqWord b 0) with
    | none => refuse t k .noFlowContext
    | some v =>
      replyOk t k (words ([flowStCode v.st, kindCode v.kind, v.port, v.payload, v.stream, v.farFlow]
        ++ (List.range 5).map (fun i => v.counts.getD i 0)) ++ leBytes 8 v.rate.floor.toNat ++ leBytes 4 (f32OfRat v.alpha).toNat)) m s

/-! ### Sessions (R373) -/

/-- KEY_UPDATE (R373, R381): one epoch on; a second update within the 100 ms of the old epoch is ignored. -/
def updateKey (s : State) (m : Nat) (b : Mailbox) : State :=
  match tabFind s.host.sessions (fromSession b) with
  | none => replyOk s m []
  | some v =>
    if 0xFFFF ≤ v.epoch then refuse s m .epochLimit
    else if v.grace.isSome then replyOk s m []
    else replyOk (nextEpoch s (fromSession b)) m []

/-- KEY_UPDATE (R373). -/
def execKeyUpdate (m : Nat) (s : State) : Out := serve 0x903 (bodyLen 0) noRsv anyState updateKey m s

/-- SESSION_END (R373). -/
def execSessionEnd (m : Nat) (s : State) : Out :=
  serve 0x904 (bodyLen 0) noRsv anyState (fun t k b =>
    let t1 := replyOk t k []
    if (tabFind t.host.sessions (fromSession b)).isSome then endSession t1 (fromSession b) else t1) m s

end Sys2Proof.Machine
end

