-- ==== Sys2Proof/Machine/Row.lean ====
section
/-! DEFINITION. Row slots: the record operations of R112, R113 and R115. -/

namespace Sys2Proof.Machine

/-- The records of a descriptor, ascending: BASE to BASE + COUNT − 1 (R110, R171). -/
def rowRange (rd : RowDesc) : List Nat := (List.range rd.count).map (fun i => rd.base + i)

/-- The records a slot acts on exist. -/
def rowsExist (q : Nat) (rd : RowDesc) : Bool := rowsOk q rd rd.base rd.count

/-- Change record n of panel q. -/
def rowMod (s : State) (q : Nat) (rd : RowDesc) (n : Nat) (f : RowRec → RowRec) : State :=
  rowPut (rowTouch s q rd n) q rd n (f (rowGet s q rd n))

/-- Change every record of the range, in ascending order. -/
def rowEach (rd : RowDesc) (q : Nat) (f : State → Nat → RowRec → RowRec) (s : State) : State :=
  (rowRange rd).foldl (fun t n => rowMod t q rd n (f t n)) s

/-- A finalisation first adds any pending PART into TOTAL (R113). -/
def addPart (r : RowRec) : RowRec := { r with total := f32Add r.total r.part, part := 0#32 }

/-- A finalisation that writes RESULT (R113). -/
def finalise (rd : RowDesc) (q : Nat) (f : RowRec → F32) (s : State) : State :=
  rowEach rd q (fun _ _ r => let u := addPart r; { u with result := f u }) s

/-- RNE(TOTAL × INV_N) (R113). -/
def rowMean (rd : RowDesc) (r : RowRec) : F32 := f32Mul r.total rd.invN

/-- RFIN_RMSB of the range (R113): r is RESULT of the forward record of the same row. -/
def rmsbOn (rd : RowDesc) (q : Nat) (s : State) : State :=
  (rowRange rd).foldl (fun t n =>
    let fw := rd.fwdBase + (n - rd.base)
    let r := (rowGet t q rd fw).result
    rowMod (rowTouch t q rd fw) q rd n (fun v =>
      let w := addPart v
      { w with result := f32Mul (f32Mul (f32Mul r r) r) (rowMean rd w) })) s

/-- AUX = RNE(TOTAL × RNE(u)) × 2^−32 (R113). -/
def sampleAux (total : F32) (u : W32) : F32 := f32Scale (f32Mul total (f32OfNat u.toNat)) (-32)

/-- RFIN_SAMPLE of the range (R113): the draw is that of the descriptor's TAG and the row number. -/
def sampleOn (p : Package) (rd : RowDesc) (q : Nat) (s : State) : State :=
  rowEach rd q (fun t n r =>
    let w := addPart r
    { w with aux := sampleAux w.total (drawFor p t.job.step t.shut.micro rd.tag (n - rd.base)), total := 0#32, idx := 0x1FFFFF
             last := 0x1FFFFF, fixed := false, seen := false }) s

/-- RFIN_PICK of one record (R113, R115): ROW_EMPTY where no term was positive. The tag its event
carries is open for a slot without a chain: a free value (log entry 2). -/
def pickOne (q : Nat) (rd : RowDesc) (s : State) (n : Nat) : State :=
  let r := addPart (rowGet s q rd n)
  let v := if r.fixed then r else { r with idx := r.last }
  let s1 := rowPut (rowTouch s q rd n) q rd n v
  if v.idx = 0x1FFFFF then
    let w := takeFree s1
    setFlag w.2 q .rowEmpty (w.1.toNat % 4096)
  else s1

/-- The region that RSAVE and RLOAD copy to and from (R113, R171): an address in the panel's spool is one in the ring, and
wraps past its end (R122). -/
def savePlace (p : Package) (q : Nat) (rd : RowDesc) : Place :=
  let a := resolveAddr q (256 * rd.saveBase)
  if ringStart p q ≤ a ∧ a < ringStart p q + spoolSize p then .ring (ringStart p q) (spoolSize p) (a - ringStart p q)
  else .flat a

/-- The records and their save region exist. -/
def saveExist (p : Package) (q : Nat) (rd : RowDesc) : Bool :=
  rowsExist q rd && placeOk (savePlace p q rd) (32 * rd.count)

/-- RSAVE of the range (R113). -/
def saveOn (p : Package) (rd : RowDesc) (q : Nat) (s : State) : State :=
  (rowRange rd).foldl (fun t n =>
    placePut (rowTouch t q rd n) (savePlace p q rd) (32 * (n - rd.base)) (rowBytes (rowGet t q rd n))) s

/-- RLOAD of the range (R113). -/
def loadOn (p : Package) (rd : RowDesc) (q : Nat) (s : State) : State :=
  (rowRange rd).foldl (fun t n =>
    let o := 32 * (n - rd.base)
    rowPut (placeTouch t (savePlace p q rd) o 32) q rd n (rowOfBytes (placeGet (viewMem t) (savePlace p q rd) o 32))) s

/-- The record as RCHAIN_SEND sends and keeps it (R112). -/
def sentRecord (r : RowRec) : RowRec := { addPart r with seen := false }

/-- Take the records that one partner sent, up to a count: taken, and what stays. -/
def takeFrom (from' : Nat) : Nat → List (Nat × RowRec) → List RowRec × List (Nat × RowRec)
  | _, [] => ([], [])
  | k, e :: es =>
    if k ≠ 0 && e.1 == from' then
      let r := takeFrom from' (k - 1) es
      (e.2 :: r.1, r.2)
    else
      let r := takeFrom from' k es
      (r.1, e :: r.2)

/-- RCHAIN_RECV on panel q (R112): once every record has come, the received records overwrite those of the range,
field for field. -/
def recvOn (q : Nat) (rd : RowDesc) (s : State) : Option State :=
  let g := takeFrom rd.partner rd.count (panelOf s q).rowIn
  if g.1.length = rd.count then
    some ((g.1.zip (rowRange rd)).foldl (fun t e => rowPut t q rd e.2 e.1)
      (modPanel s q (fun w => { w with rowIn := g.2 })))
  else none

/-- The RCHAIN_RECV slots of panel q that wait take their records, oldest first, as far as these have come. -/
def serveRecv (p : Package) (q : Nat) (s : State) : State :=
  (panelOf s q).rowWait.foldl (fun t d =>
    match rowOf p d with
    | none => t
    | some rd => match recvOn q rd t with
      | none => t
      | some u => modPanel u q (fun w => { w with rowWait := w.rowWait.erase d })) s

/-- RCHAIN_SEND on panel q (R112): PART into TOTAL, SEEN cleared; every field goes to the partner panel. -/
def sendRecords (p : Package) (rd : RowDesc) (q : Nat) (s : State) : State :=
  serveRecv p rd.partner ((rowRange rd).foldl (fun t n =>
    let r := sentRecord (rowGet t q rd n)
    modPanel (rowPut (rowTouch t q rd n) q rd n r) rd.partner (fun w => { w with rowIn := w.rowIn ++ [(q, r)] })) s)

/-- RCHAIN_RECV on panel q (R112): the received records overwrite those of the range; a receive ahead of its records takes
effect when they arrive, since a slot's place in time changes no bit (R70; log entry 66). -/
def awaitRecords (d : Nat) (rd : RowDesc) (q : Nat) (s : State) : State :=
  (recvOn q rd s).getD (modPanel s q (fun w => { w with rowWait := w.rowWait ++ [d] }))

/-! ### Row slots (R113, R116, R166) -/

/-- What a row operation reads and writes on panel q exists. -/
def rowExist (p : Package) (op q : Nat) (rd : RowDesc) : Bool :=
  match op with
  | 5 => rowsExist q rd && rowsOk q rd rd.fwdBase rd.count
  | 8 | 9 => saveExist p q rd
  | _ => rowsExist q rd

/-- The row operation with code `op` on panel q (R113, R166). -/
def rowDo (p : Package) (op d : Nat) (rd : RowDesc) (q : Nat) (s : State) : State :=
  match op with
  | 1 => rowEach rd q (fun _ _ _ => {}) s
  | 2 => finalise rd q (rowMean rd) s
  | 3 => finalise rd q (fun r => f32Rsqrt (f32Add (rowMean rd r) rd.eps)) s
  | 4 => finalise rd q (fun r => f32Add (f32Log r.total) r.maxv) s
  | 5 => rmsbOn rd q s
  | 6 => sampleOn p rd q s
  | 7 => (rowRange rd).foldl (pickOne q rd) s
  | 8 => saveOn p rd q s
  | 9 => loadOn p rd q s
  | 10 => sendRecords p rd q s
  | _ => awaitRecords d rd q s

/-- A row operation on panel q, whose records exist for every package that loads (R186, R192). -/
def rowOn (p : Package) (op d : Nat) (rd : RowDesc) (q : Nat) (s : State) : Out :=
  if rowExist p op q rd then .next (rowDo p op d rd q s) else .fault .reservedAddress

/-- A row slot waits for the terms of an earlier chain (R116). -/
def rowHeld (p : Package) (w : Panel) : Bool :=
  panelHeld w || w.chain.any (fun c => (chainCode p c.entry).any (fun i => i.op == 0x48))

/-- A row slot on every panel of its set (R166). -/
def rowSlot (op : Nat) (x : SlotRef) (s : State) : Out :=
  whenIssuing s (fun p =>
    match rowOf p x.desc with
    | none => .fault .notAdmitted
    | some rd =>
      let ps := slotPanels s p x.pset
      onPanels s ps (fifoSlot s 2 op x.desc ps none) (rowHeld p) (fun u j => rowOn p op x.desc rd (ps.getD j 0) u))

/-- RCLR (R113). -/
def execRclr (x : SlotRef) (s : State) : Out := rowSlot 1 x s
/-- RFIN_MEAN (R113). -/
def execRfinMean (x : SlotRef) (s : State) : Out := rowSlot 2 x s
/-- RFIN_RMS (R113). -/
def execRfinRms (x : SlotRef) (s : State) : Out := rowSlot 3 x s
/-- RFIN_LSE (R113). -/
def execRfinLse (x : SlotRef) (s : State) : Out := rowSlot 4 x s
/-- RFIN_RMSB (R113). -/
def execRfinRmsb (x : SlotRef) (s : State) : Out := rowSlot 5 x s
/-- RFIN_SAMPLE (R113). -/
def execRfinSample (x : SlotRef) (s : State) : Out := rowSlot 6 x s
/-- RFIN_PICK (R113, R115). -/
def execRfinPick (x : SlotRef) (s : State) : Out := rowSlot 7 x s
/-- RSAVE (R113). -/
def execRsave (x : SlotRef) (s : State) : Out := rowSlot 8 x s
/-- RLOAD (R113). -/
def execRload (x : SlotRef) (s : State) : Out := rowSlot 9 x s
/-- RCHAIN_SEND (R112). -/
def execRchainSend (x : SlotRef) (s : State) : Out := rowSlot 10 x s
/-- RCHAIN_RECV (R112). -/
def execRchainRecv (x : SlotRef) (s : State) : Out := rowSlot 11 x s

end Sys2Proof.Machine
end

