-- ==== Sys2Proof/Machine/Panels.lean ====
section
/-! DEFINITION. The ends of waits inside a panel, and the slots that its stitch FIFO then lets go: the arrival of a head
entry, the completion of a chain, of a spill and of a return (R98, R105, R116 to R118, R124, R125, R172). -/

namespace Sys2Proof.Machine

/-! ### Slots of the stitch FIFOs (R172) -/

/-- A slot with the MICRO and the STEP of its stitch. -/
def asIssued (f : FifoSlot) (s : State) : State :=
  { s with job := { s.job with step := f.step }, shut := { s.shut with micro := f.micro } }

/-- The stream's own MICRO and STEP again after a slot that had waited; an abandoned step keeps the MICRO it went back to
(R180). -/
def backTo (s t : State) : State :=
  if t.job.pkg.isNone then t
  else
    let u := { t with job := { t.job with step := s.job.step } }
    if stepGone t then u else { u with shut := { u.shut with micro := s.shut.micro } }

def popFifo (s : State) (q : Nat) : State := modPanel s q (fun w => { w with fifo := w.fifo.drop 1 })

/-- The FOLD stands first in a panel's FIFO too. -/
def sameFold (f : FifoSlot) (w : Panel) : Bool :=
  (w.fifo.head?).any (fun g => g.cls == 0 && g.op == 2 && g.desc == f.desc && g.stitch == f.stitch) && !(panelWaits w)

/-- The first slot of panel q's FIFO can act. -/
def slotReady (p : Package) (s : State) (w : Panel) (f : FifoSlot) : Bool :=
  if f.cls = 1 then !(panelWaits w) && w.chain.isNone
  else if f.cls = 2 then !(rowHeld p { w with fifo := [] })
  else if f.cls = 0 ∧ f.op = 2 then f.set.all (fun q => sameFold f (panelOf s q))
  else if f.cls = 3 ∧ (f.op = 2 ∨ f.op = 3) then !(spoolHeld { w with fifo := [] })
  else !(panelWaits w)

/-- A slot acts on panel q. -/
def slotAct (p : Package) (f : FifoSlot) (q : Nat) (s : State) : Out :=
  match f.cls, f.op, descOf p f.desc with
  | 0, 1, .product _ =>
    match prodView p f.desc with
    | some v => prodOn p v f.desc f.set s f.pos
    | none => .fault .notAdmitted
  | 0, _, .fold fd => foldOn p fd f.set s
  | 1, _, .bind b => placeChain p b f.step f.micro s q
  | 2, _, .row rd => rowOn p f.op f.desc rd q s
  | 3, 1, .move m => copyOn p m f.desc f.set s f.pos
  | 3, 2, .tensor _ => .next (spoolDo p (.push (f.mov.getD 0) f.desc f.micro) s q)
  | 3, 3, .tensor _ => .next (spoolDo p (.pop (f.mov.getD 0) f.desc) s q)
  | 3, 4, .bind b =>
    match applyBinds p b with
    | some (d, w, r) => applyOn p d.1 w.1 r.1 d.2 w.2 r.2 f.set s f.pos
    | none => .fault .notAdmitted
  | _, _, _ => .fault .notAdmitted

/-- The first slot of panel q's FIFO leaves it and acts, a FOLD on all its panels at once. -/
def slotRun (p : Package) (f : FifoSlot) (q : Nat) (s : State) : Out :=
  let s1 := if f.cls = 0 ∧ f.op = 2 then f.set.foldl popFifo s else popFifo s q
  outThen (slotAct p f q (asIssued f s1)) (fun t =>
    let u := backTo s t
    .next (match f.mov with | some id => tagHeld id s.snap.heldWrites.length u | none => u))

/-- The first panel whose FIFO has a slot that can act. -/
def nextHeld (p : Package) (s : State) : Option (Nat × FifoSlot) :=
  s.panels.findSome? (fun e => match e.2.fifo with
    | [] => none
    | f :: _ => if slotReady p s e.2 f then some (e.1, f) else none)

/-- The slots that wait act as far as they can; the fuel is their number. -/
def drainFifos (p : Package) : Nat → State → Out
  | 0, s => .next s
  | n + 1, s =>
    if stepGone s then .next s
    else match nextHeld p s with
      | none => .next s
      | some (q, f) => outThen (slotRun p f q s) (drainFifos p n)

/-- Slots that wait in the FIFOs. -/
def heldSlots (s : State) : Nat := (s.panels.map (fun e => e.2.fifo.length)).sum

/-- A wait inside a panel has ended: the slots behind it follow (R172). -/
def letGo (p : Package) (s : State) : Out := drainFifos p (heldSlots s) s

/-! ### Chains (R98, R105, R117, R118) -/

/-- HEAD_ENTRY_ARRIVAL (R118): a chain that waited on an empty queue starts; the wait is counted. -/
def execHeadEntryArrival (p phys : Nat) (s : State) : Out :=
  whenRunning s (fun pkg =>
    match (panelOf s p).chain, headTile s p with
    | some c, some h =>
      if c.waiting then
        match beginChain pkg c (some h) with
        | none => .fault .notAdmitted
        | some c1 => letGo pkg (traceAt (setFlag (modPanel s p (fun w => { w with
            chain := some c1, ndl := { w.ndl with waitPhys := sat32 (w.ndl.waitPhys + phys) } }))
              p .needleWait c1.tag) p 3)
      else noEvent s
    | _, _ => noEvent s)

/-- CHAIN_COMPLETE (R98, R105, R117): a chain whose last pass is done completes and counts; CONSUME
releases the head entry. The slots that waited for it follow. -/
def execChainComplete (p : Nat) (s : State) : Out :=
  match (panelOf s p).chain, s.job.pkg with
  | some c, some pkg =>
    if c.waiting || decide (c.pass < chainPasses c) then noEvent s
    else letGo pkg (traceAt (modPanel s p (fun w => { w with
      chain := none, queue := if c.entry.consume then w.queue.drop 1 else w.queue
      ndl := { w.ndl with chains := sat32 (w.ndl.chains + 1) } })) p 2)
  | _, _ => noEvent s

/-! ### Spills and returns (R124, R125) -/

/-- SPILL (R124): the copy of the oldest entry completes, once its outstanding writes have; the waiting push allocates,
waits for the next spill, or becomes void (R127). A return in progress completes first. `phys` is the wait it ended. -/
def execSpill (p phys : Nat) (s : State) : Out :=
  whenRunning s (fun pkg =>
    let sp := (panelOf s p).spool
    match pushWaits sp && !sp.returning, sp.ring with
    | true, e :: rest =>
      if writesOut pkg s p e then noEvent s
      else
        let s1 := spillBottom pkg s p e rest
        let s2 := modSpoolStat s1 p (fun st => { st with spillWait := sat32 (st.spillWait + phys) })
        letGo pkg (traceAt (afterMove pkg p s2) p 3)
    | _, _ => noEvent s)

/-- SPOOL_RETURN_DONE (R125): the return completes and releases a waiting pop, or lets a waiting push try again;
`phys` is the wait it ended. -/
def execSpoolReturnDone (p phys : Nat) (s : State) : Out :=
  whenRunning s (fun pkg =>
    let sp := (panelOf s p).spool
    match sp.returning, sp.ext.getLast? with
    | true, some e =>
      let s1 := returnTop pkg s p e
      let s2 := modSpoolStat s1 p (fun st => { st with returnWait := sat32 (st.returnWait + phys) })
      letGo pkg (traceAt (afterMove pkg p s2) p 3)
    | _, _ => noEvent s)

end Sys2Proof.Machine
end

