-- ==== Sys2Proof/Machine/Reads.lean ====
section
/-! DEFINITION. Messages that read records: events, marks and counters, fray reports, verdicts, drains,
alerts, notes, traces (R144 to R147, R156, R329, R352 to R362). -/

namespace Sys2Proof.Machine

open Sys2Proof.Config

/-! ### Events (R353 to R357) -/

/-- Event codes (R356, R380). -/
def evCode : Ev → Nat
  | .jobBegin => 1 | .jobEnd => 2 | .flagSet => 3 | .spoolDeficit => 4 | .spoolShort => 5 | .verdict => 6
  | .frayWatch => 7 | .straggler => 8
  | .spoolExhausted => 0x10 | .frozenWrite => 0x11 | .baseWrite => 0x12 | .stepLimit => 0x13
  | .verdictOverflow => 0x14 | .microLimit => 0x15
  | .poisonSent => 0x20 | .poisonReceived => 0x21 | .slipWarn => 0x22 | .syncLate => 0x23 | .clockTrim => 0x24
  | .registerAccess => 0x25
  | .memCeRate => 0x30 | .memUncorrectable => 0x31 | .memRepair => 0x32 | .memRepairFull => 0x33
  | .memTrainFail => 0x34 | .scanDone => 0x35
  | .linkDegraded => 0x40 | .linkDown => 0x41 | .fitTimeout => 0x42 | .fitBad => 0x43 | .stranger => 0x44
  | .portTest => 0x45 | .hostLinkDown => 0x46 | .flowFailed => 0x47
  | .snapshotDone => 0x50 | .snapshotFailed => 0x51 | .restoreDone => 0x52 | .restoreFailed => 0x53
  | .streamRecomputed => 0x54 | .fillDone => 0x55 | .fillFailed => 0x56
  | .gradeUnavailable => 0x60 | .budgetExpired => 0x61 | .predictionLow => 0x62 | .capUnmet => 0x63
  | .fixedExit => 0x64 | .pinchRate => 0x65 | .gradeDeferred => 0x66 | .suspect => 0x67
  | .sensorSkew => 0x70 | .sensorSuspect => 0x71 | .thermThrottle => 0x72 | .thermMax => 0x73
  | .thermTrip => 0x74 | .coolStale => 0x75 | .coolInlet => 0x76 | .coolReportSkew => 0x77 | .coolWarn => 0x78
  | .coolAlarm => 0x79 | .flowLoss => 0x7A
  | .drainStart => 0x80 | .txnExpired => 0x81 | .configReset => 0x82 | .notesLost => 0x83
  | .authFailed => 0x100 | .sessionOpen => 0x101 | .sessionEnd => 0x102 | .keyUpdate => 0x103
  | .imageFallback => 0x104 | .imageRepaired => 0x105 | .fwActivated => 0x106 | .fwConfirmed => 0x107
  | .ownerChanged => 0x108 | .clearSigned => 0x109 | .recoveryEntered => 0x10A

/-- An event record of 32 bytes (R353). -/
def eventBytes (e : Event) : List Byte :=
  words [e.source + 65536 * evCode e.code, e.seq] ++ leBytes 8 (cycle e.source e.seq).toNat
    ++ words [e.step, e.args.getD 0 0, e.args.getD 1 0, e.args.getD 2 0]

/-- The log from a position, with positions. -/
def logFrom (g : Mgmt) (at0 : Nat) : List (Event × Nat) :=
  ((g.log.zipIdx).map (fun e => (e.1, g.dropped + e.2))).drop (at0 - g.dropped)

/-- EVENT_READ (R357). The next cursor follows the last record returned, or the end of the log where fewer
records remain than asked. -/
def readEvents (s : State) (m : Nat) (b : Mailbox) : State :=
  let cur := reqWord b 0 + 2 ^ 32 * reqWord b 4
  let n := reqWord b 8
  let src := reqWord b 12
  let start := max cur s.mgmt.dropped
  let hits := ((logFrom s.mgmt start).filter (fun e => src == 0xFFFF || e.1.source == src)).take n
  let next := if n = 0 then start
    else if hits.length < n then max start (s.mgmt.dropped + s.mgmt.log.length)
    else match hits.getLast? with | some e => e.2 + 1 | none => start
  replyOk s m (leBytes 8 next ++ leBytes 8 (s.mgmt.dropped - cur) ++ hits.flatMap (fun e => eventBytes e.1))

/-- EVENT_READ (R357). -/
def execEventRead (m : Nat) (s : State) : Out :=
  serve 0x700 (fun _ b => reqLen b == 16 && decide (reqWord b 8 ≤ 127)) (rsvFrom 12 16) anyState readEvents m s

/-! ### Marks and counters (R359, R360) -/

/-- MARK_REQUEST (R359). -/
def execMarkRequest (m : Nat) (s : State) : Out :=
  serve 0x701 (bodyLen 0) noRsv anyState
    (fun t k _ => replyOk (injectMark t 3) k (words [t.mgmt.markNext])) m s

/-- The records of a class latched at a mark, from a unit on. -/
def markRecords (r : MarkRec) (cls first n : Nat) : List (List W32) :=
  (List.range n).filterMap (fun i => (r.records.find? (fun e => e.1 == cls && e.2.1 == first + i)).map (fun e => e.2.2))

/-- The reply to a COUNTER_READ of a complete mark (R360). -/
def counterBody (r : MarkRec) (cls first n : Nat) : List Byte :=
  words [r.number, r.step, r.kind, 0] ++ (markRecords r cls first n).flatMap (fun ws => ws.flatMap (fun w => leBytes 4 w.toNat))

/-- Largest count of a class (R360). -/
def countMax (cls : Nat) : Nat := if classWords cls = 16 then 63 else 127

/-- COUNTER_READ (R360): a mark not yet injected is out of range. -/
def readCounters (s : State) (m : Nat) (b : Mailbox) : State :=
  let mk := reqWord b 0
  let cls := reqWord b 4
  let first := reqWord b 8
  let n := reqWord b 12
  if classUnits cls = 0 ∨ classUnits cls < first + n ∨ s.mgmt.markNext ≤ mk ∨ mk = 0 then refuse s m .badRange
  else match s.mgmt.marks.find? (fun r => r.number == mk) with
    | none => refuse s m .staleMark
    | some r =>
      if markComplete r then replyOk s m (counterBody r cls first n)
      else waitAt s m (.mark mk) [cls, first, n]

/-- COUNTER_READ (R360). -/
def execCounterRead (m : Nat) (s : State) : Out :=
  serve 0x702 (fun _ b => reqLen b == 16 && decide (reqWord b 12 ≤ countMax (reqWord b 4))) noRsv anyState readCounters m s

/-- MARK_LATCH (R176, R359): a unit latches its status record; a mark that is complete answers the requests that
wait for it. -/
def execMarkLatch (mark cls unit : Nat) (s : State) : Out :=
  match s.mgmt.marks.find? (fun r => r.number == mark) with
  | none => noEvent s
  | some r =>
    if classUnits cls ≤ unit ∨ r.records.any (fun e => e.1 == cls && e.2.1 == unit) = true then noEvent s
    else
      let u := if cls = 7 then gatedTime s unit else s
      let r1 := { r with records := r.records ++ [(cls, unit, statusRecord u cls mark unit)] }
      let s0 := latchBlock u mark cls unit
      let s1 := { s0 with mgmt := { s0.mgmt with marks := s0.mgmt.marks.map (fun k => if k.number = mark then r1 else k) } }
      .next (if markComplete r1 then
          releaseAt s1 (.mark mark) (fun b => counterBody r1 (b.note.getD 0 0) (b.note.getD 1 0) (b.note.getD 2 0))
        else s1)

/-! ### Fray reports (R144, R145, R147) -/

/-- A fray report record (R145). -/
def frayBytes (step : Nat) (r : Nat × Nat × List Nat) : List Byte :=
  words ([r.1 + 4096 * r.2.1, step] ++ (List.range 6).map (fun i => r.2.2.getD i 0))

/-- FRAY_REPORT_READ (R147). -/
def readReport (s : State) (m : Nat) (b : Mailbox) : State :=
  let cur := reqWord b 4
  let body := match s.job.reports[reqWord b 0]? with
    | some r =>
      let rs := (r.records.drop cur).take (reqWord b 8)
      words [r.step, r.records.length, r.watch, r.excess, cur + rs.length, 0] ++ rs.flatMap (frayBytes r.step)
    | none => words [0xFFFFFFFF, 0, 0, 0, cur, 0]
  replyOk s m body

/-- FRAY_REPORT_READ (R147). -/
def execFrayReportRead (m : Nat) (s : State) : Out :=
  serve 0x703 (fun _ b => reqLen b == 12 && decide (reqWord b 8 ≤ 126)) (rsvFrom 0 1) anyState readReport m s

/-! ### Verdicts (R156) -/

/-- A verdict record (R156). -/
def verdictBytes (v : Verdict) : List Byte :=
  words [v.step, v.tag + 65536 * v.panel + 2 ^ 24 * v.witness, v.third + 256 * v.outcome + 65536 * v.micro, v.desc,
    v.row0, v.col0, v.elem, v.c0.toNat, v.c1.toNat, v.tol.toNat, v.cw.toNat, v.c3.toNat, v.c2.toNat, v.mismatchW,
    v.mismatchC, 0]

/-- VERDICT_READ (R156, R341): a cursor is the index of a record; one that is no longer held reads from the
oldest. -/
def readVerdicts (s : State) (m : Nat) (b : Mailbox) : State :=
  let start := max (reqWord b 0) s.mgmt.verdictBase
  let vs := (s.mgmt.verdicts.drop (start - s.mgmt.verdictBase)).take (reqWord b 4)
  replyOk s m (words [start + vs.length, 0] ++ vs.flatMap verdictBytes)

/-- VERDICT_READ (R156). -/
def execVerdictRead (m : Nat) (s : State) : Out :=
  serve 0x704 (fun _ b => reqLen b == 8 && decide (reqWord b 4 ≤ 63)) noRsv anyState readVerdicts m s

/-! ### Drain records (R329) -/

/-- A drain record (R329). -/
def drainBytes (d : DrainRec) : List Byte :=
  words [d.seq, d.cause + 256 * boolNat d.replace + 512 * boolNat d.clearOk + 1024 * boolNat d.resumed, d.step, d.unit % 65536]
    ++ leBytes 12 d.jobTag ++ words [d.scanFails + 65536 * d.scanFirst, d.repeatFails, d.verdictIdx, 0, 0, 0, 0, 0, 0]

/-- DRAIN_RECORD_READ (R329): a cursor is a DRAIN_SEQ; one before the oldest record held reads from the oldest. -/
def readDrains (s : State) (m : Nat) (b : Mailbox) : State :=
  let ds := (s.dev.drains.filter (fun d => decide (reqWord b 0 ≤ d.seq))).take (reqWord b 4)
  let next := match ds.getLast? with | some d => d.seq + 1 | none => reqWord b 0
  replyOk s m (words [next, 0] ++ ds.flatMap drainBytes)

/-- DRAIN_RECORD_READ (R329). -/
def execDrainRecordRead (m : Nat) (s : State) : Out :=
  serve 0x705 (fun _ b => reqLen b == 8 && decide (reqWord b 4 ≤ 63)) noRsv anyState readDrains m s

/-! ### Alerts (R358) -/

/-- The condition behind the COOLING cause (R290). -/
def coolingHolds (s : State) : Bool :=
  !s.therm.fresh || decide (s.therm.tIn < 1500) || decide (4500 < s.therm.tIn) || s.therm.alarmed

/-- Whether the condition of a cause persists (R358, log entry 30). -/
def causeHolds (s : State) : Cause → Bool
  | .power => s.power.capAlert || s.power.pinchAlert.isSome
  | .thermal => decide (0 < s.therm.q) || s.therm.forced
  | .cooling => coolingHolds s
  | .sensor => !s.therm.suspects.isEmpty
  | .link => allPorts.any (fun q =>
      let p := portOf s q
      p.st == .down || p.st == .excluded || (portTrained p && decide (p.width < fullWidth q)))
  | .hostLink => s.host.ports.any (fun e => e.2.lost)
  | .memCe => s.health.units.any (fun e => e.2.ceRate)
  | .device => s.dev.suspect.isSome || s.dev.st == .draining || s.dev.st == .drained || s.pins.railsOff

/-- A 1 clears a cause whose condition has ended. -/
def clearIf (s : State) (mask : Nat) (c : Cause) : State :=
  if bitOf mask (causeBit c) && !(causeHolds s c) then clearCause s c else s

/-- ALERT_CAUSES (R358). -/
def readCauses (s : State) (m : Nat) (b : Mailbox) : State :=
  let s1 := [Cause.power, .thermal, .cooling, .sensor, .link, .hostLink, .memCe, .device].foldl
    (fun t c => clearIf t (reqWord b 0) c) s
  replyOk s1 m (words [s1.mgmt.causes])

/-- ALERT_CAUSES (R358). -/
def execAlertCauses (m : Nat) (s : State) : Out := serve 0x706 (bodyLen 4) (rsvFrom 0 8) anyState readCauses m s

/-! ### Notes (R361, R362) -/

/-- The session watches a queue, or leaves it; a queue that it begins to watch pushes its notes (R362). -/
def watchQueue (s : State) (sid mask q : Nat) : State :=
  let w := noteQueueOf s q
  if bitOf mask q then
    if w.watcher = some sid then s
    else w.notes.foldl (fun t n => pushNote t q n) (setNoteQueue s q { w with watcher := some sid })
  else if w.watcher = some sid then setNoteQueue s q { w with watcher := none }
  else s

/-- NOTE_WATCH (R362): the mask names every queue that the session watches. -/
def watchNotes (s : State) (m : Nat) (b : Mailbox) : State :=
  let sid := fromSession b
  let mask := reqWord b 0
  if allBoxes.any (fun q => bitOf mask q && (noteQueueOf s q).watcher.any (fun w => w != sid)) then refuse s m .notOwner
  else replyOk (allBoxes.foldl (fun t q => watchQueue t sid mask q) s) m []

/-- NOTE_WATCH (R362). -/
def execNoteWatch (m : Nat) (s : State) : Out := serve 0x707 (bodyLen 4) (rsvFrom 0 16) anyState watchNotes m s

/-- The notes of a queue from a sequence number on. -/
def notesAt (s : State) (b : Mailbox) : List NoteRec :=
  (((noteQueueOf s (reqWord b 0)).notes.filter (fun n => decide (reqWord b 4 ≤ n.seq)))).take (reqWord b 8)

def notesBody (s : State) (b : Mailbox) : List Byte :=
  let ns := notesAt s b
  let next := match ns.getLast? with | some n => n.seq + 1 | none => reqWord b 4
  words [next, 0] ++ ns.flatMap (noteBytes (reqWord b 0))

/-- NOTE_READ (R362): the notes returned leave the queue; a watched queue is refused. -/
def readNotes (s : State) (m : Nat) (b : Mailbox) : State :=
  let q := reqWord b 0
  if 16 ≤ q then refuse s m .badRange
  else
    let w := noteQueueOf s q
    if w.watcher.isSome then refuse s m .notOwner
    else
      let ns := notesAt s b
      replyOk (setNoteQueue s q { w with notes := w.notes.filter (fun n => !(ns.contains n)) }) m (notesBody s b)

/-- NOTE_READ (R362): a reply that would pass 4,080 bytes is refused (R339). -/
def execNoteRead (m : Nat) (s : State) : Out :=
  serve 0x708 (fun t b => reqLen b == 12 && decide ((notesBody t b).length ≤ 4080)) noRsv anyState readNotes m s

/-! ### Traces (R352) -/

/-- A trace record in the layout of R353; its arguments are free values (log entry 2). -/
def traceBytes (q : Nat) (r : Nat × Nat × Nat × Nat) : List Byte :=
  let c := (cycle q r.2.2.1).toNat
  words [q + 65536 * r.1, r.2.2.1, c % 2 ^ 32, c / 2 ^ 32, r.2.1,
    (traceWord r.2.2.2 0).toNat, (traceWord r.2.2.2 1).toNat, (traceWord r.2.2.2 2).toNat]

/-- TRACE_READ (R352): the cursor counts from the oldest record held. -/
def readTrace (s : State) (m : Nat) (b : Mailbox) : State :=
  let q := reqWord b 0
  if panels ≤ q then refuse s m .badRange
  else
    let rs := ((panelOf s q).trace.drop (reqWord b 4)).take (reqWord b 8)
    replyOk s m (words [reqWord b 4 + rs.length, 0] ++ rs.flatMap (traceBytes q))

/-- TRACE_READ (R352). -/
def execTraceRead (m : Nat) (s : State) : Out :=
  serve 0x709 (fun _ b => reqLen b == 12 && decide (reqWord b 8 ≤ 127)) noRsv anyState readTrace m s

end Sys2Proof.Machine
end

