-- ==== Sys2Proof/Machine/Upkeep.lean ====
section
/-! DEFINITION. Patrol scrub, correction rates and tracking (R197, R199 to R202, R206, R209), clearing, scan passes
and signing (R20, R207, R323, R324, R327 to R329, R332, R376), the Thimble's lockstep (R322). -/

namespace Sys2Proof.Machine

open Sys2Proof.Config

/-! ### The patrol scrub (R199, R200, R202) -/

/-- A row enters the repair list of 1,024; a further one sets the replacement flag, with which the device keeps
running (R202). -/
def addRepair (s : State) (l : Nat) : State :=
  if s.health.repairs.contains l then s
  else if s.health.repairs.length < 1024 then { s with health := { s.health with repairs := s.health.repairs ++ [l] } }
  else raiseEv { s with dev := { s.dev with replaceFull := true } } srcThimble .memRepairFull []

/-- The passes in a row in which scrubbing has now corrected a line (R199). -/
def hitRun (u : MemUnit) (l : Nat) : Nat :=
  match u.hits.find? (fun h => h.1 == l) with
  | some h => if h.2.2 + 1 = u.passNo then h.2.1 + 1 else 1
  | none => 1

/-- A line that scrubbing has corrected and written back; the third pass in a row enters the repair list (R199). -/
def scrubHit (s : State) (k l : Nat) : State :=
  let n := hitRun (memUnitOf s k) l
  let s1 := modMemUnit s k (fun u => { u with
    hits := (l, n, u.passNo) :: u.hits.filter (fun h => h.1 != l && decide (u.passNo ≤ h.2.2 + 1)) })
  if n = 3 then addRepair s1 l else s1

/-- The write-back of a corrected line; another write since the scrub's read discards it (R200, R209). -/
def scrubBack (s : State) (k l : Nat) (overwritten : Bool) (bs : List Byte) : State :=
  if overwritten then s
  else scrubHit { s with mem := memPut s.mem (64 * l) bs
                         health := { s.health with errors := tabErase s.health.errors l } } k l

/-- What a scrub makes of a line (R196 to R200): a miscorrection is written back as the decoder delivers it. -/
def scrubLine (s : State) (k l : Nat) (overwritten : Bool) : State :=
  let bs := memBytes s.mem (64 * l) 64
  if s.health.poison.contains l then uncorrectable s l
  else match tabFind s.health.errors l with
    | none => s
    | some pat =>
      match eccDecode pat with
      | .clean => s
      | .corrected n => scrubBack (countCorrected s k n) k l overwritten bs
      | .miscorrected n res =>
        if n = 0 then s else scrubBack (countCorrected s k n) k l overwritten (xorBytes bs res)
      | .uncorrectable => uncorrectable s l

/-- The scrub goes on to the next line; a pass ends with the unit's last (R199, R203). -/
def scrubNextLine (bolt : Bool) (u : MemUnit) : MemUnit :=
  if u.scrubNext + 1 < unitLines bolt then { u with scrubNext := u.scrubNext + 1 }
  else { u with scrubNext := 0, scrubPasses := sat32 (u.scrubPasses + 1), passNo := u.passNo + 1 }

/-- SCRUB_READ (R199): the next line of a slice or channel. -/
def execScrubRead (bolt : Bool) (unit : Nat) (overwritten : Bool) (s : State) : Out :=
  if s.health.scrubbing then
    let k := unitKey (unit, bolt)
    .next (modMemUnit (scrubLine s k (unitLine bolt unit (memUnitOf s k).scrubNext) overwritten) k (scrubNextLine bolt))
  else noEvent s

/-- What CORRECTED of a unit grew by within the last hour (R197). -/
def growth (s : State) (k : Nat) : Nat :=
  ((memUnitOf s k).ceTimes.filter (fun t => decide (s.nowUs < t + hourUs))).length

/-- MEM_CE_RATE (R197): CORRECTED of a unit grew by more than CE_WARN within an hour; the growth is then counted anew
(DESIGN CHOICE, log entry 70). -/
def execMemCeRate (bolt : Bool) (unit : Nat) (s : State) : Out :=
  let k := unitKey (unit, bolt)
  if setting s 0x122 0 < growth s k then
    .next (setCause (raiseEv (modMemUnit s k (fun u => { u with ceRate := true, ceTimes := [] }))
      (srcMem bolt unit) .memCeRate [unit]) .memCe)
  else noEvent s

/-- LPDDR_TRACKING (R206): an update counts once in RETRAINS. -/
def execLpddrTracking (channel : Nat) (s : State) : Out :=
  if railsUp s ∧ 6 ≤ s.pins.startup then
    .next (modMemUnit s (256 + channel) (fun u => { u with retrains := sat32 (u.retrains + 1) }))
  else noEvent s

/-! ### Clearing (R20, R207) -/

/-- Pocket memory, tile queues and FIFOs are zero; counters and the trace buffer are no part of clearing (R20). -/
def clearPanelState (p : Panel) : Panel := { mat := p.mat, ndl := p.ndl, spool := { stat := p.spool.stat }, trace := p.trace }

/-- Whether clearing leaves an address alone: in the base region, if it is retained (R20, R21, R207). -/
def kept (s : State) (a : Nat) : Bool := s.dev.retain && inBase s a

/-- Steps 2, 3 and 5 of R207 with what R20 clears beside them. -/
def clearMemory (s : State) : State :=
  { s with
    mem := memKeep s.mem (kept s)
    health := { s.health with
      errors := s.health.errors.filter (fun e => kept s (64 * e.1))
      poison := s.health.poison.filter (fun l => kept s (64 * l))
      units := s.health.units.map (fun e => (e.1, { e.2 with scrubNext := 0 }))
      scrubbing := true }
    base := if s.dev.retain then s.base else none
    panels := s.panels.map (fun e => (e.1, clearPanelState e.2))
    host := { s.host with flows := s.host.flows.filter (fun e => !(isJobFlow e.2)) } }

/-- A nonzero bit in the read-back is cause 3 (R207, R321). -/
def readBack (s : State) (nonzero : Bool) : State :=
  if nonzero then makeSuspect s 3 0xFFFF 0xFFFFFFFF else s

/-- Clearing is done: the work that follows. -/
def afterClear (s : State) (nonzero : Bool) (w : Work) : State :=
  let t := clearMemory s
  readBack { t with dev := { t.dev with work := w, clearOk := !nonzero, scan := ⟨[], [], [], []⟩ } } nonzero

/-- CLEARING_DONE (R20, R207, R327, R331). -/
def execClearingDone (nonzero : Bool) (s : State) : Out :=
  match s.dev.work with
  | .jobClear => .next (afterClear s nonzero .jobScan)
  | .drainClear => .next (afterClear s nonzero .drainScan)
  | .resetClear => .next (afterClear s nonzero .resetSign)
  | _ => noEvent s

/-! ### The drain record (R327, R329) -/

/-- The last `n` of a list. -/
def lastN {α : Type} (n : Nat) (l : List α) : List α := l.drop (l.length - n)

/-- The first failing set, 0xFFFF if none (R329, R376). -/
def firstSet (l : List Nat) : Nat := l.head?.getD 0xFFFF

/-- The drain record is written and the replacement flag set (R327 step 6, R328, R329). -/
def writeDrain (s : State) : State :=
  let c := s.dev.drain.getD (8, 0xFFFF, 0xFFFFFFFF, 0xFFFFFFFF, 0)
  let flag := s.dev.replace || s.dev.suspect.isSome || s.dev.drainReplace
  let r : DrainRec := { seq := s.dev.drainSeq + 1, cause := c.1, replace := flag || s.dev.replaceFull, clearOk := s.dev.clearOk
                        resumed := s.dev.resumed, step := c.2.2.1, unit := c.2.1, jobTag := c.2.2.2.2
                        scanFails := s.dev.scan.fails.length, scanFirst := firstSet s.dev.scan.fails
                        repeatFails := s.dev.scan.repeatFails.length, verdictIdx := c.2.2.2.1 }
  { s with dev := { s.dev with replace := flag, drains := lastN 16 (s.dev.drains ++ [r]), drainSeq := s.dev.drainSeq + 1 } }

/-! ### Scan passes (R323, R324) -/

/-- The occasion of a pass, in the order of R324's table (log entry 32), and the sets it applies. -/
def scanKind : Work → Option (Nat × Nat)
  | .jobScan => some (0, 279)
  | .drainJobScan => some (1, 279)
  | .drainScan => some (1, 535)
  | .spareScan => some (2, 535)
  | .selfScan => some (3, 535)
  | .undrainScan => some (4, 535)
  | _ => none

/-- The march test reads every bolt line, and so reports the errors it finds (R196 to R198, R208, R324). -/
def marchReads (s : State) : State :=
  (((s.health.errors.map Prod.fst ++ s.health.poison).eraseDups).filter (fun l => decide (boltBase ≤ 64 * l))).foldl
    (fun t l => (readLine t l).2) s

/-- What follows a pass; one with the BOLT group reads bolt memory and destroys its contents (R324). -/
def afterScan (s : State) (full ok : Bool) : State :=
  let t := if full then boltLost (marchReads s) else s
  match s.dev.work with
  | .jobScan => { t with dev := { t.dev with work := .jobSign } }
  | .drainScan | .drainJobScan => { t with dev := { t.dev with work := .drainSign } }
  | .undrainScan => if ok then goState { t with dev := { t.dev with work := .none } } .ready
                    else { t with dev := { t.dev with work := .none } }
  | _ => { t with dev := { t.dev with work := .none } }

/-- The sets whose digest fails in a copy of the scan image: those known, and those that the pass finds (R323). -/
def copyFails (known found : List Nat) : List Nat := known ++ found.filter (fun k => !(known.contains k))

/-- Of the `n` sets of a pass, those that verify in neither copy (R323). -/
def imageBad (d : Device) (n : Nat) (r : ScanResult) : List Nat :=
  (copyFails d.scanA r.badA).filter (fun k => decide (k < n) && (copyFails d.scanB r.badB).contains k)

/-- The scan image after a pass of `n` sets: a set that fails in copy A alone is rewritten from copy B (R323). -/
def repairScan (d : Device) (n : Nat) (r : ScanResult) : Device :=
  let b := copyFails d.scanB r.badB
  { d with scanA := (copyFails d.scanA r.badA).filter (fun k => decide (n ≤ k) || b.contains k), scanB := b }

/-- A failing set is cause 4, a set that verifies in neither copy cause 9 (R323). -/
def scanCauses (s : State) (fails bad : List Nat) : State :=
  let s1 := match fails with | [] => s | f :: _ => makeSuspect s 4 f 0xFFFFFFFF
  match bad with | [] => s1 | f :: _ => makeSuspect s1 9 f 0xFFFFFFFF

/-- SCAN_DONE (R20, R323, R324, R327, R328). -/
def execScanDone (r : ScanResult) (s : State) : Out :=
  match scanKind s.dev.work with
  | none => noEvent s
  | some (occ, n) =>
    let draining := s.dev.st == .draining
    let bad := imageBad s.dev n r
    let s1 := raiseEv { s with dev := { repairScan s.dev n r with scan := r } } srcThimble .scanDone
      [occ, n - bad.length, firstSet r.fails]
    let s2 := scanCauses (afterScan s1 (n == 535) (r.fails.isEmpty && bad.isEmpty)) r.fails bad
    .next (drainIfDue (if draining && !s2.dev.signDue then writeDrain s2 else s2))

/-! ### Clear records (R20, R376) -/

/-- A clear record is signed: KIND 0 JOB_END, 1 DRAIN, 2 RESET (R376). -/
def signClear (s : State) (kind : Nat) : State :=
  let r : ClearRec := { kind := kind, clearOk := s.dev.clearOk, scanOk := s.dev.scan.fails.isEmpty, retained := s.base.isSome
                        seq := s.dev.clearSeq + 1
                        cause := if kind = 1 then (s.dev.drain.map (fun c => c.1)).getD 8 else 0
                        scanFirst := firstSet s.dev.scan.fails
                        energy := if kind = 2 then 0 else energyCount s
                        pkgDigest := if kind = 2 then 0 else s.dev.endDigest, baseDigest := baseDigestOf s }
  raiseEv { s with dev := { s.dev with clears := lastN 64 (s.dev.clears ++ [r]), clearSeq := s.dev.clearSeq + 1 } }
    srcThimble .clearSigned []

/-- The device enters READY or SPARE with nothing in progress; a pass that gave way is repeated (R315, R324), and a
drain that is due begins (R326). -/
def enterIdle (s : State) (st : DevState) : State :=
  let w := if s.dev.scanDue then (if st = .spare then Work.spareScan else .selfScan) else .none
  drainIfDue (goState { s with dev := { s.dev with work := w, scanDue := false, endDigest := 0, fromFill := false } } st)

/-- The device is drained (R327 step 8). -/
def enterDrained (s : State) : State :=
  goState { s with dev := { s.dev with work := .none, suspect := none, drain := none, resumed := false, drainReplace := false
                                       endDigest := 0, fromFill := false } } .drained

/-- The reply of JOB_END: sent in READY, or in SPARE after a fill, with the final energy count (R344). -/
def answerEnd (s : State) : State := releaseAt s .jobEnd (fun _ => leBytes 8 (energyCount s))

/-- CLEAR_SIGNED (R20, R327, R331, R376). -/
def execClearSigned (s : State) : Out :=
  match s.dev.work with
  | .jobSign =>
    let t := signClear s 0
    let back := { t with dev := { t.dev with st := if s.dev.fromFill then .spare else .ready } }
    .next (enterIdle (answerEnd back) back.dev.st)
  | .drainSign =>
    if s.dev.signDue then
      let t := signClear s 0
      .next (writeDrain { t with dev := { t.dev with signDue := false } })
    else .next (enterDrained (signClear s 1))
  | .resetSign =>
    let t := signClear s 2
    .next (enterIdle { t with dev := { t.dev with lostJob := false } } .ready)
  | _ => noEvent s

end Sys2Proof.Machine
end

