-- ==== Sys2Proof/Machine/Startup.lean ====
section
/-! DEFINITION. Start-up and its steps, reset, rails and the input, recovery, the test access port (R11, R201, R205,
R331, R350, R364 to R367, R378, R379, R382 to R394). -/

namespace Sys2Proof.Machine

open Sys2Proof.Config

def modPins (s : State) (f : Pins → Pins) : State := { s with pins := f s.pins }

/-- The device state set by the pins and the rails. -/
def setSt (s : State) (st : DevState) : State := { s with dev := { s.dev with st := st } }

/-! ### Firmware (R366, R367, R377 to R379, R383 steps 2 and 3) -/

def slotImage (f : Firmware) (k : Nat) : Option Image := if k = 0 then f.slotA else f.slotB

/-- The image of a slot verifies (R366). -/
def slotOk (f : Firmware) (k : Nat) : Bool := (slotImage f k).any (fun i => (imageFault f i).isNone)

/-- A bad slot takes the good image (R367). -/
def repairSlot (f : Firmware) (k : Nat) : Firmware :=
  if k = 0 then { f with slotB := f.slotA, repair := false } else { f with slotA := f.slotB, repair := false }

/-- The events of the image that now runs: the fallback and the repair of the bad slot (R367, R378). -/
def imageEvents (s : State) (k : Nat) : State :=
  let s1 := if s.fw.fallback then
      raiseEv { s with fw := { s.fw with fallback := false } } srcThimble .imageFallback [] else s
  if s1.fw.repair then raiseEv { s1 with fw := repairSlot s1.fw k } srcThimble .imageRepaired [] else s1

/-- A setting whose flash copy fails its check takes its Reset value (R350); keys are 65,536 × ID + INDEX. -/
def resetSetting (s : State) (key : Nat) : State :=
  raiseEv { s with mgmt := { s.mgmt with settings := tabErase s.mgmt.settings key, flash := tabErase s.mgmt.flash key } }
    srcThimble .configReset []

/-- The persistent settings are read from flash (R263, R288, R350). -/
def readConfig (s : State) (bad : List Nat) : State :=
  let t := bad.foldl resetSetting s
  { t with power := { t.power with vUser := userVolts t.mgmt.flash }
           therm := { t.therm with theta := thetaStart t.mgmt.flash } }

/-- GRADE_UNAVAILABLE for each grade above 0.68 V (R263); V_set in mV (R279 names no unit; DESIGN CHOICE, log entry 54). -/
def gradeEvents (s : State) : State :=
  ((List.range 8).map (· + 1)).foldl (fun t g =>
    if gradeAvailable t g then t else raiseEv t srcThimble .gradeUnavailable [g, vSet t g]) s

/-- No fresh report at power-on (R287). -/
def staleStart (s : State) : State := setCause (raiseEv s srcThimble .coolStale []) .cooling

/-- Firmware begins to run from slot k (R263, R287, R350, R367, R379). -/
def runFirmware (s : State) (k : Nat) (bad : List Nat) : State :=
  let s1 := { s with fw := { s.fw with running := some k, image := slotImage s.fw k, recovery := false }
                     pins := { s.pins with verified := true, startup := 3 } }
  let s2 := imageEvents s1 k
  if runsRecovery s2 then raiseEv (staleStart s2) srcThimble .recoveryEntered []
  else gradeEvents (staleStart (readConfig s2 bad))

/-- The order in which the compute rails come up (R383 step 4). -/
def railOrder : List Rail := [.vser, .vdd1, .vdd2h, .vdd2l, .vddq, .vsram, .vcore]

/-- Step 4 begins (R383): BOOT, the straps are sampled (R392), the compute rails come up, clocks at G1. -/
def enterBoot (s : State) : State :=
  setSt { s with pins := { s.pins with startup := 4, slotId := s.pins.straps, rails := railOrder, lowPower := false }
                 power := { s.power with grade := 1, vset := vSet s 1 } } .boot

/-- Step 4 follows step 3 as soon as PWR_EN is asserted (R383), unless a second rail fault keeps the rails off
(R386). -/
def tryBoot (s : State) : State :=
  if s.pins.v72 && s.pins.verified && s.pins.pwrEn && !s.pins.resetLow && !s.pins.railsOff && s.dev.st == .standby then
    enterBoot s
  else s

/-- The ROM runs the image of the active slot, else of the other, else enters recovery (R367); `bad` holds the settings
whose flash copies fail their check. -/
def romVerify (bad : List Nat) (s : State) : State :=
  let a := s.fw.active
  if slotOk s.fw a then runFirmware s a bad
  else if slotOk s.fw (1 - a) then
    runFirmware { s with fw := { s.fw with active := 1 - a, trial := false, fallback := true, repair := true } } (1 - a) bad
  else { s with fw := { s.fw with recovery := true, received := 0, recBuf := [] } }

/-- FIRMWARE_VERIFY (R367, R383). -/
def execFirmwareVerify (badConfig : List Nat) (s : State) : Out :=
  if s.pins.v72 && !s.pins.resetLow && !s.pins.verified && !s.fw.recovery && s.dev.st == .standby then
    .next (tryBoot (romVerify badConfig s))
  else noEvent s

/-- The recovery image is complete: it must verify, carry RECOVERY and hold at most 8 MiB; slot A takes it (R379). -/
def takeRecovery (s : State) (i : Image) : State :=
  if (imageFault s.fw i).isNone && i.recovery && decide (i.len ≤ 0x800000) then
    tryBoot (runFirmware { s with fw := { s.fw with
      slotA := some i, active := 0, trial := false, committed := false, fallback := false, repair := false
      received := 0, recBuf := [] } } 0 [])
  else { s with fw := { s.fw with received := 0, recBuf := [] } }

/-- RECOVERY_FRAME (R379): a frame of 1,024 bytes and its CRC-32; 0x06 accepts, 0x15 asks for a resend. -/
def execRecoveryFrame (bs : List Byte) (crc : Nat) (s : State) : Out :=
  if s.pins.v72 && !s.pins.resetLow && s.fw.recovery then
    if crc32 bs = crc ∧ s.fw.received + bs.length ≤ 0x800000 then
      let n := s.fw.received + bs.length
      let s1 := { s with fw := { s.fw with recBuf := memPut s.fw.recBuf s.fw.received bs, received := n, answer := some 0x06 } }
      .next (if leNat (memBytes s1.fw.recBuf 8 4) ≤ n then takeRecovery s1 (readImage (memBytes s1.fw.recBuf 0 n)) else s1)
    else .next { s with fw := { s.fw with answer := some 0x15 } }
  else noEvent s

/-! ### 72 V and the pins (R331, R383, R385, R386, R392) -/

/-- POWER_72V_PRESENT (R383 step 1, R387, R393, R399): the housekeeping rail comes up and the straps are sampled; SB_RX
held low forces recovery, unless RESET_N still holds the Thimble. An overcurrent latch keeps every rail off. -/
def execPower72vPresent (p : PowerUp) (s : State) : Out :=
  if s.pins.v72 then noEvent s
  else
    let s1 := modPins s (fun q => { q with straps := p.slotId, sbRx := !p.sbRxLow })
    if s.pins.latch then .next s1
    else
      let s2 := modPins s1 (fun q => { q with v72 := true, slotId := p.slotId, startup := 1, sbTx := true })
      .next (setSt { s2 with fw := { s2.fw with recovery := p.sbRxLow && !s.pins.resetLow } }
        (if s.pins.resetLow then .boot else .standby))

/-- The compute rails off and the Thimble from its ROM (R385, R386). -/
def restart (s : State) (st : DevState) : State :=
  let t := setSt (thimbleReset (computeOff s)) st
  driveAlert (modPins t (fun p => { p with startup := 2, railsOff := false }))

/-- PWR_EN_ASSERT (R383, R386). -/
def execPwrEnAssert (s : State) : Out := .next (tryBoot (modPins s (fun p => { p with pwrEn := true })))

/-- PWR_EN_REMOVE (R331, R386): from STANDBY the device stays there; while RESET_N is low the Thimble stays in reset. -/
def execPwrEnRemove (s : State) : Out :=
  let s1 := modPins s (fun p => { p with pwrEn := false })
  if !s.pins.v72 || s.pins.resetLow then .next s1
  else if s.dev.st = .standby then
    .next (if s.pins.railsOff then clearCause (modPins s1 (fun p => { p with railsOff := false })) .device else s1)
  else .next (restart s1 .standby)

/-- RESET_N_ASSERT (R331, R385, R392): a pulse under 10 µs does not act (log entry 15); BOOT is entered, and the straps
are sampled. -/
def execResetNAssert (p : ResetPulse) (s : State) : Out :=
  let s1 := modPins s (fun q => { q with straps := p.slotId })
  if p.us < 10 then .next s1
  else
    let s2 := modPins s1 (fun q => { q with resetLow := true })
    .next (if s.pins.v72 && !s.pins.resetLow then modPins (restart s2 .boot) (fun q => { q with slotId := q.straps }) else s2)

/-- RESET_N_RELEASE (R385, R393): STANDBY and start-up from step 2; a low SB_RX forces recovery. -/
def execResetNRelease (sbRxLow : Bool) (s : State) : Out :=
  if s.pins.resetLow then
    let s1 := modPins s (fun p => { p with resetLow := false, sbRx := !sbRxLow })
    .next (if s.pins.v72 then
        setSt { s1 with fw := { s1.fw with recovery := sbRxLow, received := 0, recBuf := [] } } .standby
      else s1)
  else noEvent s

/-! ### Steps 4 to 9 (R201, R205, R383) -/

/-- PWR_GOOD (R383 step 4): every rail is in regulation; the straps' present levels wait for the next entry to BOOT
(R392). -/
def execPwrGood (slotId : Nat) (s : State) : Out :=
  if s.dev.st == .boot && s.pins.startup == 4 then
    .next (modPins s (fun p => { p with pwrGood := true, startup := 5, straps := slotId }))
  else noEvent s

/-- A repair applied: MEM_REPAIR, and one more spare in use (R201, R203). -/
def applyRepair (bolt : Bool) (s : State) (u : Nat) : State :=
  raiseEv (modMemUnit s (unitKey (u, bolt)) (fun v => { v with sparesUsed := min 0xFFFF (v.sparesUsed + 1) }))
    (srcMem bolt u) .memRepair []

/-- A row that cannot be repaired, or a channel that fails, sets the replacement flag (R201, R205). -/
def flagIf (s : State) (b : Bool) : State := { s with dev := { s.dev with replace := s.dev.replace || b } }

/-- The channels of the LPDDR5X rows in the repair list, and the layers of the bolt rows in it, as (slice, layer)
(R201, R202). -/
def listedChannels (s : State) : List Nat :=
  (s.health.repairs.filter (fun l => decide (64 * l < boltBase))).map (fun l => (unitOf (64 * l)).1)
def listedLayers (s : State) : List (Nat × Nat) :=
  (s.health.repairs.filter (fun l => decide (boltBase ≤ 64 * l))).map (fun l => ((unitOf (64 * l)).1, (rowLayer l).val))

/-- The spares of the units of one kind are all free: the rows are repaired anew. -/
def freeSpares (s : State) (bolt : Bool) : State :=
  { s with health := { s.health with units := s.health.units.map (fun e =>
    if decide (e.1 < 256) = bolt then (e.1, { e.2 with sparesUsed := 0 }) else e) } }

/-- Hard post-package repair of the rows listed, each in a channel, as far as the packages' repairs allow: `done` holds
the channel of each repair they made (R201). -/
def repairChannels : List Nat → List Nat → State → State
  | [], _, s => s
  | c :: cs, done, s =>
    if done.contains c then repairChannels cs (done.erase c) (applyRepair false s c)
    else repairChannels cs done (flagIf s true)

/-- What the channels' training starts from: the values of the last successful training, before the first one the factory's
base (R205, R351). -/
def trainStart (s : State) : List Nat :=
  if s.health.training.isEmpty then (List.range channels).map trainingBase else s.health.training

/-- LPDDR_TRAINING (R201, R205): the `failed` channels, the channel of each repair that the packages made, and the values
that a training without failure saves in flash. -/
def execLpddrTraining (failed repaired values : List Nat) (s : State) : Out :=
  if s.dev.st == .boot && s.pins.startup == 5 && !(runsRecovery s) then
    let s0 := { s with health := { s.health with trainFrom := trainStart s } }
    let s1 := repairChannels (listedChannels s) repaired (freeSpares s0 false)
    let s2 := (List.range channels).foldl (fun t c =>
      if failed.contains c then raiseEv t (srcMem false c) .memTrainFail [c]
      else modMemUnit t (256 + c) (fun u => { u with trained := true })) s1
    let s3 := if failed.isEmpty then { s2 with health := { s2.health with training := values } } else flagIf s2 true
    .next (modPins s3 (fun p => { p with startup := 6 }))
  else noEvent s

/-- SerDes training starts on all twelve ports (R223, R383 step 7). -/
def trainAll (s : State) : State := allPorts.foldl (fun t q => modPort t q untrained) s

/-- Spare rows for rows given as (slice, layer): 32 for each layer of a slice; `used` holds those taken (R201). -/
def repairRows : List (Nat × Nat) → List (Nat × Nat) → State → State
  | [], _, s => s
  | r :: rs, used, s =>
    if (used.filter (fun u => u == r)).length < spareRows then repairRows rs (r :: used) (applyRepair true s r.1)
    else repairRows rs used (flagIf s true)

/-- BOLT_SELF_TEST (R201, R331): at start-up and on WAKE, spare rows for every failing row, given by its slice and
its layer, and for every row in the repair list. -/
def execBoltSelfTest (slices layers : List Nat) (s : State) : Out :=
  if (s.dev.st == .boot || s.dev.st == .hibernate) && s.pins.startup == 6 then
    let s1 := repairRows (slices.zip layers ++ listedLayers s) [] (freeSpares s true)
    .next (modPins (trainAll s1) (fun p => { p with startup := 7, trainedAt := none }))
  else noEvent s

/-- The state for the end of start-up (R327, R328, R331): an interrupted drain goes on at step 4, one that never began
begins; the replacement flag leads to DRAINED, but for that of a full repair list (R202; log entry 56); a lost job is
cleared first, with scrubbing stopped (R207). -/
def endBoot (s : State) : State :=
  match drainCause s with
  | some (code, unit) =>
    if s.dev.resumed then
      setSt { s with dev := { s.dev with work := .drainClear, lostJob := false, retain := false }
                     health := { s.health with scrubbing := false } } .draining
    else startDrain { s with dev := { s.dev with lostJob := false } } code unit
  | none =>
    if s.dev.replace then setSt { s with dev := { s.dev with lostJob := false } } .drained
    else if s.dev.lostJob then
      { s with dev := { s.dev with work := .resetClear, retain := false }, health := { s.health with scrubbing := false } }
    else enterIdle s .ready

/-- t_fit, µs (R225). -/
def fitUs : Nat := 5000000

/-- Step 8 is over (R383 step 9): no port is LINKED and not FITTED, or t_fit has passed since step 7 ended. -/
def fitted (s : State) : Bool :=
  allPorts.all (fun q => (portOf s q).st != .linked) || s.pins.trainedAt.any (fun t => decide (t + fitUs ≤ s.nowUs))

/-- START_UP_COMPLETE (R331, R383 step 9). -/
def execStartUpComplete (s : State) : Out :=
  if s.pins.startup == 8 && fitted s then
    let s1 := { s with pins := { s.pins with startup := 9, upAt := some s.nowUs }, health := { s.health with scrubbing := true } }
    match s.dev.st with
    | .boot => .next (endBoot s1)
    | .hibernate => .next (enterIdle s1 (if s.dev.hibSpare then .spare else .ready))
    | _ => noEvent s
  else noEvent s

/-! ### Faults of rails and input (R331, R378, R386, R387, R389) -/

/-- RAIL_FAULT (R386): an assertion and release of RESET_N; a second one within 60 s leaves the rails off. -/
def execRailFault (s : State) : Out :=
  if s.pins.pwrGood then
    let again := s.pins.railFault.any (fun t => decide (s.nowUs < t + 60000000))
    let t := modPins (restart s .standby) (fun p => { p with railFault := some s.nowUs, railsOff := again })
    .next (if again then setCause t .device else t)
  else noEvent s

/-- The module is off (R331, R387, R389). -/
def inputLost (s : State) (k : State → State) : Out := if s.pins.v72 then .next (k (powerLost s)) else noEvent s

/-- UNDERVOLTAGE (R389): counts as a removal of 72 V. -/
def execUndervoltage (s : State) : Out := inputLost s id

/-- OVERVOLTAGE (R387): every rail off; counts as a removal of 72 V. -/
def execOvervoltage (s : State) : Out := inputLost s id

/-- OVERCURRENT (R387): every rail off, latched. -/
def execOvercurrent (s : State) : Out := inputLost s (fun t => modPins t (fun p => { p with latch := true }))

/-- OVERCURRENT_LATCH_RELEASE (R387). -/
def execOvercurrentLatchRelease (s : State) : Out :=
  if s.pins.latch then .next (modPins s (fun p => { p with latch := false })) else noEvent s

/-- POWER_72V_REMOVED (R331). -/
def execPower72vRemoved (s : State) : Out := inputLost s id

/-- TRIAL_TIMEOUT (R378): a trial image that does not finish its boot; the ROM returns to the previous slot. -/
def execTrialTimeout (s : State) : Out :=
  if s.fw.trial && s.fw.running == some s.fw.active && s.dev.st == .boot && !s.pins.resetLow then .next (restart s .standby)
  else noEvent s

/-! ### Lockstep (R322) -/

/-- Both cores restart from ROM, verify and run an image (R322, R367, R378); with none the ROM powers no compute rail
(R379). -/
def coresRestart (s : State) : State :=
  let v := romVerify [] (coresReset s)
  if v.fw.recovery then modPins (setSt (computeOff v) .standby) (fun p => { p with startup := 2 })
  else if s.dev.st = .standby then tryBoot v
  else modPins v (fun p => { p with startup := s.pins.startup })

/-- THIMBLE_LOCKSTEP (R322): the seam edge sends poison, both cores restart, and the restarted firmware records code 6
and drains the device. -/
def execThimbleLockstep (s : State) : Out :=
  if s.pins.v72 && !s.pins.resetLow then
    let t := coresRestart (if jobLoaded s && !s.fence.sent then sendPoison s 5 else s)
    .next (if t.fw.recovery then t else makeSuspect t 6 0xFFFF 0xFFFFFFFF)
  else noEvent s

/-! ### Test access port (R394) -/

/-- The port answers while the housekeeping rail is up; TDO carries the register's first bit (PRESUMED, IEEE 1149.1;
log entry 7). -/
def tapDo (s : State) (k : State → State) : Out :=
  .next (if s.pins.v72 then modPins (k s) (fun p => { p with tdo := bitOf p.tapDr 0 }) else s)

/-- IDCODE (R394). -/
def execIdcode (s : State) : Out :=
  tapDo s (fun t => modPins t (fun p => { p with tapIr := 1, tapDr := 0x1A9094C7, driven := false }))

/-- The bypass register is selected; it captures 0 (PRESUMED, IEEE 1149.1; log entry 7). -/
def tapBypass (p : Pins) : Pins := { p with tapIr := 0, tapDr := 0, driven := false }

/-- BYPASS (R394). -/
def execBypass (s : State) : Out := tapDo s (fun t => modPins t tapBypass)

/-- The levels of the sideband pins, in the order of R390. -/
def pinLevels (p : Pins) : List Bool :=
  [p.presentN, p.pwrEn, p.pwrGood, !p.resetLow, !p.alert, !p.tripped] ++ (List.range 6).map (bitOf p.straps) ++
  [p.sbTx, p.sbRx, p.tck, p.tms, p.tdi, p.tdo]

/-- The boundary-scan register captures the sideband pins (R394): the places of its cells are in a file that the spec does
not give (log entry 2). -/
def capturePins (s : State) (f : Pins → Pins) : State :=
  modPins s (fun p => f { p with tapDr := scanCells (pinLevels p) })

/-- SAMPLE_PRELOAD (R394): the pins are sampled, and the register is preloaded with `bits`. -/
def execSamplePreload (bits : Nat) (s : State) : Out :=
  tapDo s (fun t => capturePins t (fun p => { p with tapIr := 2, boundary := bits, driven := false }))

/-- EXTEST (R352, R394): acts while the EXTEST setting is 1, otherwise as BYPASS. -/
def execExtest (bits : Nat) (s : State) : Out :=
  tapDo s (fun t =>
    if setting t 0x172 0 = 1 then capturePins t (fun p => { p with tapIr := 3, boundary := bits, driven := true })
    else modPins t tapBypass)

end Sys2Proof.Machine
end

