-- ==== Sys2Proof/Machine/Dispatch.lean ====
section
/-! DEFINITION. The meaning of each command: one arm for each constructor of Instr. -/

namespace Sys2Proof.Machine

def exec (i : Instr) (s : State) : Host.Outcome State Fault Refusal :=
  match i with
  | .prod x => Sys2Proof.Machine.execProd x s
  | .fold x => Sys2Proof.Machine.execFold x s
  | .chain x => Sys2Proof.Machine.execChain x s
  | .rclr x => Sys2Proof.Machine.execRclr x s
  | .rfinMean x => Sys2Proof.Machine.execRfinMean x s
  | .rfinRms x => Sys2Proof.Machine.execRfinRms x s
  | .rfinLse x => Sys2Proof.Machine.execRfinLse x s
  | .rfinRmsb x => Sys2Proof.Machine.execRfinRmsb x s
  | .rfinSample x => Sys2Proof.Machine.execRfinSample x s
  | .rfinPick x => Sys2Proof.Machine.execRfinPick x s
  | .rsave x => Sys2Proof.Machine.execRsave x s
  | .rload x => Sys2Proof.Machine.execRload x s
  | .rchainSend x => Sys2Proof.Machine.execRchainSend x s
  | .rchainRecv x => Sys2Proof.Machine.execRchainRecv x s
  | .copy x => Sys2Proof.Machine.execCopy x s
  | .spush x => Sys2Proof.Machine.execSpush x s
  | .spop x => Sys2Proof.Machine.execSpop x s
  | .apply x => Sys2Proof.Machine.execApply x s
  | .coll x => Sys2Proof.Machine.execColl x s
  | .ingest x => Sys2Proof.Machine.execIngest x s
  | .ingestCopy op => Sys2Proof.Machine.execIngestCopy op s
  | .emit x => Sys2Proof.Machine.execEmit x s
  | .note x => Sys2Proof.Machine.execNote x s
  | .moverCompletion queue op => Sys2Proof.Machine.execMoverCompletion queue op s
  | .syncRelease mask phys => Sys2Proof.Machine.execSyncRelease mask phys s
  | .syncLate queue op => Sys2Proof.Machine.execSyncLate queue op s
  | .jump arg gap => Sys2Proof.Machine.execJump arg gap s
  | .loop ctr arg gap => Sys2Proof.Machine.execLoop ctr arg gap s
  | .setc ctr arg gap => Sys2Proof.Machine.execSetc ctr arg gap s
  | .halt gap => Sys2Proof.Machine.execHalt gap s
  | .microSetZero => Sys2Proof.Machine.execMicroSetZero s
  | .microAdd => Sys2Proof.Machine.execMicroAdd s
  | .microSetNone => Sys2Proof.Machine.execMicroSetNone s
  | .pmark => Sys2Proof.Machine.execPmark s
  | .grade gp => Sys2Proof.Machine.execGrade gp s
  | .gradeRecipe gp => Sys2Proof.Machine.execGradeRecipe gp s
  | .stepOpen gp entropy => Sys2Proof.Machine.execStepOpen gp entropy s
  | .fence gp => Sys2Proof.Machine.execFence gp s
  | .stepClose gp => Sys2Proof.Machine.execStepClose gp s
  | .idleStitch => Sys2Proof.Machine.execIdleStitch s
  | .markLatch mark cls unit => Sys2Proof.Machine.execMarkLatch mark cls unit s
  | .bankEmit p => Sys2Proof.Machine.execBankEmit p s
  | .tilePush e draw flt => Sys2Proof.Machine.execTilePush e draw flt s
  | .chainHopArrival e => Sys2Proof.Machine.execChainHopArrival e s
  | .headEntryArrival p phys => Sys2Proof.Machine.execHeadEntryArrival p phys s
  | .chainComplete p => Sys2Proof.Machine.execChainComplete p s
  | .nop p a => Sys2Proof.Machine.execNop p a s
  | .fadd p a => Sys2Proof.Machine.execFadd p a s
  | .fsub p a => Sys2Proof.Machine.execFsub p a s
  | .fmul p a => Sys2Proof.Machine.execFmul p a s
  | .ffma p a => Sys2Proof.Machine.execFfma p a s
  | .fmin p a => Sys2Proof.Machine.execFmin p a s
  | .fmax p a => Sys2Proof.Machine.execFmax p a s
  | .fabs p a => Sys2Proof.Machine.execFabs p a s
  | .fneg p a => Sys2Proof.Machine.execFneg p a s
  | .fcmp p a => Sys2Proof.Machine.execFcmp p a s
  | .sel p a => Sys2Proof.Machine.execSel p a s
  | .iadd p a => Sys2Proof.Machine.execIadd p a s
  | .iand p a => Sys2Proof.Machine.execIand p a s
  | .ior p a => Sys2Proof.Machine.execIor p a s
  | .ixor p a => Sys2Proof.Machine.execIxor p a s
  | .ishl p a => Sys2Proof.Machine.execIshl p a s
  | .ishr p a => Sys2Proof.Machine.execIshr p a s
  | .f2i p a => Sys2Proof.Machine.execF2i p a s
  | .i2f p a => Sys2Proof.Machine.execI2f p a s
  | .lane p a => Sys2Proof.Machine.execLane p a s
  | .idx p a => Sys2Proof.Machine.execIdx p a s
  | .hdr p a => Sys2Proof.Machine.execHdr p a s
  | .chalk p a => Sys2Proof.Machine.execChalk p a s
  | .perm p a => Sys2Proof.Machine.execPerm p a s
  | .bcast p a => Sys2Proof.Machine.execBcast p a s
  | .ldt p a => Sys2Proof.Machine.execLdt p a s
  | .ldb p a => Sys2Proof.Machine.execLdb p a s
  | .stb p a => Sys2Proof.Machine.execStb p a s
  | .qnt e a => Sys2Proof.Machine.execQnt e a s
  | .acc p a => Sys2Proof.Machine.execAcc p a s
  | .cvt16 p a => Sys2Proof.Machine.execCvt16 p a s
  | .rand p a => Sys2Proof.Machine.execRand p a s
  | .drop p a => Sys2Proof.Machine.execDrop p a s
  | .rpush p a => Sys2Proof.Machine.execRpush p a s
  | .rget p a => Sys2Proof.Machine.execRget p a s
  | .spill p phys => Sys2Proof.Machine.execSpill p phys s
  | .spoolReturnDone p phys => Sys2Proof.Machine.execSpoolReturnDone p phys s
  | .basteCaptureDone hub => Sys2Proof.Machine.execBasteCaptureDone hub s
  | .basteCaptureAbandon hub => Sys2Proof.Machine.execBasteCaptureAbandon hub s
  | .basteCheckDone hub flt => Sys2Proof.Machine.execBasteCheckDone hub flt s
  | .fenceHoldEnd phys => Sys2Proof.Machine.execFenceHoldEnd phys s
  | .caseResolve hub slot fltW fltC flt3 => Sys2Proof.Machine.execCaseResolve hub slot fltW fltC flt3 s
  | .fenceTimeout rank => Sys2Proof.Machine.execFenceTimeout rank s
  | .idleFlit port h => Sys2Proof.Machine.execIdleFlit port h s
  | .headFlit port h b => Sys2Proof.Machine.execHeadFlit port h b s
  | .dataFlit port h b => Sys2Proof.Machine.execDataFlit port h b s
  | .collFold desc micro segment => Sys2Proof.Machine.execCollFold desc micro segment s
  | .poisonFlit port h b => Sys2Proof.Machine.execPoisonFlit port h b s
  | .voteFlit port h b => Sys2Proof.Machine.execVoteFlit port h b s
  | .gateFlit port h wake => Sys2Proof.Machine.execGateFlit port h wake s
  | .hello port h b nonce => Sys2Proof.Machine.execHello port h b nonce s
  | .proof port h b nonce => Sys2Proof.Machine.execProof port h b nonce s
  | .reservedFlit port h => Sys2Proof.Machine.execReservedFlit port h s
  | .badFlit port => Sys2Proof.Machine.execBadFlit port s
  | .seamReplay port => Sys2Proof.Machine.execSeamReplay port s
  | .helloTimer port nonce => Sys2Proof.Machine.execHelloTimer port nonce s
  | .fitTimeout port => Sys2Proof.Machine.execFitTimeout port s
  | .linkTraining port r nonce => Sys2Proof.Machine.execLinkTraining port r nonce s
  | .laneWake port => Sys2Proof.Machine.execLaneWake port s
  | .portTest port pass => Sys2Proof.Machine.execPortTest port pass s
  | .write k bs => Sys2Proof.Machine.execWrite k bs s
  | .ready k count => Sys2Proof.Machine.execReady k count s
  | .hemlineFence k => Sys2Proof.Machine.execHemlineFence k s
  | .fenceW flow psn => Sys2Proof.Machine.execFenceW flow psn s
  | .fenceAll flow psn => Sys2Proof.Machine.execFenceAll flow psn s
  | .ack k b => Sys2Proof.Machine.execAck k b s
  | .ctrl k mailbox ring abort off bs => Sys2Proof.Machine.execCtrl k mailbox ring abort off bs s
  | .mbAbort mailbox => Sys2Proof.Machine.execMbAbort mailbox s
  | .setupOffer b answerNonce => Sys2Proof.Machine.execSetupOffer b answerNonce s
  | .setupFinish b => Sys2Proof.Machine.execSetupFinish b s
  | .close k => Sys2Proof.Machine.execClose k s
  | .arp x target => Sys2Proof.Machine.execArp x target s
  | .neighborDiscovery x target => Sys2Proof.Machine.execNeighborDiscovery x target s
  | .icmpEcho x => Sys2Proof.Machine.execIcmpEcho x s
  | .pfc x mask => Sys2Proof.Machine.execPfc x mask s
  | .droppedFrame port c => Sys2Proof.Machine.execDroppedFrame port c s
  | .ackDelayExpiry flow => Sys2Proof.Machine.execAckDelayExpiry flow s
  | .retransmitTimeout flow => Sys2Proof.Machine.execRetransmitTimeout flow s
  | .ratePeriod flow => Sys2Proof.Machine.execRatePeriod flow s
  | .flowTimeout flow => Sys2Proof.Machine.execFlowTimeout flow s
  | .hostLinkUp port => Sys2Proof.Machine.execHostLinkUp port s
  | .hostLinkDown port => Sys2Proof.Machine.execHostLinkDown port s
  | .mailboxClaimTimeout mailbox => Sys2Proof.Machine.execMailboxClaimTimeout mailbox s
  | .sessionIdleTimeout session => Sys2Proof.Machine.execSessionIdleTimeout session s
  | .setupExpiry port addr => Sys2Proof.Machine.execSetupExpiry port addr s
  | .epochAgeLimit session => Sys2Proof.Machine.execEpochAgeLimit session s
  | .epochGraceEnd session => Sys2Proof.Machine.execEpochGraceEnd session s
  | .identify m => Sys2Proof.Machine.execIdentify m s
  | .jobLoadBegin m => Sys2Proof.Machine.execJobLoadBegin m s
  | .jobLoadCommit m => Sys2Proof.Machine.execJobLoadCommit m s
  | .jobRelease m => Sys2Proof.Machine.execJobRelease m s
  | .jobEnd m => Sys2Proof.Machine.execJobEnd m s
  | .jobStatus m => Sys2Proof.Machine.execJobStatus m s
  | .recipeSet m => Sys2Proof.Machine.execRecipeSet m s
  | .flagClear m => Sys2Proof.Machine.execFlagClear m s
  | .remap m => Sys2Proof.Machine.execRemap m s
  | .baseLoadBegin m => Sys2Proof.Machine.execBaseLoadBegin m s
  | .baseLoadCommit m => Sys2Proof.Machine.execBaseLoadCommit m s
  | .flowOpen m => Sys2Proof.Machine.execFlowOpen m s
  | .flowClose m => Sys2Proof.Machine.execFlowClose m s
  | .flowStatus m => Sys2Proof.Machine.execFlowStatus m s
  | .snapshot m => Sys2Proof.Machine.execSnapshot m s
  | .snapshotCancel m => Sys2Proof.Machine.execSnapshotCancel m s
  | .restore m => Sys2Proof.Machine.execRestore m s
  | .snapshotPageCopy page => Sys2Proof.Machine.execSnapshotPageCopy page s
  | .restoreChunk chunk => Sys2Proof.Machine.execRestoreChunk chunk s
  | .spare m => Sys2Proof.Machine.execSpare m s
  | .spareExit m => Sys2Proof.Machine.execSpareExit m s
  | .fill m => Sys2Proof.Machine.execFill m s
  | .drain m => Sys2Proof.Machine.execDrain m s
  | .undrain m => Sys2Proof.Machine.execUndrain m s
  | .selfTest m => Sys2Proof.Machine.execSelfTest m s
  | .hibernate m => Sys2Proof.Machine.execHibernate m s
  | .wake m => Sys2Proof.Machine.execWake m s
  | .powerBudget m => Sys2Proof.Machine.execPowerBudget m s
  | .coolingReport m => Sys2Proof.Machine.execCoolingReport m s
  | .sensorRead m => Sys2Proof.Machine.execSensorRead m s
  | .sensorClear m => Sys2Proof.Machine.execSensorClear m s
  | .lifetimeRead m => Sys2Proof.Machine.execLifetimeRead m s
  | .txnBegin m => Sys2Proof.Machine.execTxnBegin m s
  | .txnSet m => Sys2Proof.Machine.execTxnSet m s
  | .txnCommit m => Sys2Proof.Machine.execTxnCommit m s
  | .txnRollback m => Sys2Proof.Machine.execTxnRollback m s
  | .txnCommitPoint => Sys2Proof.Machine.execTxnCommitPoint s
  | .txnExpired => Sys2Proof.Machine.execTxnExpired s
  | .configGet m => Sys2Proof.Machine.execConfigGet m s
  | .calRead m => Sys2Proof.Machine.execCalRead m s
  | .eventRead m => Sys2Proof.Machine.execEventRead m s
  | .markRequest m => Sys2Proof.Machine.execMarkRequest m s
  | .counterRead m => Sys2Proof.Machine.execCounterRead m s
  | .frayReportRead m => Sys2Proof.Machine.execFrayReportRead m s
  | .verdictRead m => Sys2Proof.Machine.execVerdictRead m s
  | .drainRecordRead m => Sys2Proof.Machine.execDrainRecordRead m s
  | .alertCauses m => Sys2Proof.Machine.execAlertCauses m s
  | .noteWatch m => Sys2Proof.Machine.execNoteWatch m s
  | .noteRead m => Sys2Proof.Machine.execNoteRead m s
  | .traceRead m => Sys2Proof.Machine.execTraceRead m s
  | .memInject m => Sys2Proof.Machine.execMemInject m s
  | .portRetrain m => Sys2Proof.Machine.execPortRetrain m s
  | .certRead m => Sys2Proof.Machine.execCertRead m s
  | .attest m => Sys2Proof.Machine.execAttest m s
  | .ownerSet m => Sys2Proof.Machine.execOwnerSet m s
  | .keyUpdate m => Sys2Proof.Machine.execKeyUpdate m s
  | .sessionEnd m => Sys2Proof.Machine.execSessionEnd m s
  | .fwBegin m => Sys2Proof.Machine.execFwBegin m s
  | .fwCommit m => Sys2Proof.Machine.execFwCommit m s
  | .fwActivate m => Sys2Proof.Machine.execFwActivate m s
  | .fwConfirm m => Sys2Proof.Machine.execFwConfirm m s
  | .fwStatus m => Sys2Proof.Machine.execFwStatus m s
  | .clearRecordRead m => Sys2Proof.Machine.execClearRecordRead m s
  | .registerAccess source => Sys2Proof.Machine.execRegisterAccess source s
  | .scrubRead bolt unit overwritten => Sys2Proof.Machine.execScrubRead bolt unit overwritten s
  | .memCeRate bolt unit => Sys2Proof.Machine.execMemCeRate bolt unit s
  | .lpddrTracking channel => Sys2Proof.Machine.execLpddrTracking channel s
  | .clearingDone nonzero => Sys2Proof.Machine.execClearingDone nonzero s
  | .scanDone r => Sys2Proof.Machine.execScanDone r s
  | .clearSigned => Sys2Proof.Machine.execClearSigned s
  | .spareScan => Sys2Proof.Machine.execSpareScan s
  | .thimbleLockstep => Sys2Proof.Machine.execThimbleLockstep s
  | .powerWindow p pCore vIn vCore => Sys2Proof.Machine.execPowerWindow p pCore vIn vCore s
  | .capUnmet => Sys2Proof.Machine.execCapUnmet s
  | .budgetExpired => Sys2Proof.Machine.execBudgetExpired s
  | .sensorSample rs => Sys2Proof.Machine.execSensorSample rs s
  | .sensorSkew panel => Sys2Proof.Machine.execSensorSkew panel s
  | .sensorSuspect panel => Sys2Proof.Machine.execSensorSuspect panel s
  | .forcedStateEnd => Sys2Proof.Machine.execForcedStateEnd s
  | .thetaUpdate pMean tjMean steady => Sys2Proof.Machine.execThetaUpdate pMean tjMean steady s
  | .coolStale => Sys2Proof.Machine.execCoolStale s
  | .coolReportSkew => Sys2Proof.Machine.execCoolReportSkew s
  | .pinch sleeve => Sys2Proof.Machine.execPinch sleeve s
  | .pinchEnd sleeve stillLow => Sys2Proof.Machine.execPinchEnd sleeve stillLow s
  | .pinchRate sleeve count => Sys2Proof.Machine.execPinchRate sleeve count s
  | .clockSwitch => Sys2Proof.Machine.execClockSwitch s
  | .gradeDeferred => Sys2Proof.Machine.execGradeDeferred s
  | .clockTrim island => Sys2Proof.Machine.execClockTrim island s
  | .power72vPresent slotId => Sys2Proof.Machine.execPower72vPresent slotId s
  | .firmwareVerify badConfig => Sys2Proof.Machine.execFirmwareVerify badConfig s
  | .pwrEnAssert => Sys2Proof.Machine.execPwrEnAssert s
  | .pwrEnRemove => Sys2Proof.Machine.execPwrEnRemove s
  | .resetNAssert us => Sys2Proof.Machine.execResetNAssert us s
  | .resetNRelease sbRxLow => Sys2Proof.Machine.execResetNRelease sbRxLow s
  | .pwrGood slotId => Sys2Proof.Machine.execPwrGood slotId s
  | .lpddrTraining failed repaired values => Sys2Proof.Machine.execLpddrTraining failed repaired values s
  | .boltSelfTest slices layers => Sys2Proof.Machine.execBoltSelfTest slices layers s
  | .startUpComplete => Sys2Proof.Machine.execStartUpComplete s
  | .railFault => Sys2Proof.Machine.execRailFault s
  | .undervoltage => Sys2Proof.Machine.execUndervoltage s
  | .overvoltage => Sys2Proof.Machine.execOvervoltage s
  | .overcurrent => Sys2Proof.Machine.execOvercurrent s
  | .overcurrentLatchRelease => Sys2Proof.Machine.execOvercurrentLatchRelease s
  | .power72vRemoved => Sys2Proof.Machine.execPower72vRemoved s
  | .trialTimeout => Sys2Proof.Machine.execTrialTimeout s
  | .recoveryFrame bs crc => Sys2Proof.Machine.execRecoveryFrame bs crc s
  | .idcode => Sys2Proof.Machine.execIdcode s
  | .bypass => Sys2Proof.Machine.execBypass s
  | .samplePreload bits => Sys2Proof.Machine.execSamplePreload bits s
  | .extest bits => Sys2Proof.Machine.execExtest bits s
  | .next gap => Sys2Proof.Machine.execNext gap s

end Sys2Proof.Machine
end

