-- ==== Sys2Proof/Machine/Storage.lean ====
section
/-! DEFINITION. Where LPDDR5X keeps its lines (R195): segments of 1,024 bytes with their check areas and segment
words, and the bytes that a channel stores. -/

namespace Sys2Proof.Machine

open Sys2Proof.Config

/-- The storage byte of usable byte a of a channel: byte a mod 64 of data line ⌊a / 64⌋ mod 14 of segment ⌊a / 896⌋
(R195). -/
def storageByte (a : Nat) : Nat := 1024 * (a / 896) + 64 * (a / 64 % 14) + a % 64

/-- The storage bytes of the check bytes of usable byte a's line begin here: byte 8j of the segment's check area for data
line j (R195). -/
def storageCheck (a : Nat) : Nat := 1024 * (a / 896) + 896 + 8 * (a / 64 % 14)

/-- The address of line j of segment k of channel c (R186, R195). -/
def segmentLine (c k j : Nat) : Nat := (channelBytes * c + 896 * k + 64 * j) / 64

/-- The segment word: the poison bits of the 14 data lines in [13:0] (R195). -/
def segmentWord (s : State) (c k : Nat) : Nat :=
  ((List.range 14).map (fun j => if s.health.poison.contains (segmentLine c k j) then 2 ^ j else 0)).sum

/-- The stored codeword of a line: its 64 bytes and 8 check bytes, with the stored errors (R194, R195, R208). -/
def storedWord (s : State) (l : Nat) : List Byte :=
  let bs := memBytes s.mem (64 * l) 64
  xorBytes (bs ++ rsCheck 8 bs) (tabGet [] s.health.errors l)

/-- The check area of a segment: the check bytes of its data lines, the segment word and the check bytes of RS(16,8)
(R195). -/
def checkArea (s : State) (c k : Nat) : List Byte :=
  let w := leBytes 8 (segmentWord s c k)
  (List.range 14).flatMap (fun j => (storedWord s (segmentLine c k j)).drop 64) ++ w ++ rsCheck 8 w

/-- The 1,024 bytes of segment k of channel c as stored: 14 data lines and the check area (R195). -/
def segmentBytes (s : State) (c k : Nat) : List Byte :=
  (List.range 14).flatMap (fun j => (storedWord s (segmentLine c k j)).take 64) ++ checkArea s c k

end Sys2Proof.Machine
end

