-- ==== Sys2Proof/WellFormed.lean ====
section
/-! DEFINITION. Well-formed commands: every operand lies in the range that the spec gives its field. -/

namespace Sys2Proof

open Sys2Proof.Machine

/-- PSET and DESC of a slot (R166, R25). -/
def SlotRef.ok (x : SlotRef) : Bool := decide (x.pset < 1024) && decide (x.desc < 16384)

/-- A mover slot: queue, PSET, DESC (R166, R169). -/
def MovRef.ok (x : MovRef) : Bool := decide (x.queue < 8) && decide (x.pset < 1024) && decide (x.desc < 16384)

/-- The fields of a needle instruction word (R100) on a panel (R17). -/
def needleOk (p : Nat) (a : NArgs) : Bool :=
  decide (p < Config.panels) && decide (a.vd < 16) && decide (a.va < 16) && decide (a.vb < 16) &&
    decide (a.vc < 16) && decide (a.pred < 4) && decide (a.sub < 8)

/-- A seam flit header of a TYPE (R214) on a port (R210). -/
def flitOk (port ty : Nat) (h : FlitHdr) : Bool :=
  decide (port < 12) && decide (h.type = ty) && decide (h.crd < 32) && decide (h.seq < 2048) && decide (h.ack < 2048)

/-- A hemline packet header (R241) on a host port. -/
def pktOk (k : Pkt) : Bool :=
  decide (k.port < 2) && decide (k.dstFlow < 2 ^ 18) && decide (k.psn < 2 ^ 32) && decide (k.srcFlow < 2 ^ 18) &&
    decide (k.length ≤ 8192) && decide (k.offset < 2 ^ 40) && decide (k.step < 2 ^ 32) && decide (k.epoch < 2 ^ 16)

/-- GAP of a stitch (R165). -/
def gapOk (gap : Nat) : Bool := decide (gap < 65536)

/-- Whether a command's operands lie in their ranges. -/
def Instr.wellFormed (i : Instr) : Bool :=
  match i with
  | .prod x | .fold x | .chain x | .rclr x | .rfinMean x | .rfinRms x | .rfinLse x | .rfinRmsb x
  | .rfinSample x | .rfinPick x | .rsave x | .rload x | .rchainSend x | .rchainRecv x => x.ok
  | .copy x | .spush x | .spop x | .apply x | .coll x | .ingest x | .emit x | .note x => x.ok
  | .moverCompletion q _ | .syncLate q _ => decide (q < 8)
  | .syncRelease m _ => decide (m < 256)
  | .jump a g => decide (a < 2 ^ 20) && gapOk g
  | .loop c a g | .setc c a g => decide (c < 4) && decide (a < 2 ^ 20) && gapOk g
  | .halt g | .next g => gapOk g
  | .grade gp | .gradeRecipe gp | .stepOpen gp _ | .fence gp | .stepClose gp => decide (gp < 4096)
  | .markLatch _ c _ => decide (1 ≤ c) && decide (c ≤ 11)
  | .bankEmit p | .tilePush ⟨p, _⟩ _ _ | .chainHopArrival ⟨p, _⟩ | .headEntryArrival p _ | .chainComplete p
  | .spill p _ | .spoolReturnDone p _ | .sensorSkew p | .sensorSuspect p => decide (p < Config.panels)
  | .nop p a | .fadd p a | .fsub p a | .fmul p a | .ffma p a | .fmin p a | .fmax p a | .fabs p a
  | .fneg p a | .fcmp p a | .sel p a | .iadd p a | .iand p a | .ior p a | .ixor p a | .ishl p a
  | .ishr p a | .f2i p a | .i2f p a | .lane p a | .idx p a | .hdr p a | .chalk p a | .perm p a
  | .bcast p a | .ldt p a | .ldb p a | .stb p a | .qnt ⟨p, _⟩ a | .acc p a | .cvt16 p a | .rand p a
  | .drop p a | .rpush p a | .rget p a => needleOk p a
  | .basteCaptureDone h | .basteCaptureAbandon h | .basteCheckDone h _ => decide (h < Config.sleeves)
  | .caseResolve h k _ _ _ => decide (h < Config.sleeves) && decide (k < 4)
  | .pinch h | .pinchEnd h _ | .pinchRate h _ => decide (h < Config.sleeves)
  | .fenceTimeout r => decide (r < 72)
  | .idleFlit p h => flitOk p 0 h
  | .headFlit p h _ => flitOk p 1 h
  | .dataFlit p h b => flitOk p 2 h && decide (b.length = 480)
  | .hello p h _ _ | .proof p h _ _ => flitOk p 3 h
  | .poisonFlit p h _ => flitOk p 4 h
  | .voteFlit p h _ => flitOk p 5 h
  | .gateFlit p h _ => flitOk p 6 h
  | .reservedFlit p h => flitOk p (max 7 (h.type % 16)) h
  | .badFlit p | .seamReplay p | .helloTimer p _ | .fitTimeout p | .laneWake p
  | .portTest p _ => decide (p < 12)
  | .linkTraining p r _ =>
    decide (p < 12) && (let full := if p < 8 then 8 else 4; r.width == 0 || (!r.late && (r.width == full || 2 * r.width == full)))
  | .collFold d m _ => decide (d < 16384) && decide (m < 65536)
  | .write k bs => pktOk k && decide (bs.length = k.length)
  | .ready k c => pktOk k && decide (c < 2 ^ 32)
  | .hemlineFence k | .ack k _ | .close k => pktOk k
  | .ctrl k m _ _ o bs => pktOk k && decide (m < 16) && decide (o < 4096) && decide (bs.length + 8 = k.length)
  | .fenceW f _ | .fenceAll f _ | .ackDelayExpiry f | .retransmitTimeout f | .ratePeriod f
  | .flowTimeout f => decide (f < Config.flowContexts)
  | .mbAbort m | .mailboxClaimTimeout m => decide (m < 16)
  | .setupOffer b _ | .setupFinish b => decide (b.port < 2)
  | .droppedFrame p _ | .hostLinkUp p | .hostLinkDown p | .setupExpiry p _ => decide (p < 2)
  | .arp x _ | .neighborDiscovery x _ | .icmpEcho x => decide (x.port < 2)
  | .pfc x m => decide (x.port < 2) && decide (m < 256)
  | .identify m | .jobLoadBegin m | .jobLoadCommit m | .jobRelease m | .jobEnd m | .jobStatus m
  | .recipeSet m | .flagClear m | .remap m | .baseLoadBegin m | .baseLoadCommit m | .flowOpen m
  | .flowClose m | .flowStatus m | .snapshot m | .snapshotCancel m | .restore m | .spare m | .spareExit m
  | .fill m | .drain m | .undrain m | .selfTest m | .hibernate m | .wake m | .powerBudget m
  | .coolingReport m | .sensorRead m | .sensorClear m | .lifetimeRead m | .txnBegin m | .txnSet m
  | .txnCommit m | .txnRollback m | .configGet m | .calRead m | .eventRead m | .markRequest m
  | .counterRead m | .frayReportRead m | .verdictRead m | .drainRecordRead m | .alertCauses m
  | .noteWatch m | .noteRead m | .traceRead m | .memInject m | .portRetrain m | .certRead m | .attest m
  | .ownerSet m | .keyUpdate m | .sessionEnd m | .fwBegin m | .fwCommit m | .fwActivate m | .fwConfirm m
  | .fwStatus m | .clearRecordRead m => decide (m < 16)
  | .scrubRead b u _ | .memCeRate b u => if b then decide (u < Config.panels) else decide (u < Config.channels)
  | .lpddrTraining f r _ => f.all (fun c => decide (c < Config.channels)) && r.all (fun c => decide (c < Config.channels))
  | .boltSelfTest rs ls => decide (rs.length = ls.length) && rs.all (fun r => decide (r < Config.panels)) &&
    ls.all (fun l => decide (l < 4))
  | .lpddrTracking c => decide (c < Config.channels)
  | .power72vPresent p => decide (p.slotId < 64)
  | .resetNAssert p => decide (p.slotId < 64)
  | .pwrGood i => decide (i < 64)
  | .recoveryFrame bs c => decide (bs.length = 1024) && decide (c < 2 ^ 32)
  | .ingestCopy _ | .microSetZero | .microAdd | .microSetNone | .pmark | .idleStitch | .fenceHoldEnd _
  | .sessionIdleTimeout _ | .epochAgeLimit _ | .epochGraceEnd _ | .snapshotPageCopy _ | .restoreChunk _
  | .txnCommitPoint | .txnExpired | .registerAccess _ | .clearingDone _ | .scanDone _ | .clearSigned
  | .spareScan | .thimbleLockstep | .powerWindow _ _ _ _ | .capUnmet | .budgetExpired | .sensorSample _
  | .forcedStateEnd | .thetaUpdate _ _ _ | .coolStale | .coolReportSkew | .clockSwitch | .gradeDeferred
  | .clockTrim _ | .firmwareVerify _ | .pwrEnAssert | .pwrEnRemove | .resetNRelease _
  | .startUpComplete | .railFault | .undervoltage | .overvoltage
  | .overcurrent | .overcurrentLatchRelease | .power72vRemoved | .trialTimeout | .idcode | .bypass
  | .samplePreload _ | .extest _ => true

end Sys2Proof
end

