-- ==== Sys2Proof/Safety.lean ====
section
/-! DEFINITION. What counts as a safe run: the invariant that every step keeps. -/

namespace Sys2Proof.Machine

/-- Every memory and buffer of the machine is in canonical form. -/
def State.memWf (s : State) : Bool := Memory.wf s.mem

end Sys2Proof.Machine
end

