-- ==== Sys2Proof/Certificates/Slice0/Obligations.lean ====
section
/-! DEFINITION. The statements for the provers. The helper predicates say when a command completes and what
an instruction changes; each statement names the rules it formalises. -/

open Sys2Proof Sys2Proof.Machine Sys2Proof.Config

namespace Sys2Proof.Claims

/-- The job of package `p` runs: loaded, not held, not stopped, RUNNING (R18, R180). -/
def jobRuns (s : State) (p : Package) : Prop := s.job.pkg = some p ∧ running s = true

/-- The shuttle issues stitches of package `p`: the job runs, no stitch waits under SYNC (R169), the check fence holds
none (R160), and no step that was abandoned waits for its STEP_OPEN (R180). -/
def streamRuns (s : State) (p : Package) : Prop := jobRuns s p ∧ Machine.issuing s = true

/-- Panel `q` runs a pass of chain `c` (R96, R97, R118). -/
def inPass (s : State) (q : Nat) (p : Package) (c : ChainRun) : Prop :=
  jobRuns s p ∧ (panelOf s q).chain = some c ∧ c.waiting = false ∧ c.pass < chainPasses c

/-- The state after an instruction of latency `lat` that leaves the lanes `ls`: the chain moves on, ISSUE counts one
cycle for each group (R105, R117), and nothing else changes. -/
def afterInstr (s : State) (q : Nat) (c : ChainRun) (lat : Nat) (ls : List Lane) : State :=
  modPanel s q (fun w => { w with
    chain := some (advanceChain c (headTile s q) lat ls)
    ndl := { w.ndl with issue := sat32 (w.ndl.issue + passGroups c c.pass) } })

/-- The active lanes take `f` in the destination register; the other lanes keep theirs (R99, R100). -/
def intoVd (a : NArgs) (f : Lane → W32) (ls : List Lane) : List Lane :=
  ls.map (fun l => if laneActs a l then setV l a.vd (f l) else l)

/-- The instructions on two operands and their functions (R101). -/
def twoOperand : List ((Nat → NArgs → Instr) × (W32 → W32 → W32)) :=
  [(.fadd, f32Add), (.fsub, f32Sub), (.fmul, f32Mul), (.fmin, f32Min), (.fmax, f32Max),
   (.iadd, fun x y => x + y), (.iand, fun x y => x &&& y), (.ior, fun x y => x ||| y), (.ixor, fun x y => x ^^^ y),
   (.ishl, fun x y => x <<< (y.toNat % 32)), (.ishr, fun x y => x >>> (y.toNat % 32))]

/-- The instructions on one operand and their functions (R101). -/
def oneOperand : List ((Nat → NArgs → Instr) × (W32 → W32)) :=
  [(.fabs, f32AbsOp), (.fneg, f32NegOp), (.f2i, f32ToInt), (.i2f, f32OfInt)]

/-- As `afterInstr`, for an instruction that has left the state `u`: a chain that its own memory access ended stays
ended (R95, R119). -/
def afterEffect (s u : State) (q : Nat) (c : ChainRun) (lat : Nat) (ls : List Lane) : State :=
  modPanel u q (fun w => { w with
    chain := w.chain.map (fun _ => advanceChain c (headTile s q) lat ls)
    ndl := { w.ndl with issue := sat32 (w.ndl.issue + passGroups c c.pass) } })

/-- Binding `n` of a chain is tensor `t`, descriptor `d`, and its planes lie in the address map (R96, R102). -/
def bound (s : State) (q : Nat) (p : Package) (c : ChainRun) (n d : Nat) (t : TensorDesc) : Prop :=
  c.bind.binds.getD n none = some d ∧ tensorOf p d = some t ∧ planesOk t (planesAt s p q d t c.micro) = true

/-- The planes of a bound tensor, in the chain's micro-batch. -/
def boundPlanes (s : State) (q : Nat) (p : Package) (c : ChainRun) (d : Nat) (t : TensorDesc) : Planes :=
  planesAt s p q d t c.micro

/-- The state after the wait for a binding: it counts where the spool extension serves it (R126, R132). -/
def bindWait (s : State) (q : Nat) (c : ChainRun) (d : Nat) (t : TensorDesc) : State :=
  waitExt s q (servedExt s q t.spooled d c.micro)

/-- The draw of a chain for a tag at a lane's index (R71); the chain keeps STEP and MICRO of the stitch that started it
(log entry 64, the model's reading). -/
def chainDraw (p : Package) (c : ChainRun) (tag : Nat) (l : Lane) : W32 := drawFor p c.step c.micro tag l.index

/-- The lanes of a pass in which an instruction acts, in ascending position. -/
def actives (a : NArgs) (c : ChainRun) : List Lane := c.lanes.filter (laneActs a)

/-- The block that begins group `lg` of a tensor: group g of line l (R39, R40). -/
def firstBlock (t : TensorDesc) (lg : Nat × Nat) : Nat := lg.1 * lineBlocks t + lg.2 * spanOf t

/-- Every element of a group waits in the output path of panel `q` (R88). -/
def groupFull (s : State) (q d micro : Nat) (t : TensorDesc) (lg : Nat × Nat) : Prop :=
  ∀ b ∈ groupIndices t lg.1 lg.2, ∀ i ∈ b, (pendingElem (panelOf s q).foldIn d micro i).isSome = true

/-- The source elements of a group that waits, block by block. -/
def groupSources (s : State) (q d micro : Nat) (t : TensorDesc) (lg : Nat × Nat) : List (List SrcElem) :=
  (groupIndices t lg.1 lg.2).map (fun b => b.map (fun i =>
    ((pendingElem (panelOf s q).foldIn d micro i).map (fun e => (⟨e.val, e.draw⟩ : SrcElem))).getD ⟨0#32, 0#32⟩))

/-- A group that has all its elements is folded and its elements leave the output path (R88); another one waits. -/
def foldedWhenFull (q d micro : Nat) (t : TensorDesc) (pl : Planes) (s : State) (lg : Nat × Nat) : State :=
  if (groupIndices t lg.1 lg.2).all (fun b => b.all (fun i => (pendingElem (panelOf s q).foldIn d micro i).isSome)) then
    modPanel (foldInto s t (fun _ => (q, pl)) [(firstBlock t lg, groupSources s q d micro t lg)] {}).1 q (fun w => { w with
      foldIn := w.foldIn.filter (fun e =>
        !(e.desc == d && e.micro == micro && (groupIndices t lg.1 lg.2).any (fun b => b.contains e.index))) })
  else s

/-- Address `x` is one of the `n` bytes from offset `o` of a place. -/
def placeHas (pl : Place) (o n x : Nat) : Prop := ∃ e ∈ placePieces pl o n, e.1 ≤ x ∧ x < e.1 + e.2

/-- The row descriptor of a chain: binding 3 (R401). -/
def boundRow (q : Nat) (p : Package) (c : ChainRun) (rd : RowDesc) : Prop :=
  ∃ d, c.bind.binds.getD 3 none = some d ∧ rowOf p d = some rd ∧
    ∀ l ∈ c.lanes, l.p0 = true → rowsOk q rd (rd.base + (laneRow c l).1) 1 = true

/-- Slots act: the shuttle issues, and no part of the step is abandoned (R95, R166). -/
def slotsAct (s : State) (p : Package) : Prop := streamRuns s p ∧ s.fence.abandoned = false

/-- The state in which a slot waits in the stitch FIFO of each panel of its set, `mk j` being the slot of the panel at
position `j` (R166, R172). -/
def allWait (s : State) (ps : List Nat) (mk : Nat → FifoSlot) : State :=
  (List.range ps.length).foldl (fun u j => modPanel u (ps.getD j 0) (fun w => { w with fifo := w.fifo ++ [mk j] })) s

/-- A row slot acts: the job issues, its descriptor is ROW `rd`, the records of every panel of its set exist, and no panel
holds it (R116, R172; which waits hold a slot is the model's reading, log entry 80). -/
def rowSlotOf (s : State) (p : Package) (x : SlotRef) (rd : RowDesc) : Prop :=
  slotsAct s p ∧ rowOf p x.desc = some rd ∧ ∀ q ∈ slotPanels s p x.pset, rowsExist q rd = true ∧ rowHeld p (panelOf s q) = false

/-- No slot waits in a stitch FIFO. -/
def noSlots (s : State) : Prop := ∀ e ∈ s.panels, e.2.fifo = []

/-- The row operations and their codes (R166). -/
def rowOps : List ((SlotRef → Instr) × Nat) :=
  [(.rclr, 1), (.rfinMean, 2), (.rfinRms, 3), (.rfinLse, 4), (.rfinRmsb, 5), (.rfinSample, 6), (.rfinPick, 7), (.rsave, 8),
    (.rload, 9), (.rchainSend, 10), (.rchainRecv, 11)]

/-- The records of a row slot lie in pocket memory (R110). -/
def inPocket (rd : RowDesc) : Prop := rd.base + rd.count ≤ 8192

/-- A record of pocket memory. -/
def pocketRow (s : State) (q n : Nat) : RowRec := tabGet {} (panelOf s q).rows n

/-- A record with its pending PART added into TOTAL (R113). -/
def withPart (r : RowRec) : RowRec := { r with total := f32Add r.total r.part, part := 0#32 }

/-- The row operations whose result for a record needs only that record (R113), as functions of the state, package,
descriptor, row number and record. -/
def rowResults : List ((SlotRef → Instr) × (State → Package → RowDesc → Nat → RowRec → RowRec)) :=
  [(.rclr, fun _ _ _ _ _ => {}),
   (.rfinMean, fun _ _ rd _ r => { withPart r with result := f32Mul (withPart r).total rd.invN }),
   (.rfinRms, fun _ _ rd _ r =>
      { withPart r with result := f32Rsqrt (f32Add (f32Mul (withPart r).total rd.invN) rd.eps) }),
   (.rfinLse, fun _ _ _ _ r => { withPart r with result := f32Add (f32Log (withPart r).total) r.maxv }),
   (.rfinSample, fun s p rd k r => { withPart r with
      aux := f32Scale (f32Mul (withPart r).total (f32OfNat (drawFor p s.job.step s.shut.micro rd.tag k).toNat)) (-32)
      total := 0#32, idx := 0x1FFFFF, last := 0x1FFFFF, fixed := false, seen := false }),
   (.rfinPick, fun _ _ _ _ r => { withPart r with idx := if r.fixed then r.idx else r.last })]

/-- The commands of class row that finish their range (R113). -/
def rowCommands : List (SlotRef → Instr) := [.rclr, .rfinMean, .rfinRms, .rfinLse, .rfinSample, .rfinPick]

/-- A record as RCHAIN_SEND sends and keeps it: PART added into TOTAL, SEEN cleared (R112). -/
def sentRow (r : RowRec) : RowRec := { withPart r with seen := false }

/-- Address `n` lies in the overflow records of a row slot on a panel of its set (R110). -/
def inOverflow (s : State) (p : Package) (x : SlotRef) (rd : RowDesc) (n : Nat) : Prop :=
  ∃ q ∈ slotPanels s p x.pset, ∃ k, rd.base ≤ k ∧ k < rd.base + rd.count ∧ 8192 ≤ k ∧
    ovfAddr q rd k ≤ n ∧ n < ovfAddr q rd k + 32

/-- Nothing protects or abandons a write of a loaded job: the step stands, no base region is resident, no region or layer is FROZEN and no page
is held (R21, R95, R134, R303). -/
def plainWrites (s : State) : Prop :=
  s.fence.abandoned = false ∧ s.job.pkg.isSome = true ∧ s.base = none ∧ s.snap.guarded = [] ∧ memClean s = true ∧
    ∀ p, s.job.pkg = some p → (∀ r ∈ p.regions, r.frozen = false) ∧ ∀ l ∈ p.layers, l.frozen = false

/-- Every panel of a product reads planes that exist (R171, R186). -/
def prodReady (s : State) (p : Package) (v : ProdView) (ps : List Nat) : Prop :=
  ∀ q ∈ ps, planesOk v.rowT (rowPlanes s p v q) = true ∧ planesOk v.colT (colPlanes s p v q) = true

/-- The product block of the panel at position `j` at row unit `ru` and column unit `cu` (R55 to R63, R79, R81): the
slice partials of its elements, row by row; part 0 of a chain starts from +0, a later part waits for the sums of the part
before it. -/
def blockOf (s : State) (p : Package) (v : ProdView) (d : Nat) (ps : List Nat) (j cu ru : Nat) : Bank :=
  let q := ps.getD j 0
  let t := prodPart p v j
  let rows := min v.pd.mT (lineCount v.rowT - ru * v.pd.mT)
  let cols := min v.pd.nT (lineCount v.colT - cu * v.pd.nT)
  { desc := d, tag := v.outT.tag, micro := s.shut.micro, row0 := ru * v.pd.mT, rows := rows, col0 := cu * v.pd.nT
    cols := cols
    partials := (List.range rows).flatMap (fun r => (List.range cols).map (fun c =>
      (slicePartials v.pair (readOperand (viewMem s) v.rowT (rowPlanes s p v q) (ru * v.pd.mT + r))
        (readOperand (viewMem s) v.colT (colPlanes s p v q) (cu * v.pd.nT + c)) v.pd.sliceRuns t.runLo t.runHi).1))
    start := if t.kPart = 0 then List.replicate (rows * cols) 0#32 else []
    needs := if t.kPart = 0 then 0 else ceilDiv rows 32
    chainIn := if t.kPart = 0 then none else ps[j - 1]?
    chain := chainPanels v ps j, chainOut := chainNext v ps j, emitted := 0 }

/-- The blocks of the part at position `j`: column unit by column unit, row units ascending (R79; log entry 21). -/
def blocksOf (s : State) (p : Package) (v : ProdView) (d : Nat) (ps : List Nat) (j : Nat) : List Bank :=
  let t := prodPart p v j
  (List.range (t.colHi - t.colLo)).flatMap (fun c => (List.range (t.rowHi - t.rowLo)).map (fun r =>
    blockOf s p v d ps j (t.colLo + c) (t.rowLo + r)))

/-- The rank sums of the next 32-row tile of a bank (R63, R79, R81). -/
def nextSums (b : Bank) : List F32 :=
  (List.range (min 32 (b.rows - b.emitted) * b.cols)).map (fun i =>
    rankSum (b.start.getD (b.emitted * b.cols + i) 0#32) (b.partials.getD (b.emitted * b.cols + i) []))

/-- Bank `b` waits for the sums that hop `h` carries: the sender is the panel of the preceding slices, and product,
micro-batch, columns and next row are the bank's (R81). -/
def awaits (b : Bank) (h : Hop) : Prop :=
  b.needs ≠ 0 ∧ b.chainIn = some h.src ∧ b.desc = h.desc ∧ b.micro = h.micro ∧ b.col0 = h.col0 ∧
    h.row0 = b.row0 + b.start.length / max b.cols 1

/-- Address `x` lies in one of the four planes of a tensor. -/
def planesHave (t : TensorDesc) (pl : Planes) (x : Nat) : Prop :=
  placeHas pl.elem 0 (elemBytes t) x ∨ placeHas pl.scale 0 (scaleBytesOf t) x ∨ placeHas pl.store 0 (storeBytesOf t) x ∨
    placeHas pl.index 0 (indexBytesOf t) x

/-- Address `n` lies in the destination of a COPY on some panel of its set (R171). -/
def copyHas (s : State) (p : Package) (m : MoveDesc) (d : Nat) (ps : List Nat) (n : Nat) : Prop :=
  ∃ j, j < ps.length ∧
    placeHas (movePlace s p (ps.getD j 0) j d m.dstSp m.dst m.dstMstride m.dstPstride) 0 m.len n

/-- Every part of a COPY exists, or it copies nothing (R171, R186). -/
def copyReady (s : State) (p : Package) (m : MoveDesc) (d : Nat) (ps : List Nat) : Prop :=
  m.len = 0 ∨ ∀ j, j < ps.length →
    placeOk (movePlace s p (ps.getD j 0) j d m.srcSp m.src m.srcMstride m.srcPstride) m.len = true ∧
    placeOk (movePlace s p (ps.getD j 0) j d m.dstSp m.dst m.dstMstride m.dstPstride) m.len = true

/-- The spool of panel `q`. -/
def spoolOf (s : State) (q : Nat) : Spool := (panelOf s q).spool

/-- The source of an INGEST's records: the slot of STEP + AHEAD (R251, R252). -/
def ingestSrc (s : State) (d : StreamDesc) : Nat :=
  256 * d.region + slotOfStep d (s.job.step + d.ahead) * d.slotBytes

/-- LOCAL of an INGEST for panel `q` and a MICRO value (R252). -/
def ingestDst (d : StreamDesc) (micro q : Nat) : Nat :=
  resolveAddr q (256 * (d.loc + (if micro = 0xFFFF then 0 else micro * d.mstride)))

/-- The packets in which operation `op` sends the pieces `cuts`, `k` bytes apart from remote address `r`, on flow `f`: WRITEs
under the next PSNs, FENCE_W on the last (R241, R249, R253). -/
def emitPackets (s : State) (f : Nat) (v : Flow) (op r k : Nat) (cuts : List (List Byte)) : List TxPkt :=
  cuts.zipIdx.map (fun e =>
    let w : Send := { type := .write, fenceW := decide (e.2 + 1 = cuts.length), offset := r + k * e.2, payload := e.1 }
    { psn := v.txNext + e.2, kind := .emitData op w.offset e.1.length, hdr := hdrOf s f v (v.txNext + e.2) w, payload := e.1 })

/-- The shuttle after a stitch with `gap` GAP cycles has issued at duty `q` (R165, R175, R183): program cycles, the stitch
count, and the issue opportunities with the idle stitches that are owed among them (log entry 67, the model's reading). -/
def issued (q : Nat) (v : Shuttle) (gap : Nat) : Shuttle :=
  let r := idlesWithin q v.window v.windowIdle (1 + gap)
  { v with cycles := sat64 (v.cycles + (1 + gap)), phys := sat64 (v.phys + (1 + gap) + r.1)
           stitches := sat32 (v.stitches + 1), idle := sat32 (v.idle + r.1), window := r.2.1, windowIdle := r.2.2 }

/-- The loop counters with counter `k` set to `n`. -/
def ctrsWith (v : Shuttle) (k n : Nat) : List Nat := (List.range 4).map (fun i => if i = k then n else v.ctrs.getD i 0)

/-- From `s` to `t` only the shuttle, the step's count of idle stitches and the trace buffers with the numbers that panels
tracing stitches give their records have changed (R272, R352, R355). -/
def onlyFlow (s t : State) : Prop :=
  t.mem = s.mem ∧ t.job = { s.job with stepIdle := t.job.stepIdle } ∧ t.mgmt = { s.mgmt with seqs := t.mgmt.seqs } ∧
    (∀ k, traceKind s k ≠ 1 → tabGet 0 t.mgmt.seqs k = tabGet 0 s.mgmt.seqs k) ∧ t.fence = s.fence ∧ t.hubs = s.hubs ∧ t.ports = s.ports ∧
    t.coll = s.coll ∧ t.host = s.host ∧ t.power = s.power ∧ t.dev = s.dev ∧
    ∀ q, { panelOf t q with trace := [] } = { panelOf s q with trace := [] }

/-- A grade that the budget and the heat allow (R266, R289): its mean power within SOFT, with 3 % to spare for a higher grade,
its peak within HARD, its predicted temperature below 95 °C less the margin. -/
def gradeFits (s : State) (v : Variant) : Prop :=
  s.power.kE * (v.pAvg : Rat) ≤ (s.power.soft : Rat) ∧
    (v.grade ≤ s.power.grade ∨ s.power.kE * (v.pAvg : Rat) ≤ (97 : Rat) / 100 * s.power.soft) ∧
    s.power.kE * (v.pPeak : Rat) ≤ (s.power.hard : Rat) ∧ tPred s v ≤ 95 - (setting s 0x151 0 : Rat) / 10

/-- Variant `v`, number `i`, may run at a grade point: compiled for a recipe and recompute state, its grade available, the
point in it (R177, R263). -/
def mayRun (s : State) (p : Package) (recipe : Nat) (rc : Bool) (gp i : Nat) (v : Variant) : Prop :=
  p.variants[i]? = some v ∧ v.recipe = recipe ∧ v.recompute = rc ∧ vSet s v.grade ≤ 680 ∧ (v.points.getD gp none).isSome = true

/-- The choice of R266 among the variants that may run: the highest grade that fits, or the lowest grade where none does. -/
def choiceOf (s : State) (p : Package) (recipe : Nat) (rc : Bool) (gp i : Nat) (v : Variant) : Prop :=
  mayRun s p recipe rc gp i v ∧
    ((gradeFits s v ∧ ∀ j w, mayRun s p recipe rc gp j w → gradeFits s w → w.grade ≤ v.grade) ∨
     ((∀ j w, mayRun s p recipe rc gp j w → ¬ gradeFits s w) ∧ ∀ j w, mayRun s p recipe rc gp j w → v.grade ≤ w.grade))

/-- Nothing but the budget and the heat of R266 chooses the grade: no forced state, T_j below 95 °C, no switch in progress
or cancelled, fixed mode off (R273, R276, R284, R291). -/
def freeChoice (s : State) : Prop :=
  s.therm.forced = false ∧ s.therm.tj < 950 ∧ s.power.switching = none ∧ s.power.stay = none ∧ setting s 0x144 0 = 0

/-- The clock runs at grade `g`, or its switch waits (R177, R276). -/
def clockTo (s t : State) (g : Nat) : Prop :=
  t.power.grade = g ∨ t.power.switching = some (s.power.grade, g, s.nowUs)

/-- The destinations of the accumulations of a package outside its job state, as addresses and lengths (R65, R136). -/
def sumRanges (s : State) (p : Package) : List (Nat × Nat) :=
  (((sumTargets p).flatMap (sumPlaces s p)).eraseDups.filter (fun e =>
    !(p.regions.any (fun r => r.jobState && regionHas p r e.1))))

/-- No region or layer of a package is FROZEN and no base region is resident (R21, R134). -/
def openTo (s : State) (p : Package) : Prop :=
  s.base = none ∧ (∀ r ∈ p.regions, r.frozen = false) ∧ ∀ l ∈ p.layers, l.frozen = false

/-- The commands that receive a flit of a known TYPE on a port, for any payload, with that TYPE (R214). -/
def flitKinds (port : Nat) (b1 : Head) (b2 : List Byte) (b3 : Poison) (b4 : Vote) (wake : Bool) (b5 : Ident) (nonce : Nat) :
    List ((FlitHdr → Instr) × Nat) :=
  [(fun h => .headFlit port h b1, 1), (fun h => .dataFlit port h b2, 2), (fun h => .hello port h b5 nonce, 3),
   (fun h => .proof port h b5 nonce, 3), (fun h => .poisonFlit port h b3, 4), (fun h => .voteFlit port h b4, 5),
   (fun h => .gateFlit port h wake, 6)]

/-- The flits of reserved TYPEs (R214). -/
def reservedKinds (port : Nat) : List ((FlitHdr → Instr) × Nat) :=
  [7, 8, 9, 10, 11, 12, 13, 14, 15].map (fun y => (fun h => .reservedFlit port h, y))

/-- From `s` to `t` the ports only send IDLE flits, with the buffers that they owe (R214, R217). -/
def idlesOnly (s t : State) : Prop :=
  t = { s with ports := t.ports } ∧ ∀ q, portOf t q = { portOf s q with
    idle := (portOf t q).idle, owed := (portOf t q).owed, credStop := (portOf t q).credStop }

/-- A port has sent an IDLE flit with a NAK or none, which acknowledges what it has accepted (R214, R216). -/
def idleSays (t : State) (port : Nat) (nak : Bool) : Prop :=
  ∃ f, (portOf t port).idle = some f ∧ f.nak = nak ∧ f.ack = ((portOf t port).rxNext + 2047) % 2048 ∧ f.seq = (portOf t port).txSeq

/-- A flit stands in a port's queue, or has left and stands in its replay buffer (R216). -/
def flitOut (t : State) (port : Nat) (b : FlitBody) : Prop :=
  b ∈ (portOf t port).queue ∨ ∃ f ∈ (portOf t port).replay, f.body = b

/-- No GATE flit of the port's own waits to leave (R220). -/
def noGates (p : SeamPort) : Prop := ∀ w, FlitBody.gate w ∉ p.queue

/-- A flit in sequence arrives on a trained port that is not retraining (R216). -/
def inSeq (s : State) (port : Nat) (h : FlitHdr) : Prop :=
  portTrained (portOf s port) = true ∧ (portOf s port).retraining = false ∧ h.seq = (portOf s port).rxNext

/-- The checks of R254 on the frame of a hemline packet, in their order: length, receive buffer, VLAN,
destination, form. -/
def frameShort (s : State) (k : Pkt) : Prop := k.frame.len ≤ setting s 0x130 k.port
def frameRoom (k : Pkt) : Prop := k.frame.fill + k.frame.len ≤ 0x400000
def frameVlan (s : State) (k : Pkt) : Prop :=
  if setting s 0x131 k.port = 0 then ∀ i, k.frame.vid = some i → i = 0 else k.frame.vid = some (setting s 0x131 k.port)
def frameOurs (s : State) (k : Pkt) : Prop :=
  k.frame.mac = true ∧ (k.frame.ip ∈ portAddrs s k.port ∨ k.frame.ip = linkLocal k.port) ∧
    k.frame.udp = setting s 0x136 k.port
def frameFormed (k : Pkt) : Prop := k.frame.udpLen = k.length + 56 ∧ k.frame.version = 1

/-- All five pass. -/
def frameOk (s : State) (k : Pkt) : Prop := frameShort s k ∧ frameRoom k ∧ frameVlan s k ∧ frameOurs s k ∧ frameFormed k

/-- The tag of a packet of type `y` with payload `bs` is that of its flow's session and its key epoch (R240, R372). -/
def goodTag (s : State) (k : Pkt) (v : Flow) (y : HemType) (bs : List Byte) : Prop :=
  k.tag = pktTag (prkOf s v.session) k y bs

/-- A hemline packet passes the checks of R254 before its PSN: the port is up, the frame is right, its flow `v` is not FREE or
FAILED, and far address, tag and epoch are right. -/
def flowTakes (s : State) (k : Pkt) (v : Flow) (y : HemType) (bs : List Byte) : Prop :=
  (hostPortOf s k.port).up = true ∧ frameOk s k ∧ flowOf s k.dstFlow = some v ∧ v.st ≠ .failed ∧ v.port = k.port ∧
    v.farAddr = k.frame.src ∧ goodTag s k v y bs ∧ epochOk s v.session k.epoch = true

/-- The next packet in order on a flow that holds nothing, with no fence and no reserved bit (R245, R247). -/
def plainNext (s : State) (k : Pkt) (v : Flow) (y : HemType) (bs : List Byte) : Prop :=
  flowTakes s k v y bs ∧ k.psn = v.cum ∧ v.sack = [] ∧ v.held = [] ∧ k.fenceW = false ∧ k.fenceAll = false ∧ k.rsv = false ∧
    k.psn ≠ 2 ^ 31

/-- The sequenced packets of a header, for any body, with their types and payloads (R241). -/
def packetsOf (k : Pkt) (bs : List Byte) (n m : Nat) (ring abort : Bool) (off : Nat) : List (Instr × HemType × List Byte) :=
  [(.write k bs, .write, bs), (.ready k n, .ready, beBytes 4 n), (.hemlineFence k, .fence, []),
   (.ctrl k m ring abort off bs, .ctrl, ctrlInBytes m ring abort off bs), (.close k, .close, [])]

/-- A port with its counters changed. -/
def withStat (s : State) (e : Nat) (f : HostStat → HostStat) : State :=
  modHostPort s e (fun h => { h with stat := f h.stat })

/-- The counters of a received frame (R256). -/
def rxStat (n : Nat) (t : HostStat) : HostStat :=
  { t with rxFrames := sat32 (t.rxFrames + 1), fecCorr := sat32 (t.fecCorr + n) }

/-- A frame of the port's own protocols to `dst`, under its VLAN settings (R239; that it carries PCP_DATA is the model's choice,
log entry 73). -/
def ownFrame (s : State) (e dst : Nat) (b : FrameBody) : Frame :=
  { vlan := if setting s 0x131 e = 0 then none else some (setting s 0x131 e, setting s 0x133 e), prio := setting s 0x133 e
    ip := dst, srcPort := 0, dstPort := 0, ect := false, body := b }

/-- The state after a frame has left a port that is up: sent and counted, or waiting while PFC pauses its priority (R239,
R256). -/
def afterFrame (t : State) (e : Nat) (g : Frame) : State :=
  modHostPort t e (fun h =>
    if bitOf h.paused g.prio then { h with waiting := h.waiting ++ [g] }
    else { h with sent := h.sent ++ [g], stat := { h.stat with txFrames := sat32 (h.stat.txFrames + 1) } })

/-- The state after a frame has arrived on a port that is up: counted, and in the receive buffer if it has room; as the buffer
passes 75 %, a PFC frame leaves where PFC is enabled (R239, R256). -/
def arrived (s : State) (e fec : Nat) (f : FrameIn) : State :=
  let n := if f.fill + f.len ≤ 0x400000 then f.fill + f.len else f.fill
  let t := modHostPort (withStat s e (rxStat fec)) e (fun h => { h with rxFill := n })
  if min f.fill (hostPortOf s e).rxFill ≤ 0x300000 ∧ 0x300000 < n ∧ setting s 0x134 e = 1 then
    afterFrame t e (ownFrame s e 0 (.pfc (setting s 0x135 e)))
  else t

/-- From `t` to `u` the sessions without a CTRL flow have ended (R243, R373): a state in which every session has its CTRL flow
is unchanged. -/
def swept (t u : State) : Prop :=
  (∀ e ∈ t.host.sessions, ∃ v, flowOf t e.2.ctrl = some v ∧ v.session = e.1) → u = t

/-- The frame of a SETUP passes the checks of R254 on a port that is up. -/
def setupArrives (s : State) (b : Setup) : Prop :=
  let f := b.frame
  (hostPortOf s b.port).up = true ∧ f.len ≤ setting s 0x130 b.port ∧ f.fill + f.len ≤ 0x400000 ∧
    (if setting s 0x131 b.port = 0 then ∀ i, f.vid = some i → i = 0 else f.vid = some (setting s 0x131 b.port)) ∧
    f.mac = true ∧ (f.ip ∈ portAddrs s b.port ∨ f.ip = linkLocal b.port) ∧ f.udp = setting s 0x136 b.port ∧
    f.udpLen = 0x60 + b.chain.length + b.signature.length + 56 ∧ f.version = 1

/-- A SETUP lies within the limits of R255 (how a rate is kept, and that the four from one source are counted at each port
apart, are the model's choices, log entry 8). -/
def setupWithin (s : State) (b : Setup) : Prop :=
  let h := hostPortOf s b.port
  let r := setting s 0x13B 0
  h.setups - r * (s.nowUs - h.setupAt) + 1000000 ≤ 2000000 * r ∧
    (h.second + 1000000 ≤ s.nowUs ∨ tabGet 0 h.setupFrom b.frame.src < 4)

/-- The half-open setup that a FINISH belongs to. -/
def halfOf (s : State) (b : Setup) : Option HalfOpen :=
  s.host.half.find? (fun h => h.port == b.port && h.addr == b.frame.src)

/-- The anchor list is empty and SLOT_ID does not read 0x3F (R370). -/
def noOwner (s : State) : Prop := s.fw.anchors = [] ∧ s.pins.slotId ≠ 0x3F

/-- A mailbox request: its command, OP, the length and reserved fields it must have, and where it is accepted (R339,
R341). -/
structure Req where
  cmd : Nat → Instr
  op : Nat
  len : State → Mailbox → Bool
  rsv : Mailbox → Bool
  st : State → Option Status

/-- Requests with no body, and with a body of fixed length without reserved fields, that every state accepts. -/
def plain (cmd : Nat → Instr) (op n : Nat) : Req := ⟨cmd, op, bodyLen n, noRsv, anyState⟩

/-- A reading request with a cursor and a count of at most `n` in a body of `k` bytes. -/
def counted (cmd : Nat → Instr) (op k at0 n : Nat) : Req :=
  ⟨cmd, op, fun _ b => reqLen b == k && decide (reqWord b at0 ≤ n), noRsv, anyState⟩

def reqLoadBegin : Req := ⟨.jobLoadBegin, 0x100, bodyLen 64, beginRsv, jobLoadState⟩
def reqLoadCommit : Req := ⟨.jobLoadCommit, 0x101, bodyLen 0, noRsv, jobLoadState⟩
def reqRelease : Req := ⟨.jobRelease, 0x102, bodyLen 0, noRsv, inHeld⟩
def reqJobEnd : Req := ⟨.jobEnd, 0x103, bodyLen 4, rsvFrom 0 1, canEnd⟩
def reqRecipe : Req := ⟨.recipeSet, 0x105, bodyLen 4, rsvFrom 0 4, inRunning⟩
def reqFlags : Req := ⟨.flagClear, 0x106, bodyLen 8, flagRsv, inRunning⟩
def reqRemap : Req := ⟨.remap, 0x107, bodyLen 64, fun b => rsvFrom 0 8 b || rsvFrom 60 8 b, remapState⟩
def reqBaseBegin : Req := ⟨.baseLoadBegin, 0x108, bodyLen 64, beginRsv, baseLoadState⟩
def reqBaseCommit : Req := ⟨.baseLoadCommit, 0x109, bodyLen 0, noRsv, baseLoadState⟩
def reqSnapshot : Req := ⟨.snapshot, 0x300, bodyLen 64, snapRsv, snapState⟩
def reqCancel : Req := ⟨.snapshotCancel, 0x301, bodyLen 0, noRsv, inRunning⟩
def reqRestore : Req :=
  ⟨.restore, 0x302, fun _ b => decide (16 ≤ reqLen b) && reqLen b == 16 + 8 * fieldOf (reqWord b 0xC) 0 9, restoreRsv, restoreState⟩
def reqSpare : Req := ⟨.spare, 0x400, bodyLen 0, noRsv, spareState⟩
def reqSpareExit : Req := ⟨.spareExit, 0x401, bodyLen 0, noRsv, inStates [.spare]⟩
def reqFill : Req := ⟨.fill, 0x402, bodyLen 56, fun b => rsvFrom 0 8 b || rsvFrom 4 8 b, fillState⟩
def reqDrain : Req := ⟨.drain, 0x403, bodyLen 4, rsvFrom 0 1, drainState⟩
def reqUndrain : Req := ⟨.undrain, 0x404, bodyLen 0, noRsv, undrainState⟩
def reqSelfTest : Req := ⟨.selfTest, 0x405, bodyLen 0, noRsv, inStates [.ready, .spare, .drained]⟩
def reqHibernate : Req := ⟨.hibernate, 0x406, bodyLen 0, noRsv, inStates [.ready, .spare]⟩
def reqWake : Req := ⟨.wake, 0x407, bodyLen 0, noRsv, inStates [.hibernate]⟩
def reqBudget : Req := ⟨.powerBudget, 0x500, bodyLen 16, fun b => rsvFrom 8 16 b || rsvFrom 12 10 b, anyState⟩
def reqReport : Req := ⟨.coolingReport, 0x501, bodyLen 16, rsvFrom 8 24, anyState⟩
def reqSensorClear : Req := ⟨.sensorClear, 0x503, bodyLen 0, noRsv, inStates [.ready]⟩
def reqTxnSet : Req :=
  ⟨.txnSet, 0x601, fun _ b => decide (4 ≤ reqLen b) && decide (reqWord b 0 ≤ 169) && reqLen b == 4 + 24 * reqWord b 0, entryRsv, anyState⟩
def reqConfigGet : Req :=
  ⟨.configGet, 0x604, fun _ b => decide (4 ≤ reqLen b) && decide (reqWord b 0 ≤ 170) && reqLen b == 4 + 4 * reqWord b 0, noRsv, anyState⟩
def reqEvents : Req :=
  ⟨.eventRead, 0x700, fun _ b => reqLen b == 16 && decide (reqWord b 8 ≤ 127), rsvFrom 12 16, anyState⟩
def reqCounters : Req :=
  ⟨.counterRead, 0x702, fun _ b => reqLen b == 16 && decide (reqWord b 12 ≤ countMax (reqWord b 4)), noRsv, anyState⟩
def reqFray : Req := ⟨.frayReportRead, 0x703, fun _ b => reqLen b == 12 && decide (reqWord b 8 ≤ 126), rsvFrom 0 1, anyState⟩
def reqCauses : Req := ⟨.alertCauses, 0x706, bodyLen 4, rsvFrom 0 8, anyState⟩
def reqWatch : Req := ⟨.noteWatch, 0x707, bodyLen 4, rsvFrom 0 16, anyState⟩
def reqNotes : Req :=
  ⟨.noteRead, 0x708, fun t b => reqLen b == 12 && decide ((notesBody t b).length ≤ 4080), noRsv, anyState⟩
def reqInject : Req := ⟨.memInject, 0x800, bodyLen 20, fun b => rsvFrom 0 10 b || rsvFrom 8 6 b, injectState⟩
def reqOwner : Req :=
  ⟨.ownerSet, 0x902, fun _ b => decide (4 ≤ reqLen b) && decide (reqWord b 0 ≤ 78) && reqLen b == 4 + 52 * reqWord b 0, ownerRsv, anyState⟩
def reqFwBegin : Req := ⟨.fwBegin, 0x905, bodyLen 64, beginRsv, updateState⟩
def reqFwCommit : Req := ⟨.fwCommit, 0x906, bodyLen 0, noRsv, updateState⟩
def reqFwActivate : Req := ⟨.fwActivate, 0x907, bodyLen 0, noRsv, updateState⟩

/-- The requests of R341 and R380. -/
def requests : List Req :=
  [plain .identify 1 0, reqLoadBegin, reqLoadCommit, reqRelease, reqJobEnd, plain .jobStatus 0x104 0, reqRecipe, reqFlags,
    reqRemap, reqBaseBegin, reqBaseCommit, plain .flowOpen 0x200 40, plain .flowClose 0x201 4, plain .flowStatus 0x202 4,
    reqSnapshot, reqCancel, reqRestore, reqSpare, reqSpareExit, reqFill, reqDrain, reqUndrain, reqSelfTest] ++
  [reqHibernate, reqWake, reqBudget, reqReport, plain .sensorRead 0x502 0, reqSensorClear,
    counted .lifetimeRead 0x504 8 4 169, plain .txnBegin 0x600 0, reqTxnSet, plain .txnCommit 0x602 4, plain .txnRollback 0x603 0,
    reqConfigGet, counted .calRead 0x605 8 4 339, reqEvents, plain .markRequest 0x701 0, reqCounters, reqFray] ++
  [counted .verdictRead 0x704 8 4 63, counted .drainRecordRead 0x705 8 4 63, reqCauses, reqWatch, reqNotes,
    counted .traceRead 0x709 12 8 127, reqInject, plain .portRetrain 0x801 4, counted .certRead 0x900 8 4 4076,
    plain .attest 0x901 32, reqOwner, plain .keyUpdate 0x903 0, plain .sessionEnd 0x904 0, reqFwBegin, reqFwCommit,
    reqFwActivate, plain .fwConfirm 0x908 0, plain .fwStatus 0x909 0, counted .clearRecordRead 0x90A 8 4 18]

/-- The request at the head of the queue of rung mailboxes is that of mailbox `m` with the OP of `r` (R335). -/
def atHead (s : State) (m : Nat) (r : Req) : Prop :=
  s.mgmt.rings.head? = some m ∧ (boxOf s m).rung = true ∧ (boxOf s m).orphan = false ∧ reqOp (boxOf s m) = r.op

/-- The checks of R338 pass. -/
def accepted (s : State) (m : Nat) (r : Req) : Prop :=
  atHead s m r ∧ reqLen (boxOf s m) ≤ 4080 ∧ r.len s (boxOf s m) = true ∧ hdrRsv (boxOf s m) = false ∧
    r.rsv (boxOf s m) = false ∧ stateFault s (boxOf s m) r.st = none

/-- Mailbox `m` holds the reply to its request: the header of R336 with a status, and a body. -/
def answered (s t : State) (m : Nat) (st : Status) (body : List Byte) : Prop :=
  boxOf t m = { boxOf s m with
    rung := false, waits := none, reply := memPut [] 0 (replyBytes (boxOf s m) st body)
    sent := some (replyBytes (boxOf s m) st body).length }

/-- A refusal with its details (R337). -/
def refusedWith (s t : State) (m : Nat) (st : Status) (a b : Nat) : Prop :=
  answered s t m st (leBytes 4 a ++ leBytes 4 b)

/-- From `s` to `t` only mailbox `m` and the queue of rung mailboxes change, with what sending the reply changes: flows,
frames sent with their counters, and a session's key epoch with its event (R335, R373). -/
def onlyReply (s t : State) (m : Nat) : Prop :=
  t = { s with
    host := { s.host with ports := t.host.ports, flows := t.host.flows, sessions := t.host.sessions }
    mgmt := { s.mgmt with boxes := t.mgmt.boxes, rings := s.mgmt.rings.drop 1, log := t.mgmt.log
                          dropped := t.mgmt.dropped, seqs := t.mgmt.seqs } } ∧
  ∀ k, k ≠ m → boxOf t k = boxOf s k

/-- The command ends in a reply with a status and a body, and changes nothing else. -/
def repliesOnly (s : State) (c : Instr) (m : Nat) (st : Status) (body : List Byte) : Prop :=
  ∃ t, exec c s = .next t ∧ onlyReply s t m ∧ answered s t m st body

/-- The command is refused, with details, and changes nothing else. -/
def refusesOnly (s : State) (c : Instr) (m : Nat) (st : Status) (a b : Nat) : Prop :=
  repliesOnly s c m st (leBytes 4 a ++ leBytes 4 b)

/-- What a refusal counts: a POWER_BUDGET that is refused adds to BUDGETS_REFUSED (R278). -/
def refusalCounted (s : State) (r : Req) : State :=
  if r.op = 0x500 then { s with power := { s.power with refusedN := sat32 (s.power.refusedN + 1) } } else s

/-- The window that a BEGIN opens (R342, R377). -/
def windowFor (b : Mailbox) (kind start : Nat) : LoadWindow :=
  { kind := kind, session := fromSession b, len := windowLen b, stream := fieldOf (reqWord b 4) 8 8, start := start
    digest := beNat (reqBytes b 16 48), got := [], buf := [] }

/-- The window `w` of a kind is open and all its bytes have arrived; memory holds no error. -/
def received (s : State) (w : LoadWindow) (kind : Nat) : Prop :=
  s.load = some w ∧ w.kind = kind ∧ coversTo w.got w.len = true ∧ memClean s = true

/-- No EMIT, snapshot or held case keeps the job from its end (R163, R259, R319). -/
def mayEnd (s : State) : Prop := emitPending s = false ∧ s.snap.snap = none ∧ heldCases s = false

/-- From `s` to `t` memory, panels, fence and device are as before. -/
def quietWork (s t : State) : Prop := t.mem = s.mem ∧ t.panels = s.panels ∧ t.fence = s.fence ∧ t.dev = s.dev

/-- The strangers among the ports, as a mask (R343). -/
def strangers (t : State) : Nat := portMask (allPorts.filter (fun q => (portOf t q).st == .stranger))

/-- The snapshot that a request asks for, before its capture (R300). -/
def snapOf (b : Mailbox) (m : Nat) : Snap :=
  { id := reqWord b 0, portable := bitOf (reqWord b 4) 0, layout := fieldOf (reqWord b 4) 1 2
    frozen := bitOf (reqWord b 4) 3, session := fromSession b, flows := sortNats (snapFlowsOf b)
    remote := reqWord b 0x28 + 2 ^ 32 * reqWord b 0x2C, mailbox := m, step := 0, captured := false, chunks := []
    staged := [], unsent := [], manifest := 0, block := 0, variant := 0 }

/-- The fields of a SNAPSHOT lie in their ranges, and it names flows of its session alone (R300). -/
def snapAsked (s : State) (b : Mailbox) : Prop :=
  snapFlowsOf b ≠ [] ∧ (∀ f ∈ snapFlowsOf b, snapFlowOk s (fromSession b) f = true) ∧
    (if bitOf (reqWord b 4) 0 then fieldOf (reqWord b 4) 1 2 = 1 ∨ fieldOf (reqWord b 4) 1 2 = 2
      else fieldOf (reqWord b 4) 1 2 = 0) ∧ (reqWord b 0x28 + 2 ^ 32 * reqWord b 0x2C) % 0x10000 = 0

/-- The restore that a request asks for (R310). -/
def restoreOf (s : State) (b : Mailbox) : RestoreRun :=
  { snapId := reqWord b 0, stream := fieldOf (reqWord b 4) 0 8, authoritative := bitOf (reqWord b 4) 8
    overrides := if bitOf (reqWord b 4) 9 then some (overridesOf b) else none, mlen := reqWord b 8, mbuf := [], mgot := []
    man := none, step := s.job.step, lines := [], matched := [] }

/-- The device has gone from `s` to state `st`; its job and its memory are as before. -/
def movesTo (s t : State) (st : DevState) : Prop := t.dev.st = st ∧ t.mem = s.mem ∧ t.job = s.job

/-- The staged transaction of `s` is open and its owner's session rang mailbox `m`. -/
def ownsTxn (s : State) (m : Nat) : Prop := s.mgmt.txn.st = .opened ∧ s.mgmt.txn.owner = fromSession (boxOf s m)

/-- From `s` to `t` no setting changes, nor memory, job or device. -/
def sameSettings (s t : State) : Prop :=
  t.mgmt.settings = s.mgmt.settings ∧ t.mgmt.flash = s.mgmt.flash ∧ t.mem = s.mem ∧ t.job = s.job ∧ t.dev = s.dev

/-- An event of a source is the last in the log: the next number of its source, the step in force (R353, R355). -/
def logsLast (s t : State) (src : Nat) (c : Ev) (args : List Nat) : Prop :=
  t.mgmt.log.getLast? = some ⟨src, c, tabGet 0 s.mgmt.seqs src, eventStep s, args⟩ ∧
    tabGet 0 t.mgmt.seqs src = (tabGet 0 s.mgmt.seqs src + 1) % 2 ^ 32

/-- From `s` to `t` nothing changes in memory, job, panels, links or flows. -/
def sideOnly (s t : State) : Prop :=
  t.mem = s.mem ∧ t.job = s.job ∧ t.panels = s.panels ∧ t.ports = s.ports ∧ t.host = s.host ∧ t.fence = s.fence

/-- No suspect is recorded, no drain is due. -/
def sound (s : State) : Prop := s.dev.suspect = none ∧ s.dev.drain = none

/-- No line of bolt memory holds an error or poison. -/
def boltSound (s : State) : Prop :=
  (∀ e ∈ s.health.errors, 64 * e.1 < boltBase) ∧ ∀ l ∈ s.health.poison, 64 * l < boltBase

/-- The compute rails are off: memory, job, links, flows and sessions are gone (R385, R386). -/
def railsDown (t : State) : Prop :=
  t.pins.rails = [] ∧ t.pins.pwrGood = false ∧ t.mem = [] ∧ t.job.pkg = none ∧ t.ports = [] ∧ t.host.flows = [] ∧
    t.host.sessions = [] ∧ t.load = none ∧ t.base = none ∧ t.power.vset = 0

/-- The limit of R268 for the window that ends, 0.1 mW. -/
def limitOf (w : Power) : Nat := min (min (w.hard * 1000) 8000000) (min w.ceiling (rampMax w) + w.rampRate * 1000)

/-- Step 4 of R383 follows at once: the input is present, PWR_EN asserted, RESET_N high, no second rail fault. -/
def mayBoot (s : State) : Prop :=
  s.pins.v72 = true ∧ s.pins.pwrEn = true ∧ s.pins.resetLow = false ∧ s.pins.railsOff = false

/-- The module without 72 V (R331): every rail is off; the queue, the flash, the fuses and the levels that the tray drives
stay. -/
def moduleOff (s t : State) : Prop :=
  t.dev.st = .off ∧ t.pins.v72 = false ∧ railsDown t ∧ t.pending = s.pending ∧ t.pins.pwrEn = s.pins.pwrEn ∧
    t.pins.resetLow = s.pins.resetLow ∧ t.mgmt.flash = s.mgmt.flash ∧ t.mgmt.settings = s.mgmt.flash ∧ t.mgmt.log = [] ∧
    t.fw.slotA = s.fw.slotA ∧ t.fw.slotB = s.fw.slotB ∧ t.fw.floor = s.fw.floor ∧ t.fw.anchors = s.fw.anchors ∧
    t.fw.running = none ∧ t.dev.suspect = s.dev.suspect ∧ t.dev.replace = s.dev.replace ∧ t.dev.replaceFull = s.dev.replaceFull ∧
    t.dev.lostJob = (s.dev.lostJob || losesJob s) ∧ t.dev.drains = s.dev.drains ∧
    t.dev.clears = s.dev.clears ∧ t.power.lifetime = s.power.lifetime ∧ t.therm.suspects = s.therm.suspects

/-- The device restarts from its ROM in a state, the compute rails off (R385, R386). -/
def restarted (s t : State) (st : DevState) : Prop :=
  t.dev.st = st ∧ railsDown t ∧ t.mgmt.boxes = [] ∧ t.mgmt.rings = [] ∧ t.mgmt.txn.st = .idle ∧
    t.mgmt.settings = s.mgmt.flash ∧ t.fw.running = none ∧ t.pins.verified = false ∧ t.pins.alert = false ∧
    t.power.soft = 5600 ∧ t.power.hard = 8000 ∧ t.power.fallback = true ∧ t.therm.fresh = false ∧
    t.dev.suspect = s.dev.suspect ∧ t.dev.replace = s.dev.replace

end Sys2Proof.Claims

open Sys2Proof.Claims

/-- R101, R105, R117: FADD, FSUB, FMUL, FMIN, FMAX, IADD, IAND, IOR, IXOR, ISHL and ISHR complete in every pass of a
chain; each active lane takes the result in V[VD], operand b is IMM with BIMM, and nothing else changes but ISSUE and
the chain's place. R101: FABS, FNEG, F2I, I2F, FFMA, LANE, IDX and CVT16 without SR. NOP changes no lane and takes
one cycle a group. -/
def Obligations.NeedleArithmeticResult : Prop :=
  (∀ (s : State) (q : Nat) (p : Package) (c : ChainRun) (a : NArgs), inPass s q p c →
     ∀ e ∈ twoOperand, exec (e.1 q a) s =
       .next (afterInstr s q c 4 (intoVd a (fun l => e.2 (laneV l a.va) (opB a l)) c.lanes))) ∧
  (∀ (s : State) (q : Nat) (p : Package) (c : ChainRun) (a : NArgs), inPass s q p c →
     (∀ e ∈ oneOperand, exec (e.1 q a) s = .next (afterInstr s q c 4 (intoVd a (fun l => e.2 (laneV l a.va)) c.lanes))) ∧
     exec (.ffma q a) s =
       .next (afterInstr s q c 4 (intoVd a (fun l => f32Fma (laneV l a.va) (opB a l) (laneV l a.vc)) c.lanes)) ∧
     exec (.lane q a) s =
       .next (afterInstr s q c 1 (intoVd a (fun l => BitVec.ofNat 32 (l.pos % max c.entry.vl 1)) c.lanes)) ∧
     exec (.idx q a) s = .next (afterInstr s q c 1 (intoVd a (fun l => BitVec.ofNat 32 l.index) c.lanes)) ∧
     (a.sr = false → exec (.cvt16 q a) s =
       .next (afterInstr s q c 4 (intoVd a (fun l => l16ToF32 (l16OfF32 (laneV l a.va))) c.lanes))) ∧
     exec (.nop q a) s = .next (afterInstr s q c 1 c.lanes))

/-- R99, R101: FCMP writes one of P1 to P3 in the active lanes; SEL picks by a predicate; HDR and LDT read the head
entry of the tile queue under SOURCE 1. In each the chain moves on, ISSUE counts, and every other lane, register and
predicate and the rest of the state are unchanged. R104, R106, R107: CHALK evaluates its table of the package in each
active lane; where UNIFORM has a non-finite X0 and where the package holds no table the value is free (log entry 2), and
only the counter of free values moves beside the chain. PERM and BCAST move by lane number: a number at or beyond VL
delivers +0, is counted in LANE_RANGE_N and sets LANE_RANGE; memory, job, shuttle and every other panel are unchanged. -/
def Obligations.NeedlePredicateAndMoveResult : Prop :=
  (∀ (s : State) (q : Nat) (p : Package) (c : ChainRun) (a : NArgs), inPass s q p c →
     (a.sub ≤ 3 → a.vd % 4 ≠ 0 → exec (.fcmp q a) s = .next (afterInstr s q c 4 (c.lanes.map (fun l =>
       if laneActs a l then { l with p := l.p.set (a.vd % 4 - 1) (fcmpOf a.sub (laneV l a.va) (opB a l)) } else l)))) ∧
     (a.sub ≤ 3 → exec (.sel q a) s =
       .next (afterInstr s q c 4 (intoVd a (fun l => if lanePred l a.sub then laneV l a.va else opB a l) c.lanes))) ∧
     (∀ t, headTile s q = some t → c.entry.source = 1 →
       (a.sub ≤ 5 → exec (.hdr q a) s =
         .next (afterInstr s q c 1 (intoVd a (fun _ => BitVec.ofNat 32 (hdrField t a.sub)) c.lanes))) ∧
       exec (.ldt q a) s = .next (afterInstr s q c 2 (intoVd a (fun l => t.data.getD l.pos 0#32) c.lanes)))) ∧
  (∀ (s : State) (q : Nat) (p : Package) (c : ChainRun) (a : NArgs), inPass s q p c →
     (∀ t, p.chalk[a.sub]? = some t → exec (.chalk q a) s =
       .next (afterInstr { s with free := s.free + c.positions + 64 } q c 6
         (intoVd a (fun l => chalkEval t (BitVec.ofNat 32 (freeValue (s.free + l.pos)).toNat) (laneV l a.va)) c.lanes))) ∧
     (p.chalk[a.sub]? = none → exec (.chalk q a) s =
       .next (afterInstr { s with free := s.free + c.positions + 64 } q c 6
         (intoVd a (fun l => BitVec.ofNat 32 (freeValue (s.free + l.pos)).toNat) c.lanes))) ∧
     (∀ e ∈ [(Instr.perm, fun (l : Lane) => opB a l), (Instr.bcast, fun (_ : Lane) => a.imm)],
       let k := (c.lanes.filter (fun l => laneActs a l && decide (c.entry.vl ≤ (e.2 l).toNat))).length
       ∃ t, exec (e.1 q a) s = .next t ∧ t.mem = s.mem ∧ t.job = s.job ∧ t.shut = s.shut ∧
         (∀ r, r ≠ q → panelOf t r = panelOf s r) ∧
         (panelOf t q).chain = some (advanceChain c (headTile s q) 4 ((c.lanes.zipIdx).map (fun l =>
           if laneActs a l.1 then setV l.1 a.vd
             (if (e.2 l.1).toNat < c.entry.vl then
               laneV (c.lanes.getD (l.2 / max c.entry.vl 1 * max c.entry.vl 1 + (e.2 l.1).toNat) ⟨0, false, 0, [], []⟩) a.va
             else 0#32) else l.1))) ∧
         (panelOf t q).ndl = { (panelOf s q).ndl with
           issue := sat32 ((panelOf s q).ndl.issue + passGroups c c.pass)
           laneRangeN := sat32 ((panelOf s q).ndl.laneRangeN + k)
           laneRange := (panelOf s q).ndl.laneRange || decide (k ≠ 0) }))

/-- R71, R75, R101: RAND delivers the draw of the binding's tag at the lane's index; DROP gives +0 where that draw is
below the tensor's DROP threshold and V[VA] elsewhere; CVT16 with SR rounds by that draw. LDB delivers the element at
the lane's index; where memory holds no error and the tensor is not spooled, it changes nothing else. R88, R101, R118:
QNT counts its wait for a busy output path. Into an L16 tensor it writes each active lane's element, rounded and counted.
Into a folded tensor it sends the elements to the fold unit; without an outlier store each group they touch that then has
all its elements is folded, and the others wait; where nothing protects the write, memory takes the group's scale byte and
the 16 bytes of codes of each of its blocks. With an outlier store the blocks are folded in block order, each after the
blocks before it; an instance that a step left incomplete goes on (log entry 26, the model's choice). That a chain draws with the STEP and
MICRO of the stitch that started it is the model's reading (log entry 64). -/
def Obligations.NeedleDrawLoadQuantise : Prop :=
  (∀ (s : State) (q : Nat) (p : Package) (c : ChainRun) (a : NArgs) (d : Nat) (t : TensorDesc), inPass s q p c →
     bound s q p c a.sub d t →
     let pl := boundPlanes s q p c d t
     let u := touchElems (bindWait s q c d t) t pl ((actives a c).map Lane.index)
     exec (.rand q a) s = .next (afterInstr s q c 6 (intoVd a (fun l => chainDraw p c t.tag l) c.lanes)) ∧
     exec (.drop q a) s = .next (afterInstr s q c 6 (intoVd a (fun l =>
       if (chainDraw p c t.tag l).toNat < t.drop then 0#32 else laneV l a.va) c.lanes)) ∧
     (a.sr = true → exec (.cvt16 q a) s = .next (afterInstr s q c 4 (intoVd a (fun l =>
       l16ToF32 (l16OfF32Sr (laneV l a.va) (chainDraw p c t.tag l))) c.lanes))) ∧
     exec (.ldb q a) s = .next (afterEffect s u q c 8 (intoVd a (fun l => readElem (viewMem s) t pl l.index) c.lanes)) ∧
     (memClean s = true → t.spooled = false → u = s)) ∧
  (∀ (s : State) (q : Nat) (p : Package) (c : ChainRun) (a : NArgs) (phys d : Nat) (t : TensorDesc), inPass s q p c →
     bound s q p c a.sub d t →
     let pl := boundPlanes s q p c d t
     let s0 := modPanel (bindWait s q c d t) q (fun w => { w with
       ndl := { w.ndl with waitPhys := sat32 (w.ndl.waitPhys + phys) } })
     let es := ((actives a c).map (fun l => (⟨d, c.micro, l.index, laneV l a.va,
       if t.sr then chainDraw p c t.tag l else 0#32⟩ : FoldElem))).reverse
     let s1 := modPanel s0 q (fun w => { w with foldIn := es ++ w.foldIn })
     (t.fmt = .l16 → exec (.qnt ⟨q, phys⟩ a) s = .next (afterEffect s
       ((actives a c).foldl (fun u l => putL16 u p c.step c.micro t pl t.sr l.index (laneV l a.va)) s0) q c 1 c.lanes)) ∧
     (fmtNarrow t.fmt = true → t.kout = 0 →
       exec (.qnt ⟨q, phys⟩ a) s =
         .next (afterEffect s ((touchedGroups t es).foldl (foldedWhenFull q d c.micro t pl) s1) q c 1 c.lanes) ∧
       ∀ lg e0 c0 sb fbs u, touchedGroups t es = [lg] → groupFull s1 q d c.micro t lg → plainWrites s →
         pl.elem = .flat e0 → pl.scale = .flat c0 →
         (foldPieces (foldCfgOf t) [(firstBlock t lg, groupSources s1 q d c.micro t lg)] {}).1 = [(firstBlock t lg, [(sb, fbs)])] →
         exec (.qnt ⟨q, phys⟩ a) s = .next u →
         u.mem = fbs.zipIdx.foldl (fun m e => memPut m (e0 + 16 * (firstBlock t lg + e.2)) (blockBytes t.fmt e.1.codes))
           (memPut s.mem (c0 + groupOf t (firstBlock t lg)) [sb])) ∧
     (fmtNarrow t.fmt = true → t.kout ≠ 0 →
       exec (.qnt ⟨q, phys⟩ a) s = .next (afterEffect s
         (foldInOrder p d c.micro t (ownInstance t q) (blockCount t) (openStore s1 d c.micro t (ownInstance t q) pl))
         q c 1 c.lanes)))

/-- R65, R101, R102: STB writes V[VA] to the element at the lane's index, lane by lane in ascending position: an F32
or U32 element as its bits, an L16 element rounded and counted. An L16 element is rounded as the
instruction's SR says, whatever SR its descriptor has (log entry 79, the model's choice). ACC makes one F32 addition to an
F32 element. The lanes' registers are unchanged. The memory frame of STB, ACC and QNT into L16 (R102): where memory holds no error,
every byte outside the elements of the active lanes reads as before. -/
def Obligations.NeedleStoreResult : Prop :=
  (∀ (s : State) (q : Nat) (p : Package) (c : ChainRun) (a : NArgs) (d : Nat) (t : TensorDesc), inPass s q p c →
     bound s q p c a.sub d t →
     let pl := boundPlanes s q p c d t
     let s0 := bindWait s q c d t
     (t.fmt = .f32 ∨ t.fmt = .u32 → exec (.stb q a) s = .next (afterEffect s
       ((actives a c).foldl (fun u l => placePut u pl.elem (4 * l.index) (leBytes 4 (laneV l a.va).toNat)) s0)
       q c 1 c.lanes)) ∧
     (t.fmt = .l16 → exec (.stb q a) s = .next (afterEffect s
       ((actives a c).foldl (fun u l => putL16 u p c.step c.micro t pl a.sr l.index (laneV l a.va)) s0) q c 1 c.lanes)) ∧
     (t.fmt = .f32 → exec (.acc q a) s = .next (afterEffect s
       ((actives a c).foldl (fun u l => placePut u pl.elem (4 * l.index)
         (leBytes 4 (f32Add (readElem (viewMem u) t pl l.index) (laneV l a.va)).toNat)) s0) q c 1 c.lanes))) ∧
  (∀ (s t : State) (q : Nat) (p : Package) (c : ChainRun) (a : NArgs) (phys d : Nat) (x : TensorDesc) (n : Nat),
     inPass s q p c → bound s q p c a.sub d x → memClean s = true →
     (∀ l ∈ actives a c, ¬ placeHas (boundPlanes s q p c d x).elem (fmtBytes x.fmt * l.index) (fmtBytes x.fmt) n) →
     (exec (.stb q a) s = .next t → memGet t.mem n = memGet s.mem n) ∧
     (exec (.acc q a) s = .next t → memGet t.mem n = memGet s.mem n) ∧
     (x.fmt = .l16 → exec (.qnt ⟨q, phys⟩ a) s = .next t → memGet t.mem n = memGet s.mem n))

/-- R101, R105, R401: RPUSH applies one term for each active lane to the record of the lane's row, in ascending
position; RGET delivers a field of that record. R111: the update of a record by one term. SUM, SUMSQ and DOT add to
PART, after PART has gone to TOTAL where the slice changes; MAX keeps the first largest and a first NaN; SAMPLE adds
to TOTAL and, until it is FIXED, notes the last positive term and the one that passes AUX. Every update sets SEEN and
PREV. In pocket memory a term changes its record, ROW_TERMS and, out of order, ROW_ORDER, and no byte of memory; that a
term on a record with SEEN = 0 is never out of order is the model's choice (log entry 80). -/
def Obligations.NeedleRowTerms : Prop :=
  (∀ (s : State) (q : Nat) (p : Package) (c : ChainRun) (a : NArgs) (rd : RowDesc), inPass s q p c →
     boundRow q p c rd → a.sub ≤ 4 →
     exec (.rpush q a) s = .next (afterEffect s ((actives a c).foldl (fun u l =>
       pushTerm u q c.tag rd (rd.base + (laneRow c l).1) a.sub (laneV l a.va) (opB a l) (laneRow c l).2) s) q c 1 c.lanes) ∧
     (memClean s = true → exec (.rget q a) s = .next (afterInstr s q c
       (if c.lanes.any (fun l => l.p0 && decide (8192 ≤ rd.base + (laneRow c l).1)) then 32 else 8)
       (intoVd a (fun l => rowField (rowGet s q rd (rd.base + (laneRow c l).1)) a.sub) c.lanes))) ∧
     (∃ u, exec (.rget q a) s = .next (afterEffect s u q c
       (if c.lanes.any (fun l => l.p0 && decide (8192 ≤ rd.base + (laneRow c l).1)) then 32 else 8)
       (intoVd a (fun l => rowField (rowGet s q rd (rd.base + (laneRow c l).1)) a.sub) c.lanes)))) ∧
  ((∀ (rd : RowDesc) (sub : Nat) (r : RowRec) (x y : F32) (i : Nat), sub ≤ 4 →
     let r' := rowTerm rd sub r x y i
     let slice := decide (r.seen = true ∧ i / max rd.sliceElems 1 ≠ r.prev / max rd.sliceElems 1)
     let term := if sub = 0 then x else if sub = 1 then f32Mul x x else f32Mul x y
     r'.seen = true ∧ r'.prev = i ∧ r'.result = r.result ∧ r'.aux = r.aux ∧
     (sub = 0 ∨ sub = 1 ∨ sub = 3 →
       r' = { r with total := if slice then f32Add r.total r.part else r.total
                     part := f32Add (if slice then 0#32 else r.part) term, seen := true, prev := i }) ∧
     (sub = 2 →
       (f32IsNaN x = false → f32Lt r.maxv x = true → r' = { r with maxv := x, idx := i, seen := true, prev := i }) ∧
       (f32IsNaN x = false → f32Lt r.maxv x = false → r' = { r with seen := true, prev := i }) ∧
       (f32IsNaN x = true → f32IsNaN r.maxv = false → r' = { r with maxv := f32NaN, idx := i, seen := true, prev := i }) ∧
       (f32IsNaN x = true → f32IsNaN r.maxv = true → r' = { r with seen := true, prev := i })) ∧
     (sub = 4 → let total := f32Add r.total x
       r'.total = total ∧ r'.part = r.part ∧ r'.maxv = r.maxv ∧
       (r.fixed = true → r' = { r with total := total, seen := true, prev := i }) ∧
       (r.fixed = false → r'.last = (if f32Lt 0#32 x then i else r.last) ∧ r'.fixed = f32Lt r.aux total ∧
         r'.idx = (if f32Lt r.aux total then i else r.idx)))) ∧
   (∀ (s : State) (q tag : Nat) (rd : RowDesc) (n sub : Nat) (x y : F32) (i : Nat), n < 8192 →
     let r := tabGet {} (panelOf s q).rows n
     let t := pushTerm s q tag rd n sub x y i
     t.mem = s.mem ∧ t.job = s.job ∧ (∀ k, tabGet {} (panelOf t q).rows k =
       if k = n then rowTerm rd sub r x y i else tabGet {} (panelOf s q).rows k) ∧
     (panelOf t q).ndl.rowTerms = sat32 ((panelOf s q).ndl.rowTerms + 1) ∧
     (panelOf t q).ndl.rowOrder = ((panelOf s q).ndl.rowOrder || (r.seen && decide (i ≤ r.prev)))))

/-- R113: RCLR, RFIN_MEAN, RFIN_RMS, RFIN_LSE, RFIN_SAMPLE and RFIN_PICK complete on every panel of the set; each
record of the range in pocket memory takes the operation's result, every other record, every panel outside the set
and all of memory are unchanged. R113, R115: RFIN_PICK sets ROW_EMPTY of a panel exactly where some record of the
range had no positive term, and never clears it. R113: RFIN_RMSB writes RNE(r × r × r) times the mean, r being RESULT
of the forward record of the same row, for ranges of pocket memory that do not overlap; for every ROW descriptor
whose records exist it completes. -/
def Obligations.RowFinishResult : Prop :=
  (∀ (s : State) (p : Package) (x : SlotRef) (rd : RowDesc), rowSlotOf s p x rd → inPocket rd →
     ∀ e ∈ rowResults, ∃ t, exec (e.1 x) s = .next t ∧ t.mem = s.mem ∧ t.job = s.job ∧ t.shut = s.shut ∧
       (∀ q, q ∉ slotPanels s p x.pset → panelOf t q = panelOf s q) ∧
       (∀ q ∈ slotPanels s p x.pset, ∀ k, k < rd.count →
         pocketRow t q (rd.base + k) = e.2 s p rd k (pocketRow s q (rd.base + k))) ∧
       (∀ q n, n < rd.base ∨ rd.base + rd.count ≤ n → pocketRow t q n = pocketRow s q n)) ∧
  (∀ (s t : State) (p : Package) (x : SlotRef) (rd : RowDesc), rowSlotOf s p x rd → inPocket rd →
     exec (.rfinPick x) s = .next t → ∀ q ∈ slotPanels s p x.pset,
       ((panelOf t q).ndl.rowEmpty = true ↔ (panelOf s q).ndl.rowEmpty = true ∨ ∃ k, k < rd.count ∧
         (if (pocketRow s q (rd.base + k)).fixed then (pocketRow s q (rd.base + k)).idx
          else (pocketRow s q (rd.base + k)).last) = 0x1FFFFF)) ∧
  (∀ (s : State) (p : Package) (x : SlotRef) (rd : RowDesc), rowSlotOf s p x rd →
     (∀ q ∈ slotPanels s p x.pset, rowsOk q rd rd.fwdBase rd.count = true) →
     ∃ t, exec (.rfinRmsb x) s = .next t ∧
       (inPocket rd → rd.fwdBase + rd.count ≤ 8192 →
         rd.fwdBase + rd.count ≤ rd.base ∨ rd.base + rd.count ≤ rd.fwdBase →
         t.mem = s.mem ∧
         (∀ q ∈ slotPanels s p x.pset, ∀ k, k < rd.count →
           let r := (pocketRow s q (rd.fwdBase + k)).result
           let w := withPart (pocketRow s q (rd.base + k))
           pocketRow t q (rd.base + k) =
             { w with result := f32Mul (f32Mul (f32Mul r r) r) (f32Mul w.total rd.invN) }) ∧
         (∀ q n, n < rd.base ∨ rd.base + rd.count ≤ n → pocketRow t q n = pocketRow s q n)))

/-- R110: RCLR, the RFIN operations and RCHAIN_SEND complete wherever their records exist, in pocket memory or in the
overflow region, and where memory holds no error (for RCHAIN_SEND: and no RCHAIN_RECV waits at the partner) every byte
outside the overflow records reads as before. R109, R113: RSAVE and RLOAD complete where the save region exists. On
records in pocket memory RSAVE leaves every byte outside the save regions as it was, and on one panel whose writes nothing
protects it stores each record's 32 bytes in its save slot; RLOAD leaves memory as it was and takes each record from its
save slot. R112: on records in pocket memory RCHAIN_SEND adds PART into TOTAL and clears SEEN, and gives the records of one
panel, in order, to the partner panel; an RCHAIN_RECV that waits there takes them at once. RCHAIN_RECV of one panel
overwrites the range with the records its partner sent, oldest first; ahead of its records it waits (log entry 66, the
model's reading). R172: a row slot that every panel of its set holds joins their stitch FIFOs and does nothing else; where
what it needs exists and the FIFOs have room, it completes on any panels (log entry 80, the model's reading). -/
def Obligations.RowMemoryAndChainResult : Prop :=
  (∀ (s : State) (p : Package) (x : SlotRef) (rd : RowDesc), rowSlotOf s p x rd →
     (∀ e ∈ rowCommands, ∃ t, exec (e x) s = .next t ∧
       (memClean s = true → ∀ n, ¬ inOverflow s p x rd n → memGet t.mem n = memGet s.mem n)) ∧
     (∃ t, exec (.rchainSend x) s = .next t ∧ (memClean s = true → (panelOf s rd.partner).rowWait = [] →
       ∀ n, ¬ inOverflow s p x rd n → memGet t.mem n = memGet s.mem n))) ∧
  (∀ (s : State) (p : Package) (x : SlotRef) (rd : RowDesc), rowSlotOf s p x rd →
     (∀ q ∈ slotPanels s p x.pset, placeOk (savePlace p q rd) (32 * rd.count) = true) →
     (∃ t, exec (.rsave x) s = .next t ∧ (inPocket rd → memClean s = true → ∀ n,
       (∀ q ∈ slotPanels s p x.pset, ¬ placeHas (savePlace p q rd) 0 (32 * rd.count) n) →
       memGet t.mem n = memGet s.mem n) ∧
       (inPocket rd → plainWrites s → ∀ q, slotPanels s p x.pset = [q] →
         (32 * rd.count ≤ spoolSize p ∨ ∃ a, savePlace p q rd = .flat a) → ∀ k, k < rd.count →
         placeGet t.mem (savePlace p q rd) (32 * k) 32 = rowBytes (pocketRow s q (rd.base + k)))) ∧
     (∃ t, exec (.rload x) s = .next t ∧ (inPocket rd → memClean s = true → t.mem = s.mem ∧
       ∀ q ∈ slotPanels s p x.pset, ∀ k, k < rd.count →
         pocketRow t q (rd.base + k) = rowOfBytes (placeGet (viewMem s) (savePlace p q rd) (32 * k) 32)))) ∧
  (∀ (s : State) (p : Package) (x : SlotRef) (rd : RowDesc), rowSlotOf s p x rd → inPocket rd →
     ((panelOf s rd.partner).rowWait = [] → ∃ t, exec (.rchainSend x) s = .next t ∧ t.mem = s.mem ∧
       (∀ q ∈ slotPanels s p x.pset, ∀ k, k < rd.count →
         pocketRow t q (rd.base + k) = sentRow (pocketRow s q (rd.base + k))) ∧
       (∀ q, slotPanels s p x.pset = [q] → (panelOf t rd.partner).rowIn = (panelOf s rd.partner).rowIn ++
         (List.range rd.count).map (fun k => (q, sentRow (pocketRow s q (rd.base + k)))))) ∧
     (∀ q d rd', slotPanels s p x.pset = [q] → rd.partner ≠ q → (panelOf s rd.partner).rowWait = [d] →
       rowOf p d = some rd' → rd'.partner = q → rd'.count = rd.count → inPocket rd' → (panelOf s rd.partner).rowIn = [] →
       ∃ t, exec (.rchainSend x) s = .next t ∧ t.mem = s.mem ∧ (panelOf t rd.partner).rowIn = [] ∧
         (panelOf t rd.partner).rowWait = [] ∧ ∀ k, k < rd.count →
           pocketRow t rd.partner (rd'.base + k) = sentRow (pocketRow s q (rd.base + k))) ∧
     (∀ q (rs : List RowRec) rest, slotPanels s p x.pset = [q] → rs.length = rd.count →
       (panelOf s q).rowIn = rs.map (fun r => (rd.partner, r)) ++ rest →
       ∃ t, exec (.rchainRecv x) s = .next t ∧ t.mem = s.mem ∧ (panelOf t q).rowIn = rest ∧
         ∀ k, k < rd.count → pocketRow t q (rd.base + k) = rs.getD k {}) ∧
     (∀ q, slotPanels s p x.pset = [q] →
       ((panelOf s q).rowIn.filter (fun e => e.1 == rd.partner)).length < rd.count →
       exec (.rchainRecv x) s = .next (modPanel s q (fun w => { w with rowWait := w.rowWait ++ [x.desc] })))) ∧
  (∀ (s : State) (p : Package) (x : SlotRef) (rd : RowDesc), slotsAct s p → rowOf p x.desc = some rd →
     fifoFree s (slotPanels s p x.pset) = true → ∀ e ∈ rowOps,
     ((∀ q ∈ slotPanels s p x.pset, rowExist p e.2 q rd = true) → ∃ t, exec (e.1 x) s = .next t) ∧
     ((∀ q ∈ slotPanels s p x.pset, rowHeld p (panelOf s q) = true) →
       exec (e.1 x) s = .next (allWait s (slotPanels s p x.pset)
         (fifoSlot s 2 e.2 x.desc (slotPanels s p x.pset) none))))

/-- R79, R81, R166, R171: PROD completes where its operands exist. Where memory holds no error every panel of the set takes
the blocks of its part behind those it already has, in order, and nothing of memory, of the other panels, of a tile queue
or of a spool's entries changes. Which operand gives the rows is the model's choice (log entry 21). R172:
on panels that hold it PROD waits in their stitch FIFOs, and nothing else changes (log entry 80, the model's reading). R81, R82, R85, R86:
BANK_EMIT of the oldest bank, its sums complete and no tile waiting for its push, gives the bank's next 32-row tile to the
panel of the following slices, or to the pushes of its own panel, with the header of R85; otherwise nothing changes. R81,
R91, R94: CHAIN_HOP_ARRIVAL gives the oldest hop that the oldest bank awaits to that bank; while no bank awaits a hop the
hops wait; either wait counts in WAIT_PHYS. R85, R86, R87, R148: with room in the queue a TILE_PUSH gives the oldest
emitted tile the next SEQ, marks it NONFINITE where an element is not finite and queues it last; with 8 tiles queued the
push waits and QUEUE_WAIT is set. A draw that is not a multiple of 2^DENSITY selects nothing. -/
def Obligations.MatrixPipelineResult : Prop :=
  (∀ (s : State) (p : Package) (x : SlotRef) (v : ProdView), slotsAct s p → prodView p x.desc = some v →
     ((∀ q ∈ slotPanels s p x.pset, panelHeld (panelOf s q) = true) → fifoFree s (slotPanels s p x.pset) = true →
       exec (.prod x) s = .next (allWait s (slotPanels s p x.pset)
         (fifoSlot s 0 1 x.desc (slotPanels s p x.pset) none))) ∧
     (prodReady s p v (slotPanels s p x.pset) → (∀ q ∈ slotPanels s p x.pset, panelHeld (panelOf s q) = false) →
     ∃ t, exec (.prod x) s = .next t ∧ (memClean s = true → t.mem = s.mem ∧ t.shut = s.shut ∧ t.mgmt = s.mgmt ∧
       (∀ q, q ∉ slotPanels s p x.pset → panelOf t q = panelOf s q) ∧
       (∀ j, j < (slotPanels s p x.pset).length →
         let q := (slotPanels s p x.pset).getD j 0
         (panelOf t q).banks ++ (panelOf t q).blocks = (panelOf s q).banks ++ (panelOf s q).blocks ++
           blocksOf s p v x.desc (slotPanels s p x.pset) j ∧
         (panelOf t q).queue = (panelOf s q).queue ∧ (spoolOf t q).ring = (spoolOf s q).ring ∧
         (spoolOf t q).ext = (spoolOf s q).ext ∧ (panelOf t q).chain = (panelOf s q).chain ∧
         (panelOf t q).rows = (panelOf s q).rows)))) ∧
  (∀ (s : State) (q : Nat) (b : Bank) (rest : List Bank), (panelOf s q).banks = b :: rest →
     (b.needs ≠ 0 ∨ (panelOf s q).emitted ≠ [] → exec (.bankEmit q) s = .next s) ∧
     (b.needs = 0 → (panelOf s q).emitted = [] → ∃ t, exec (.bankEmit q) s = .next t ∧ t.mem = s.mem ∧ t.mgmt = s.mgmt ∧
       (panelOf t q).queue = (panelOf s q).queue ∧
       (b.chainOut = none →
         (panelOf t q).emitted =
           [{ tag := b.tag, rows := min 32 (b.rows - b.emitted), cols := b.cols, row0 := b.row0 + b.emitted
              col0 := b.col0, desc := b.desc, nonfinite := false, sampled := false, seq := 0, micro := b.micro
              chain := b.chain, data := nextSums b }] ∧
         ∀ r, r ≠ q → panelOf t r = panelOf s r) ∧
       (∀ r, b.chainOut = some r → r ≠ q →
         (panelOf t r).hops = (panelOf s r).hops ++
           [{ src := q, desc := b.desc, micro := b.micro, row0 := b.row0 + b.emitted, col0 := b.col0, data := nextSums b }] ∧
         (panelOf t q).emitted = [])) ∧
     (∀ phys h hs, (panelOf s q).hops = h :: hs →
       (awaits b h → exec (.chainHopArrival ⟨q, phys⟩) s = .next (modPanel s q (fun w => { w with
         hops := hs, banks := { b with start := b.start ++ h.data, needs := b.needs - 1 } :: rest
         mat := { w.mat with waitPhys := sat32 (w.mat.waitPhys + phys) } }))) ∧
       ((∀ k ∈ h :: hs, ∀ c ∈ b :: rest, ¬ awaits c k) → exec (.chainHopArrival ⟨q, phys⟩) s =
         .next (modPanel s q (fun w => { w with mat := { w.mat with waitPhys := sat32 (w.mat.waitPhys + phys) } }))))) ∧
  (∀ (s : State) (q draw phys : Nat) (flt : List (Nat × W32)) (p : Package) (w : Tile) (rest : List Tile), jobRuns s p →
     (panelOf s q).emitted = w :: rest →
     ((panelOf s q).queue.length < 8 → ∃ t, exec (.tilePush ⟨q, phys⟩ draw flt) s = .next t ∧ t.mem = s.mem ∧
       (panelOf t q).emitted = rest ∧ (panelOf t q).seq = ((panelOf s q).seq + 1) % 2 ^ 32 ∧
       (panelOf t q).mat.tilesPushed = sat32 ((panelOf s q).mat.tilesPushed + 1) ∧
       (panelOf t q).mat.waitPhys = sat32 ((panelOf s q).mat.waitPhys + phys) ∧
       (∃ sampled, (panelOf t q).queue = (panelOf s q).queue ++
         [{ w with data := faulty w.data flt, nonfinite := (faulty w.data flt).any (fun x => !(f32IsFinite x)),
                   seq := (panelOf s q).seq, sampled := sampled }] ∧
         (draw % 2 ^ setting s 0x100 0 ≠ 0 → sampled = false ∧ t.hubs = s.hubs)) ∧
       ((panelOf t q).mat.accNonfinite = ((panelOf s q).mat.accNonfinite ||
         (faulty w.data flt).any (fun x => !(f32IsFinite x)))) ∧
       (∀ r, r ≠ q → panelOf t r = panelOf s r)) ∧
     (8 ≤ (panelOf s q).queue.length → ∃ t, exec (.tilePush ⟨q, phys⟩ draw flt) s = .next t ∧ t.mem = s.mem ∧ t.hubs = s.hubs ∧
       (panelOf t q).mat.queueWait = true ∧ (panelOf t q).mat.waitPhys = sat32 ((panelOf s q).mat.waitPhys + phys) ∧
       (panelOf t q).emitted = (panelOf s q).emitted ∧
       (panelOf t q).queue = (panelOf s q).queue ∧ (panelOf t q).seq = (panelOf s q).seq))

/-- R41, R88, R166: FOLD between tensors that exist completes, into a folded format or into L16, and where memory holds no
error every byte outside the planes of the destination reads as before; between tensors that are not spooled FOLD into L16
writes every element, in order, as its L16 rounding, counted. R96, R97, R118, R166: CHAIN places its chain on every free
panel of the set. One whose source is there begins its first pass; one that reads an empty tile queue waits, with
NEEDLE_WAIT set; on a panel whose chain still runs, or that holds
its later slots, the slot waits in the stitch FIFO (log entries 66 and 80, the model's reading); so does a FOLD on a set with
such a panel. HEAD_ENTRY_ARRIVAL begins a waiting chain and counts its wait, and CHAIN_COMPLETE removes a chain whose passes
are done, counts it, and with CONSUME releases the head entry. The slots that waited then act: as long as one at the head of
a FIFO can act it leaves its FIFO and does so; a needle slot starts its chain with the STEP and MICRO of its own stitch. -/
def Obligations.FoldAndChainResult : Prop :=
  (∀ (s : State) (p : Package) (x : SlotRef) (fd : FoldDesc), slotsAct s p → descOf p x.desc = .fold fd →
     (∃ q ∈ slotPanels s p x.pset, panelHeld (panelOf s q) = true) → fifoFree s (slotPanels s p x.pset) = true →
     exec (.fold x) s = .next (allWait s (slotPanels s p x.pset) (fifoSlot s 0 2 x.desc (slotPanels s p x.pset) none))) ∧
  (∀ (s : State) (p : Package) (x : SlotRef) (fd : FoldDesc) (ts td : TensorDesc), slotsAct s p →
     descOf p x.desc = .fold fd → tensorOf p fd.src = some ts → tensorOf p fd.dst = some td →
     foldOk s p fd ts td (slotPanels s p x.pset) = true → (∀ q ∈ slotPanels s p x.pset, panelHeld (panelOf s q) = false) →
     (td.fmt = .l16 → memClean s = true → ts.spooled = false → td.spooled = false →
       exec (.fold x) s = .next ((List.range (tensorSize td)).foldl (fun u e =>
         let q := (slotPanels s p x.pset).getD (partOfBlock (tensorSize td) (slotPanels s p x.pset).length e) 0
         putL16 u p s.job.step s.shut.micro td (planesOf s p q fd.dst td) td.sr e
           (readElem (viewMem s) ts (planesOf s p q fd.src ts) e)) s)) ∧
     (td.fmt = .l16 ∨ fmtNarrow td.fmt = true → ∃ t, exec (.fold x) s = .next t ∧
       (memClean s = true → slotPanels s p x.pset ≠ [] → ∀ n, (∀ q ∈ slotPanels s p x.pset,
         ¬ planesHave td (planesOf s p q fd.dst td) n) → memGet t.mem n = memGet s.mem n))) ∧
  ((∀ (s : State) (p : Package) (x : SlotRef) (b : BindDesc) (e : ChainEntry), slotsAct s p →
     descOf p x.desc = .bind b → p.chains[b.chain]? = some e → fifoFree s (slotPanels s p x.pset) = true →
     (∀ q ∈ slotPanels s p x.pset, chainHeld (panelOf s q) = true ∨
       e.source = 1 ∧ (panelOf s q).queue = [] ∨ (chainSource p e b (headTile s q)).isSome = true) →
     ∃ t, exec (.chain x) s = .next t ∧ t.mem = s.mem ∧ t.job = s.job ∧
       (∀ q, q ∉ slotPanels s p x.pset → panelOf t q = panelOf s q) ∧
       (∀ j, j < (slotPanels s p x.pset).length →
         let q := (slotPanels s p x.pset).getD j 0
         chainHeld (panelOf s q) = true → panelOf t q = { panelOf s q with
           fifo := (panelOf s q).fifo ++ [fifoSlot s 1 1 x.desc (slotPanels s p x.pset) none j] }) ∧
       ∀ q ∈ slotPanels s p x.pset, chainHeld (panelOf s q) = false →
         ∃ c, (panelOf t q).chain = some c ∧ c.entry = e ∧ c.bind = b ∧ c.step = s.job.step ∧ c.micro = s.shut.micro ∧
         (panelOf t q).queue = (panelOf s q).queue ∧
         (c.waiting = true ↔ e.source = 1 ∧ (panelOf s q).queue = []) ∧
         (c.waiting = true → (panelOf t q).ndl.needleWait = true) ∧
         (c.waiting = false → c.pass = 0 ∧ c.instr = 0 ∧
           ∃ k, chainSource p e b (headTile s q) = some k ∧ c.tag = k.1 ∧ c.positions = k.2.2)) ∧
   (∀ (s : State) (q phys : Nat) (p : Package) (c : ChainRun) (h : Tile), jobRuns s p → (panelOf s q).chain = some c →
     headTile s q = some h → c.waiting = true → (chainSource p c.entry c.bind (some h)).isSome = true →
     ∃ t, exec (.headEntryArrival q phys) s = letGo p t ∧ (noSlots s → letGo p t = .next t) ∧ t.mem = s.mem ∧
       (∃ c1, (panelOf t q).chain = some c1 ∧ c1.waiting = false ∧ c1.entry = c.entry ∧ c1.pass = 0) ∧
       (panelOf t q).ndl.waitPhys = sat32 ((panelOf s q).ndl.waitPhys + phys) ∧ (panelOf t q).ndl.needleWait = true ∧
       (panelOf t q).queue = (panelOf s q).queue) ∧
   (∀ (s : State) (q : Nat) (p : Package) (c : ChainRun), s.job.pkg = some p → (panelOf s q).chain = some c →
     c.waiting = false → chainPasses c ≤ c.pass →
     let queue := if c.entry.consume then (panelOf s q).queue.drop 1 else (panelOf s q).queue
     ∃ t, exec (.chainComplete q) s = letGo p t ∧ (noSlots s → letGo p t = .next t) ∧ t.mem = s.mem ∧
       (panelOf t q).chain = none ∧ (panelOf t q).ndl.chains = sat32 ((panelOf s q).ndl.chains + 1) ∧
       (panelOf t q).queue = queue ∧ (panelOf t q).fifo = (panelOf s q).fifo) ∧
   (∀ (s : State) (p : Package), stepGone s = false →
     (nextHeld p s = none → letGo p s = .next s) ∧
     (∀ q f, nextHeld p s = some (q, f) → (∃ w, (q, w) ∈ s.panels ∧ w.fifo.head? = some f ∧ slotReady p s w f = true) ∧
       letGo p s = outThen (slotRun p f q s) (drainFifos p (heldSlots s - 1))) ∧
     (∀ q f b e, s.job.pkg = some p → f.cls = 1 → descOf p f.desc = .bind b → p.chains[b.chain]? = some e →
       e.source = 1 ∧ (panelOf s q).queue = [] ∨ (chainSource p e b (headTile s q)).isSome = true →
       ∃ t c1, slotRun p f q s = .next t ∧ t.mem = s.mem ∧ (panelOf t q).chain = some c1 ∧ c1.entry = e ∧
         c1.bind = b ∧ c1.step = f.step ∧ c1.micro = f.micro ∧ (panelOf t q).fifo = (panelOf s q).fifo.drop 1 ∧
         (panelOf t q).queue = (panelOf s q).queue ∧ t.job = s.job ∧ t.shut = s.shut ∧
         ∀ r, r ≠ q → panelOf t r = panelOf s r)))

/-- R166, R171, R186: COPY completes where its parts exist. Where memory holds no error every byte outside the
destinations reads as before; where besides nothing protects the destination the operation joins its mover queue and the
job is as before, and a COPY of one panel into a flat destination leaves there what the source held. R172: on panels that hold
it COPY joins its mover queue and waits in their stitch FIFOs (log entry 80, the model's reading). R169, R185, R259:
MOVER_COMPLETION of an operation that has nothing left to wait for takes it out of the operations in progress; while the
job's end is not due, nothing else changes. -/
def Obligations.CopyAndCompletionResult : Prop :=
  (∀ (s : State) (p : Package) (x : MovRef) (m : MoveDesc), slotsAct s p → descOf p x.desc = .move m →
     let queued := startOp s x.queue (.copy (copyDsts s m x.desc (slotPanels s p x.pset)))
     ((∀ q ∈ slotPanels s p x.pset, panelHeld (panelOf s q) = true) → fifoFree s (slotPanels s p x.pset) = true →
       exec (.copy x) s = .next (allWait queued (slotPanels s p x.pset)
         (fifoSlot s 3 1 x.desc (slotPanels s p x.pset) (some s.shut.nextOp)))) ∧
     (copyReady s p m x.desc (slotPanels s p x.pset) → (∀ q ∈ slotPanels s p x.pset, panelHeld (panelOf s q) = false) →
     ∃ t, exec (.copy x) s = .next t ∧
       (memClean s = true →
         ∀ n, ¬ copyHas s p m x.desc (slotPanels s p x.pset) n → memGet t.mem n = memGet s.mem n) ∧
       (plainWrites s → t.job = s.job ∧ (m.srcSp = false → m.dstSp = false → t.panels = s.panels) ∧
         t.shut.movers = s.shut.movers ++ [⟨s.shut.nextOp, x.queue, .copy (copyDsts s m x.desc (slotPanels s p x.pset))⟩] ∧
         (∀ q a, slotPanels s p x.pset = [q] →
           movePlace s p q 0 x.desc m.dstSp m.dst m.dstMstride m.dstPstride = .flat a →
           memBytes t.mem a m.len = placeGet (viewMem s)
             (movePlace s p q 0 x.desc m.srcSp m.src m.srcMstride m.srcPstride) 0 m.len)))) ∧
  (∀ (s : State) (queue op : Nat) (o : MovOp), opOf s op = some o → o.queue = queue → opDone s o = true →
     ∃ t, exec (.moverCompletion queue op) s = .next t ∧ t.mem = s.mem ∧ (∀ v ∈ t.shut.movers, v.id ≠ op) ∧
       (s.job.endDue = false →
         t = { s with shut := { s.shut with movers := s.shut.movers.filter (fun v => v.id != op) } }))

/-- R121, R122, R124, R127, R128: SPUSH completes. Where no earlier spool operation waits on the panels of its set and
nothing protects the writes, each panel by itself does this: with room it allocates its entry above the top entry and
counts it; without room it waits for a return in progress (the model's choice, log entry 38) or for a spill where the
bottom entry fits the extension share; otherwise the entry is void, and the first void entry of a step sets DEFICIT. R121,
R125: SPOP releases the top entry of the ring, or, with the ring empty, waits for the return of the extension's top entry.
SPOOL_RETURN_DONE puts that entry below the bottom of the ring, counts it and its wait, and releases a pop that waits.
R124, R132: SPILL, while no return is in progress and the entry has no writes outstanding, moves the oldest entry whole to the top of the extension share, counts
it and its wait and sets SPILL_SEEN; a push that waited then allocates where there is room. Memory outside the extension
entry and the new headers reads as before. R172: where every panel
of its set holds it, SPUSH or SPOP joins its queue and waits in the stitch FIFOs; a spill and a return let waiting slots go
(log entry 80, the model's reading). -/
def Obligations.SpoolResult : Prop :=
  (∀ (s : State) (p : Package) (x : MovRef) (t : TensorDesc), streamRuns s p → tensorOf p x.desc = some t →
     t.spooled = true → (∀ q ∈ slotPanels s p x.pset, rangeOk (ringStart p q) (spoolSize p) = true) →
     fifoFree s (slotPanels s p x.pset) = true →
     (s.fence.abandoned = false → (∀ q ∈ slotPanels s p x.pset, spoolHeld (panelOf s q) = true) →
       exec (.spush x) s = .next (allWait (startOp s x.queue .spush) (slotPanels s p x.pset)
         (fifoSlot s 3 2 x.desc (slotPanels s p x.pset) (some s.shut.nextOp)))) ∧
     ∃ u, exec (.spush x) s = .next u ∧ (plainWrites s →
       (∀ q ∈ slotPanels s p x.pset, spoolHeld (panelOf s q) = false ∧ (spoolOf s q).waits = []) →
       u.shut.movers = s.shut.movers ++ [⟨s.shut.nextOp, x.queue, .spush⟩] ∧
       (∀ n, (∀ q ∈ slotPanels s p x.pset,
         ¬ placeHas (.ring (ringStart p q) (spoolSize p) (topOffset p (spoolOf s q))) 0 64 n) →
         memGet u.mem n = memGet s.mem n) ∧
       ∀ q ∈ slotPanels s p x.pset,
         let room := decide (64 + t.spoolBytes ≤ ringFree p (spoolOf s q))
         ((spoolOf s q).voidMode = false → room = true →
           (spoolOf u q).ring = (spoolOf s q).ring ++
             [newEntry s q x.desc s.shut.micro t false (topOffset p (spoolOf s q))] ∧
           (spoolOf u q).waits = [] ∧ (spoolOf u q).voids = (spoolOf s q).voids ∧
           (spoolOf u q).stat.pushes = sat32 ((spoolOf s q).stat.pushes + 1)) ∧
         ((spoolOf s q).voidMode = false → room = false → (spoolOf s q).returning = true ∨ spillFits s q = true →
           (spoolOf u q).waits = [.push s.shut.nextOp x.desc s.shut.micro] ∧ (spoolOf u q).ring = (spoolOf s q).ring ∧
           (spoolOf u q).ext = (spoolOf s q).ext ∧ (spoolOf u q).voids = (spoolOf s q).voids ∧
           (spoolOf u q).stat = (spoolOf s q).stat) ∧
         ((spoolOf s q).voidMode = true ∨ (room = false ∧ (spoolOf s q).returning = false ∧ spillFits s q = false) →
           (spoolOf u q).ring = (spoolOf s q).ring ∧ (spoolOf u q).voidMode = true ∧
           (spoolOf u q).voids = (spoolOf s q).voids ++ [newEntry s q x.desc s.shut.micro t true 0] ∧
           (spoolOf u q).stat.voidPushes = sat32 ((spoolOf s q).stat.voidPushes + 1) ∧
           ((spoolOf s q).voidMode = false → (spoolOf u q).stat.deficit = true ∧ u.job.deficit = true)))) ∧
  ((∀ (s : State) (p : Package) (x : MovRef) (t : TensorDesc), streamRuns s p → tensorOf p x.desc = some t →
     t.spooled = true → fifoFree s (slotPanels s p x.pset) = true →
     (s.fence.abandoned = false → (∀ q ∈ slotPanels s p x.pset, spoolHeld (panelOf s q) = true) →
       exec (.spop x) s = .next (allWait (startOp s x.queue .spop) (slotPanels s p x.pset)
         (fifoSlot s 3 3 x.desc (slotPanels s p x.pset) (some s.shut.nextOp)))) ∧
     ∃ u, exec (.spop x) s = .next u ∧ u.mem = s.mem ∧
       u.shut.movers = s.shut.movers ++ [⟨s.shut.nextOp, x.queue, .spop⟩] ∧
       ∀ q ∈ slotPanels s p x.pset, (spoolOf u q).ext = (spoolOf s q).ext ∧
         (s.fence.abandoned = false → spoolHeld (panelOf s q) = false → (spoolOf s q).waits = [] →
         (spoolOf u q).ring = (spoolOf s q).ring.dropLast ∧
         ((spoolOf s q).ring ≠ [] → (spoolOf u q).waits = [] ∧
           (spoolOf u q).stat.pops = sat32 ((spoolOf s q).stat.pops + 1)) ∧
         ((spoolOf s q).ring = [] → (spoolOf s q).ext ≠ [] → (spoolOf u q).waits = [.pop s.shut.nextOp x.desc] ∧
           (spoolOf u q).stat = (spoolOf s q).stat))) ∧
   (∀ (s : State) (p : Package) (q phys : Nat) (e : SpoolEntry), jobRuns s p → (spoolOf s q).returning = true →
     (spoolOf s q).ext.getLast? = some e →
     ∃ u, exec (.spoolReturnDone q phys) s = letGo p u ∧ (noSlots s → letGo p u = .next u) ∧ (plainWrites s →
       (spoolOf u q).ext = (spoolOf s q).ext.dropLast ∧
       (spoolOf u q).stat.returnEntries = sat32 ((spoolOf s q).stat.returnEntries + 1) ∧
       (spoolOf u q).stat.returnWait = sat32 ((spoolOf s q).stat.returnWait + phys) ∧
       (let e1 := { e with off := bottomOffset p (spoolOf s q) (64 + e.bytes) }
        ((spoolOf s q).waits = [] → (spoolOf u q).ring = e1 :: (spoolOf s q).ring) ∧
        (∀ id d, (spoolOf s q).waits = [.pop id d] → (spoolOf u q).waits = [] ∧
          (spoolOf u q).ring = (e1 :: (spoolOf s q).ring).dropLast ∧
          (spoolOf u q).stat.pops = sat32 ((spoolOf s q).stat.pops + 1))) ∧
       ∀ r, r ≠ q → panelOf u r = panelOf s r))) ∧
  (∀ (s : State) (p : Package) (q phys id d micro : Nat) (more : List SpoolOp) (e : SpoolEntry) (rest : List SpoolEntry)
     (t : TensorDesc), jobRuns s p → (spoolOf s q).waits = .push id d micro :: more → (spoolOf s q).ring = e :: rest →
     tensorOf p d = some t → (spoolOf s q).returning = false →
     (writesOut p s q e = true → exec (.spill q phys) s = .next s) ∧
     (writesOut p s q e = false →
     ∃ u, exec (.spill q phys) s = letGo p u ∧ (noSlots s → letGo p u = .next u) ∧ (plainWrites s →
       (spoolOf u q).ext = (spoolOf s q).ext ++ [{ e with spilled := true, off := extUsed (spoolOf s q) }] ∧
       (spoolOf u q).stat.spillEntries = sat32 ((spoolOf s q).stat.spillEntries + 1) ∧
       (spoolOf u q).stat.spillWait = sat32 ((spoolOf s q).stat.spillWait + phys) ∧
       (spoolOf u q).stat.spillSeen = true ∧ (∀ r, r ≠ q → panelOf u r = panelOf s r) ∧
       (more = [] → ((spoolOf s q).voidMode = false →
         64 + t.spoolBytes ≤ ringFree p { spoolOf s q with ring := rest } → (spoolOf u q).waits = [] ∧
         ∃ o, (spoolOf u q).ring = rest ++ [newEntry s q d micro t false o]) ∧
       (∀ n, ¬ (extStart s q + extUsed (spoolOf s q) ≤ n ∧
           n < extStart s q + extUsed (spoolOf s q) + 64 + e.bytes) →
         ¬ placeHas (.ring (ringStart p q) (spoolSize p) (topOffset p { spoolOf s q with ring := rest })) 0 64 n →
         memGet u.mem n = memGet s.mem n)))))

/-- R138, R140, R160, R166: with the step's fence passed APPLY completes where its tensors exist; where memory holds no
error every byte outside the element planes of w and ρ reads as before. On one panel, with tensors of one size that share
no byte and are not spooled, and with writes that nothing protects, every element of w and of ρ takes the result of the
update rule on its old values and Δ. Before the fence APPLY has no next state. R142: the update rule on values that are
not finite. A NaN in w or Δ, or opposite infinities, give the NaN code and remnant 0; an infinite w stays; an infinite Δ
gives the infinity of its sign. A non-finite result has remnant 0 and no carry. R172: on panels that hold it APPLY joins its mover
queue and waits in their stitch FIFOs (log entry 80, the model's reading). -/
def Obligations.ApplyResult : Prop :=
  (∀ (s : State) (p : Package) (x : MovRef) (b : BindDesc) (dd dw dr : Nat) (td tw tr : TensorDesc), slotsAct s p →
     descOf p x.desc = .bind b → b.binds.getD 0 none = some dd → b.binds.getD 1 none = some dw →
     b.binds.getD 2 none = some dr → tensorOf p dd = some td → tensorOf p dw = some tw → tensorOf p dr = some tr →
     td.fmt = .f32 → tw.fmt = .l16 → tr.fmt = .rem8 →
     (s.fence.passed = true →
       ((∀ q ∈ slotPanels s p x.pset, panelHeld (panelOf s q) = true) → fifoFree s (slotPanels s p x.pset) = true →
       exec (.apply x) s = .next (allWait (startOp s x.queue .apply) (slotPanels s p x.pset)
         (fifoSlot s 3 4 x.desc (slotPanels s p x.pset) (some s.shut.nextOp))))) ∧
     ((∀ q ∈ slotPanels s p x.pset, panelHeld (panelOf s q) = false ∧ planesOk td (planesOf s p q dd td) = true ∧ planesOk tw (planesOf s p q dw tw) = true ∧
       planesOk tr (planesOf s p q dr tr) = true) →
     (s.fence.passed = true → ∃ t, exec (.apply x) s = .next t ∧
       (memClean s = true → ∀ n, (∀ q ∈ slotPanels s p x.pset,
           ¬ placeHas (planesOf s p q dw tw).elem 0 (elemBytes tw) n ∧
           ¬ placeHas (planesOf s p q dr tr).elem 0 (elemBytes tr) n) →
         memGet t.mem n = memGet s.mem n) ∧
       (∀ q, slotPanels s p x.pset = [q] → plainWrites s → td.spooled = false → tw.spooled = false → tr.spooled = false →
         tensorSize td = tensorSize tw → tensorSize tr = tensorSize tw →
         let pd := planesOf s p q dd td
         let pw := planesOf s p q dw tw
         let pr := planesOf s p q dr tr
         (∀ n, ¬ (placeHas pd.elem 0 (elemBytes td) n ∧ placeHas pw.elem 0 (elemBytes tw) n) ∧
           ¬ (placeHas pd.elem 0 (elemBytes td) n ∧ placeHas pr.elem 0 (elemBytes tr) n) ∧
           ¬ (placeHas pw.elem 0 (elemBytes tw) n ∧ placeHas pr.elem 0 (elemBytes tr) n)) →
         ∀ i, i < tensorSize tw →
           let r := applyPair (BitVec.ofNat 16 (readDense (viewMem s) tw pw i))
             (BitVec.ofNat 8 (readDense (viewMem s) tr pr i)) (readElem (viewMem s) td pd i)
           BitVec.ofNat 16 (readDense (viewMem t) tw pw i) = r.w ∧ BitVec.ofNat 8 (readDense (viewMem t) tr pr i) = r.rho)) ∧
     (s.fence.passed = false → ∀ t, exec (.apply x) s ≠ .next t))) ∧
  (∀ (w : L16) (rho : Byte) (d : F32),
     (f32IsNaN (l16ToF32 w) = true ∨ f32IsNaN d = true → applyPair w rho d = ⟨0x7FC0#16, 0#8, false⟩) ∧
     (f32IsInf (l16ToF32 w) = true → f32IsFinite d = true → applyPair w rho d = ⟨w, 0#8, false⟩) ∧
     (f32IsInf (l16ToF32 w) = true → f32IsInf d = true → f32Sign d ≠ f32Sign (l16ToF32 w) →
       applyPair w rho d = ⟨0x7FC0#16, 0#8, false⟩) ∧
     (f32IsFinite (l16ToF32 w) = true → f32IsInf d = true →
       applyPair w rho d = ⟨if f32Sign d then 0xFF80#16 else 0x7F80#16, 0#8, false⟩) ∧
     (f32IsFinite (l16ToF32 (applyPair w rho d).w) = false →
       (applyPair w rho d).rho = 0#8 ∧ (applyPair w rho d).carry = false))

/-- R251, R252: an INGEST whose slot is HELD for STEP + AHEAD copies its records to LOCAL on each panel; otherwise it
waits in its mover queue, and INGEST_COPY makes the copy once the slot is HELD. R253, R361, R362: an EMIT whose bytes
exist completes and leaves memory as it is; with no OPEN flow of its stream it waits with all it has to send. R240, R241,
R244, R253: with one OPEN flow, below its PSN limits, all of it leaves on that flow in WRITE packets of the flow's payload
size at most, in order, under the following PSNs, with FENCE_W on the last; each stays with the flow until acknowledged, and
goes out in its frame on a port that is up and not paused. A NOTE
posts its record, numbered and stamped, behind the notes of its mailbox; a full queue of 64 loses its oldest. -/
def Obligations.StreamMoverResult : Prop :=
  (∀ (s : State) (p : Package) (x : MovRef) (d : StreamDesc), jobRuns s p → descOf p x.desc = .stream d →
     d.emit = false → memClean s = true →
     (ingestHeld s d = false → Machine.issuing s = true → exec (.ingest x) s = .next { s with shut := { s.shut with
       movers := s.shut.movers ++
         [⟨s.shut.nextOp, x.queue, .ingestWait x.desc s.shut.micro (slotPanels s p x.pset)⟩]
       nextOp := s.shut.nextOp + 1 } }) ∧
     (∀ op micro ps, ingestHeld s d = true → rangeOk (ingestSrc s d) (d.records * d.recordBytes) = true →
       (∀ q ∈ ps, rangeOk (ingestDst d micro q) (d.records * d.recordBytes) = true) →
       ((Machine.issuing s = true ∧ micro = s.shut.micro ∧ ps = slotPanels s p x.pset →
         ∃ t, exec (.ingest x) s = .next t ∧ t.shut.nextOp = s.shut.nextOp + 1 ∧
           (∀ n, (∀ q ∈ ps, ¬ (ingestDst d micro q ≤ n ∧ n < ingestDst d micro q + d.records * d.recordBytes)) →
             memGet t.mem n = memGet s.mem n) ∧
           (plainWrites s → ∀ q, ps = [q] → memBytes t.mem (ingestDst d micro q) (d.records * d.recordBytes) =
             memBytes (viewMem s) (ingestSrc s d) (d.records * d.recordBytes))) ∧
        ((opOf s op).map MovOp.kind = some (.ingestWait x.desc micro ps) →
         ∃ t, exec (.ingestCopy op) s = .next t ∧
           (∀ n, (∀ q ∈ ps, ¬ (ingestDst d micro q ≤ n ∧ n < ingestDst d micro q + d.records * d.recordBytes)) →
             memGet t.mem n = memGet s.mem n) ∧
           (plainWrites s → ∀ q, ps = [q] → memBytes t.mem (ingestDst d micro q) (d.records * d.recordBytes) =
             memBytes (viewMem s) (ingestSrc s d) (d.records * d.recordBytes)))))) ∧
  ((∀ (s : State) (p : Package) (x : MovRef) (d : StreamDesc), streamRuns s p → descOf p x.desc = .stream d →
     d.emit = true → memClean s = true →
     let a := resolveAddr ((slotPanels s p x.pset).getD 0 0) (256 * d.loc + microBytes s d.mstride)
     let r := d.remote + s.job.step * d.remoteStep * 256
     rangeOk a d.len = true →
     ∃ t, exec (.emit x) s = .next t ∧ t.mem = s.mem ∧ t.panels = s.panels ∧
       (openFlows s .emit d.stream = [] → s.shut.movers = [] → 0 < d.len →
         t.shut.movers = [⟨s.shut.nextOp, x.queue,
           .emit d.stream x.desc [(r, memBytes (viewMem s) a d.len)] (r + d.len)⟩]) ∧
       (∀ f v, openFlows s .emit d.stream = [f] → flowOf s f = some v → v.st = .opened → v.kind = .emit →
         s.shut.movers = [] → 0 < d.len →
         let cuts := chunks (max v.payload 64) d.len (memBytes (viewMem s) a d.len)
         v.txNext + cuts.length < 2 ^ 32 - 1 → v.txNext + cuts.length ≤ 2 ^ 31 ∨ 2 ^ 31 < v.txNext →
         let pk := emitPackets s f v s.shut.nextOp r (max v.payload 64) cuts
         t.shut.movers = [⟨s.shut.nextOp, x.queue, .emit d.stream x.desc [] (r + d.len)⟩] ∧
         (∃ u, flowOf t f = some u ∧ u.out = v.out ++ pk ∧ u.txNext = v.txNext + cuts.length) ∧
         ((hostPortOf s v.port).up = true → (hostPortOf s v.port).paused = 0 →
           (hostPortOf t v.port).sent = (hostPortOf s v.port).sent ++ pk.map (fun k =>
             frameOn s v.port false v.farAddr (49152 + f % 16384) (setting s 0x136 v.port) true
               (sealPkt (prkOf s v.session) k.hdr k.payload none))))) ∧
   (∀ (s : State) (p : Package) (x : MovRef) (d : NoteDesc), streamRuns s p → descOf p x.desc = .note d →
     memClean s = true →
     let a := resolveAddr ((slotPanels s p x.pset).getD 0 0) (256 * d.src + microBytes s d.mstride)
     rangeOk a d.len = true →
     ∃ t, exec (.note x) s = .next t ∧ t.mem = s.mem ∧ t.panels = s.panels ∧
       t.shut.movers = s.shut.movers ++ [⟨s.shut.nextOp, x.queue, .note⟩] ∧
       (noteQueueOf t d.mailbox).seq = ((noteQueueOf s d.mailbox).seq + 1) % 2 ^ 32 ∧
       ((noteQueueOf s d.mailbox).notes.length ≤ 64 →
         (noteQueueOf t d.mailbox).notes =
         (if (noteQueueOf s d.mailbox).notes.length = 64 then (noteQueueOf s d.mailbox).notes.drop 1
          else (noteQueueOf s d.mailbox).notes) ++
         [{ code := d.code, seq := (noteQueueOf s d.mailbox).seq, step := s.job.step, micro := s.shut.micro
            variant := s.shut.variant, rank := p.plan.rank, payload := memBytes (viewMem s) a d.len }])))

/-- R229, R230: a COLL of a rank outside its group moves nothing; R297: one in the forced state is noted in its step. A rank of the group completes the issue where its
source and destination exist, and, with nothing of that COLL held in the reduction buffer, every byte outside DST reads
as before. R67, R231: COLL_FOLD of a segment of the rank's
own shard, with a contribution of every position, writes the sums in ascending rank order to DST and nowhere else,
and takes the contributions out of the reduction buffer. R67: the sum of contributions adds them one at a time, in
ascending rank order, with one F32 rounding each; an L16 collective rounds once more at the end. -/
def Obligations.CollectiveResult : Prop :=
  (∀ (s : State) (p : Package) (x : MovRef) (c : CollDesc), streamRuns s p → collOf p x.desc = some c →
     (collView p c = none → exec (.coll x) s = .next { s with
       job := { s.job with stepForced := s.job.stepForced || s.therm.forced }
       shut := { s.shut with
         movers := s.shut.movers ++ [⟨s.shut.nextOp, x.queue, .coll x.desc s.shut.micro⟩]
         nextOp := s.shut.nextOp + 1 } }) ∧
     (∀ v, collView p c = some v → memClean s = true →
       let q := (slotPanels s p x.pset).getD 0 0
       rangeOk (collSrc c q s.shut.micro) (collSrcBytes v) = true →
       rangeOk (collDst c q s.shut.micro) (collBytes v) = true →
       ∃ t, exec (.coll x) s = .next t ∧
         ((∀ e ∈ s.coll.buffer, ¬ (e.head.desc = x.desc ∧ e.head.micro = s.shut.micro)) →
           ∀ n, ¬ (collDst c q s.shut.micro ≤ n ∧ n < collDst c q s.shut.micro + collBytes v) →
             memGet t.mem n = memGet s.mem n))) ∧
  (∀ (s : State) (p : Package) (desc micro seg : Nat) (r : CollRun) (c : CollDesc) (v : CollView) (parts : List (List Byte)),
     jobRuns s p → s.fence.abandoned = false → s.coll.runs.find? (fun r => r.desc == desc && r.micro == micro) = some r →
     collOf p desc = some c → collView p c = some v → c.op = 0 ∨ c.op = 2 → seg < segCount (shardLen v v.pos) →
     seg ∉ r.folded → memClean s = true →
     let n := min 65536 (shardLen v v.pos - 65536 * seg)
     let own := memBytes (viewMem s) (collSrc c r.panel micro + shardOff v v.pos + 65536 * seg) n
     let dst := collDst c r.panel micro + (if c.op = 2 then shardOff v v.pos else 0) + 65536 * seg
     v.gs.map (fun g => if g = p.plan.rank then some own else contribOf s desc micro seg g) = parts.map some →
     ∃ t, exec (.collFold desc micro seg) s = .next t ∧
       (∀ e ∈ t.coll.buffer, ¬ (e.head.desc = desc ∧ e.head.micro = micro ∧ e.head.phase = 0 ∧ e.head.segment = seg)) ∧
       (∀ k, ¬ (dst ≤ k ∧ k < dst + n) → memGet t.mem k = memGet s.mem k) ∧
       (plainWrites s → memBytes t.mem dst (foldBytes c n parts).length = foldBytes c n parts)) ∧
  ((∀ (xs : List F32) (x : F32), xs ≠ [] → reduceF32 (xs ++ [x]) = f32Add (reduceF32 xs) x) ∧
   (∀ x : F32, reduceF32 [x] = x) ∧
   (∀ xs : List L16, reduceL16 xs = l16OfF32 (reduceF32 (xs.map l16ToF32))))

/-- R165, R167, R175: NEXT, JUMP, LOOP and SETC issue and set the address of the next stitch and the loop counters; a
LOOP whose counter is 0 falls through, one whose counter reaches 0 leaves the loop. At a duty of q, m whole windows of 64
opportunities have held m × q idle stitches when the next stitch issues; that the idle stitches a window owes take its last
opportunities, on which the counts and the window's place rest, is the model's choice (log entry 67). R74, R167: the three MICRO operations. Adding
beyond NMICRO − 1, or from 0xFFFF, abandons the step and stops the job with MICRO_LIMIT, MICRO going back to its value at
the STEP_OPEN. R169, R175, R184, R268: IDLE_STITCH takes one issue opportunity while the window has had fewer than q;
SYNC_RELEASE waits while an earlier operation of a queue that the wait has named is open, and issues after it; SYNC_LATE
tells the host once in a wait, from the source srcShuttle, which is the model's choice (log entry 29). -/
def Obligations.StitchFlowResult : Prop :=
  (∀ (s : State) (p : Package) (gap arg ctr : Nat), streamRuns s p →
     let v := issued (dutyOf s % 64) s.shut gap
     let n := s.shut.ctrs.getD (ctr % 4) 0
     (∃ t, exec (.next gap) s = .next t ∧ onlyFlow s t ∧ t.shut = { v with addr := (s.shut.addr + 1) % 2 ^ 20 }) ∧
     (∃ t, exec (.jump arg gap) s = .next t ∧ onlyFlow s t ∧ t.shut = { v with addr := arg % 2 ^ 20 }) ∧
     (∃ t, exec (.setc ctr arg gap) s = .next t ∧ onlyFlow s t ∧
       t.shut = { v with ctrs := ctrsWith s.shut (ctr % 4) (arg % 2 ^ 20), addr := (s.shut.addr + 1) % 2 ^ 20 }) ∧
     (∃ t, exec (.loop ctr arg gap) s = .next t ∧ onlyFlow s t ∧
       (n = 0 → t.shut = { v with addr := (s.shut.addr + 1) % 2 ^ 20 }) ∧
       (n = 1 → t.shut = { v with ctrs := ctrsWith s.shut (ctr % 4) 0, addr := (s.shut.addr + 1) % 2 ^ 20 }) ∧
       (2 ≤ n → t.shut = { v with ctrs := ctrsWith s.shut (ctr % 4) (n - 1), addr := arg % 2 ^ 20 }))) ∧
  (∀ q m : Nat, q < 64 → (idlesWithin q 0 0 (m * (64 - q) + 1)).1 = m * q) ∧
  (∀ (s : State) (p : Package), streamRuns s p →
     exec .microSetZero s = .next { s with shut := { s.shut with micro := 0 } } ∧
     exec .microSetNone s = .next { s with shut := { s.shut with micro := 0xFFFF } } ∧
     (s.shut.micro ≠ 0xFFFF → s.shut.micro + 1 < p.nmicro →
       exec .microAdd s = .next { s with shut := { s.shut with micro := s.shut.micro + 1 } }) ∧
     (s.shut.micro = 0xFFFF ∨ p.nmicro ≤ s.shut.micro + 1 → ∃ t, exec .microAdd s = .next t ∧ t.mem = s.mem ∧
       t.fence.abandoned = true ∧ t.job.held = true ∧ t.shut.micro = (if s.shut.inStep then s.shut.saved.micro else s.shut.micro) ∧
       (s.job.fault = none → t.job.fault = some .microLimit))) ∧
  (∀ (s : State) (p : Package), streamRuns s p →
     (s.shut.windowIdle < dutyOf s → exec .idleStitch s = .next { s with
       shut := { s.shut with
         idle := sat32 (s.shut.idle + 1), phys := sat64 (s.shut.phys + 1), window := (s.shut.window + 1) % 64
         windowIdle := if s.shut.window + 1 < 64 then s.shut.windowIdle + 1 else 0 }
       job := { s.job with stepIdle := s.job.stepIdle + 1 } }) ∧
     (dutyOf s ≤ s.shut.windowIdle → exec .idleStitch s = .next s)) ∧
  (∀ (s : State) (p : Package) (mask phys : Nat), jobRuns s p → streamOn s = true →
     ((∃ o ∈ s.shut.movers, bitOf mask o.queue = true ∨ bitOf s.shut.syncWait o.queue = true) →
       ∃ b, exec (.syncRelease mask phys) s =
         .next { s with shut := { s.shut with syncWait := mask % 256 ||| s.shut.syncWait, syncTold := b } }) ∧
     ((∀ o ∈ s.shut.movers, bitOf mask o.queue = false ∧ bitOf s.shut.syncWait o.queue = false) → exec (.syncRelease mask phys) s = .next { s with
       shut := { s.shut with syncWait := 0, syncTold := false, syncWaitPhys := sat32 (s.shut.syncWaitPhys + phys)
                             phys := sat64 (s.shut.phys + phys) } })) ∧
  (∀ (s : State) (queue op : Nat), bitOf s.shut.syncWait queue = true → (∃ o ∈ s.shut.movers, o.queue = queue ∧ o.id = op) →
     (s.shut.syncTold = true → exec (.syncLate queue op) s = .next s) ∧
     (s.shut.syncTold = false → ∃ t, exec (.syncLate queue op) s = .next t ∧ t.shut = { s.shut with syncTold := true } ∧
       t.mem = s.mem ∧ t.job = s.job ∧
       t.mgmt.log.getLast? = some ⟨srcShuttle, .syncLate, tabGet 0 s.mgmt.seqs srcShuttle, eventStep s, [queue, op]⟩))

/-- R185, R259, R319: HALT makes the job's end due. With no EMIT, snapshot or held case in progress the job ends at
once: no package stays, the shuttle stops and the clearing of R20 begins; otherwise the job waits, held. R176, R359,
R360: a PMARK injects a mark of kind 2 with the next number, the last 8 are kept; MARK_LATCH adds the record of one
unit that has not yet latched it. R235: a seam port that is gated then adds the time it has been so to GATED_US, a free value
(log entry 2). A snapshot that is not captured is cancelled by the end of a job whose state is INVALID (log entry 48). -/
def Obligations.HaltAndMarkResult : Prop :=
  (∀ (s : State) (p : Package) (gap : Nat), streamRuns s p → ∃ t, exec (.halt gap) s = .next t ∧ t.mem = s.mem ∧
     (emitPending s = false → s.snap.snap = none → heldCases s = false →
       t.job.pkg = none ∧ t.dev.work = .jobClear ∧ t.shut.stopped = true ∧ t.shut.movers = [] ∧
       t.job.energy = s.job.energy) ∧
     (emitPending s = true ∨ (s.snap.snap.isSome = true ∧ s.job.invalid = false) ∨ heldCases s = true →
       t.job = { s.job with endDue := true, held := true, stepIdle := t.job.stepIdle } ∧ t.dev = s.dev)) ∧
  ((∀ (s : State) (p : Package), jobRuns s p → ∃ t, exec .pmark s = .next t ∧ t.mem = s.mem ∧ t.job = s.job ∧
     t.panels = s.panels ∧ t.mgmt.markNext = s.mgmt.markNext + 1 ∧ t.shut.marks = sat32 (s.shut.marks + 1) ∧
     t.mgmt.marks.getLast? = some (⟨s.mgmt.markNext, 2, s.job.step, [], s.job.fray⟩ : MarkRec) ∧
     (s.mgmt.marks.length ≤ 8 → t.mgmt.marks.length = min 8 (s.mgmt.marks.length + 1))) ∧
   (∀ (s : State) (pre post : List MarkRec) (k : MarkRec) (cls unit : Nat), s.mgmt.marks = pre ++ k :: post →
     (∀ r ∈ pre, r.number ≠ k.number) → (∀ r ∈ post, r.number ≠ k.number) → unit < classUnits cls →
     (∀ e ∈ k.records, ¬ (e.1 = cls ∧ e.2.1 = unit)) →
     ∃ t, exec (.markLatch k.number cls unit) s = .next t ∧ t.mem = s.mem ∧ t.panels = s.panels ∧
       t.mgmt.marks = pre ++ { k with records := k.records ++ [(cls, unit,
         statusRecord (if cls = 7 then gatedTime s unit else s) cls k.number unit)] } :: post))

/-- R174, R177, R183: GRADE and GRADE_RECIPE complete at every grade point; they count it, take t_gp and leave memory
and the step as they are. After a SPOOL_DEFICIT they abandon the step instead (R129). R177: GRADE may change the
grade, never the recipe or the recompute state of the variant in force, where no SPOOL_DEFICIT abandons the step. R266: with neither heat, fixed mode nor a switch in the way, a
grade point selects among the variants of the recipe that hold it, their grades available: GRADE those of the recipe in
force, the highest grade that budget and heat allow or, with none, the lowest; the clock follows it, at once or deferred.
R158, R177: GRADE_RECIPE, where a recipe is wanted that has such variants, selects among them; the change is logged with the
tags whose NUMERIC flags it clears, and is wanted no more. -/
def Obligations.GradePointResult : Prop :=
  (∀ (s : State) (p : Package) (gp : Nat), streamRuns s p → ∀ c ∈ [Instr.grade gp, Instr.gradeRecipe gp],
     ∃ t, exec c s = .next t ∧ t.mem = s.mem ∧ t.job.step = s.job.step ∧
       (s.job.deficit = false → t.shut.gradePoints = sat32 (s.shut.gradePoints + 1) ∧
         t.shut.cycles = sat64 (s.shut.cycles + 32) ∧ t.fence = s.fence ∧ t.panels = s.panels ∧
         t.shut.ctrs = s.shut.ctrs ∧ t.shut.micro = s.shut.micro) ∧
       (s.job.deficit = true → t.fence.abandoned = true ∧ t.fence.sent = true)) ∧
  (∀ (s t : State) (p : Package) (gp : Nat) (v w : Variant), streamRuns s p → s.job.deficit = false →
     exec (.grade gp) s = .next t → variantOf p s.shut.variant = some v → variantOf p t.shut.variant = some w →
     w.recipe = v.recipe ∧ w.recompute = v.recompute) ∧
  (∀ (s : State) (p : Package) (gp : Nat) (cur : Variant), streamRuns s p → s.job.deficit = false → freeChoice s →
     p.variants[s.shut.variant]? = some cur →
     (∃ t, exec (.grade gp) s = .next t ∧
       ((∃ i v, mayRun s p cur.recipe cur.recompute gp i v) → ∃ i v, choiceOf s p cur.recipe cur.recompute gp i v ∧
         t.shut.variant = i ∧ clockTo s t v.grade) ∧
       ((∀ i v, ¬ mayRun s p cur.recipe cur.recompute gp i v) → t.shut.variant = s.shut.variant)) ∧
     (∀ r, s.job.wantRecipe = some r → r ≠ cur.recipe → (∀ e ∈ s.job.replay, ¬ (e.step = s.job.step ∧ e.gp = gp)) →
       (∃ i v, mayRun s p r cur.recompute gp i v) →
       ∃ t, exec (.gradeRecipe gp) s = .next t ∧
         (∃ i v, choiceOf s p r cur.recompute gp i v ∧ t.shut.variant = i ∧ clockTo s t v.grade) ∧
         t.job.log = s.job.log ++ [⟨s.job.step, gp, r, s.job.clearTags⟩] ∧ t.job.wantRecipe = none ∧
         t.job.numeric = s.job.numeric.filter (fun g => !(s.job.clearTags.contains g))))

/-- R53, R74, R148, R176, R180: STEP_OPEN opens the step: the opening mark, the flow state to come back to, the fray
counters at the mark, the SEQ numbers, the entropy of the hubs, and a fence that has not passed. R65, R136: the destinations of ACC and of tied weights outside the job state then hold +0,
which for them is read from the rules (log entry 78), and no other byte changes; it waits while a case is held, a restore is
in progress or the state is INVALID. Step 2^32 stops the
job with STEP_LIMIT instead. R139, R144, R160, R176, R177, R251: FENCE holds the shuttle at the check fence.
STEP_CLOSE, once every APPLY is done, advances the step counter, files the fray report, frees the dataset slots of the
step and injects the closing mark; before that it waits, and nothing changes. -/
def Obligations.StepOpenCloseResult : Prop :=
  (∀ (s : State) (p : Package) (gp entropy : Nat), jobRuns s p → s.shut.syncWait = 0 → s.fence.phase = .none →
     s.job.deficit = false →
     (heldCases s = true ∨ s.snap.rest.isSome = true ∨ s.job.invalid = true → exec (.stepOpen gp entropy) s = .next s) ∧
     (heldCases s = false → s.snap.rest = none → s.job.invalid = false →
     (s.job.step < 2 ^ 32 → ∃ t, exec (.stepOpen gp entropy) s = .next t ∧
       (memClean s = true ∨ sumTargets p = [] → ∀ n, (∀ e ∈ sumRanges s p, ¬ (e.1 ≤ n ∧ n < e.1 + e.2)) →
         memGet t.mem n = memGet s.mem n) ∧
       (memClean s = true → openTo s p → s.snap.guarded = [] → s.snap.snap = none → ∀ e ∈ sumRanges s p,
         memBytes t.mem e.1 e.2 = List.replicate e.2 0#8) ∧
       (sumTargets p = [] ∨ (memClean s = true ∧ openTo s p) → t.job.step = s.job.step ∧
       t.mgmt.markNext = s.mgmt.markNext + 1 ∧ t.fence.abandoned = false ∧ t.fence.passed = false ∧
       t.fence.phase = .none ∧ t.fence.poisons = [] ∧ t.job.frayOpen = s.job.fray ∧ t.job.deficit = false ∧
       t.shut.saved = { variant := t.shut.variant, gp := gp, ctrs := s.shut.ctrs, micro := s.shut.micro
                        addr := t.shut.addr } ∧
       (∀ q, (panelOf t q).seq = 0 ∧ (panelOf t q).loads = 0 ∧ (spoolOf t q).voidMode = false ∧
         (spoolOf t q).ring = (spoolOf s q).ring ∧ (panelOf t q).queue = (panelOf s q).queue) ∧
       (∀ h, h < 16 → (hubOf t h).entropy = entropy))) ∧
     (2 ^ 32 ≤ s.job.step → ∃ t, exec (.stepOpen gp entropy) s = .next t ∧ t.mem = s.mem ∧ t.fence.abandoned = true ∧
       t.job.held = true ∧ (s.job.fault = none → t.job.fault = some .stepLimit)))) ∧
  (∀ (s : State) (p : Package) (gp : Nat), streamRuns s p → s.job.deficit = false →
     (∃ t, exec (.fence gp) s = .next t ∧ t.mem = s.mem ∧
       t.fence = { s.fence with phase := .holding } ∧ t.job = s.job ∧
       t.shut.gradePoints = sat32 (s.shut.gradePoints + 1) ∧ t.shut.variant = s.shut.variant) ∧
     ((∀ o ∈ s.shut.movers, o.kind ≠ .apply) → s.job.ending = none →
       ∃ t, exec (.stepClose gp) s = .next t ∧ t.mem = s.mem ∧ t.job.step = s.job.step + 1 ∧ t.fence.passed = false ∧
         t.mgmt.markNext = s.mgmt.markNext + 1 ∧ (∀ e ∈ t.host.slots, e.2 ≠ .held s.job.step) ∧
         (∃ r, t.job.reports.head? = some r ∧ r.step = s.job.step ∧ r.watch ≤ 256) ∧ t.job.fray = s.job.fray) ∧
     ((∃ o ∈ s.shut.movers, o.kind = .apply) → exec (.stepClose gp) s = .next s))

/-- R149 to R151, R154, R157: a capture that is done is checked, an abandoned one counts as a skip. A check that does
not exceed leaves no case; one that exceeds takes a free case slot of its hub, the lowest one, which is the model's
choice (log entry 81), and with the four slots taken the step's vote becomes VERDICT_OVERFLOW. -/
def Obligations.BasteCheckResult : Prop :=
  ∀ (s : State) (hub : Nat) (c : Capture) (flt : List (Nat × W32)),
    ((hubOf s hub).act = .capturing c →
      exec (.basteCaptureDone hub) s = .next (setHub s hub { hubOf s hub with act := .checking c }) ∧
      ∃ t, exec (.basteCaptureAbandon hub) s = .next t ∧ t.mem = s.mem ∧ t.fence = s.fence ∧
        (hub = c.panel / 16 → hubOf t hub = { hubOf s hub with act := .idle, skips := sat32 ((hubOf s hub).skips + 1) }) ∧
        (panelOf t c.panel).mat.basteSkips = sat32 ((panelOf s c.panel).mat.basteSkips + 1)) ∧
    ((hubOf s hub).act = .checking c →
      let vs := checkValues c
      let c1 := faulty (vs.map Prod.fst) flt
      let h := hubOf s hub
      let n := sat32 (h.checks + 1)
      (tileExceeds c c1 (vs.map Prod.snd) = false →
        exec (.basteCheckDone hub flt) s = .next (setHub s hub { h with act := .idle, checks := n })) ∧
      (tileExceeds c c1 (vs.map Prod.snd) = true → ∀ k, k < 4 → (∀ d ∈ h.cases, d.slot ≠ k) →
        (∀ i, i < k → ∃ d ∈ h.cases, d.slot = i) →
        ∃ t, exec (.basteCheckDone hub flt) s = .next t ∧ t.mem = s.mem ∧ t.fence = s.fence ∧
          (⟨k, c, c1, vs.map Prod.snd⟩ : Case) ∈ (hubOf t hub).cases ∧ (hubOf t hub).act = .idle ∧
          (hubOf t hub).exceedances = sat32 (h.exceedances + 1) ∧ (hubOf t hub).checks = n) ∧
      (tileExceeds c c1 (vs.map Prod.snd) = true → (∀ k, k < 4 → ∃ d ∈ h.cases, d.slot = k) →
        ∃ t, exec (.basteCheckDone hub flt) s = .next t ∧ t.mem = s.mem ∧ t.fence = { s.fence with overflow := true } ∧
          hubOf t hub = { h with act := .idle, checks := n, exceedances := sat32 (h.exceedances + 1)
                                 casesOverflow := sat32 (h.casesOverflow + 1) }))

/-- R160, R161, R172: at FENCE_HOLD_END, once no push is owed and every hub is idle, a device with held cases resolves
them; one without votes at once. With every other rank's vote OK the fence has passed; with its own vote not OK the step is
abandoned. FENCE_TIMEOUT counts the missing member as poison of cause 4 and holds the job. R154 to R156: CASE_RESOLVE takes the first held case in sleeve
and slot order and files one verdict for it, whose outcome follows from the reruns on the witness, the check unit and
the third panel. -/
def Obligations.CheckFenceResult : Prop :=
  (∀ (s : State) (p : Package) (phys rank : Nat), jobRuns s p →
     (s.fence.phase = .holding → owesPush s = false → (∀ h, h < 16 → (hubOf s h).act = .idle) →
       ∃ t, exec (.fenceHoldEnd phys) s = .next t ∧ t.mem = s.mem ∧
         (heldCases s = true → t.fence = { s.fence with phase := .resolving } ∧
           t.shut.fenceHold = sat32 (s.shut.fenceHold + phys) ∧
           ∀ h, h < 16 → (hubOf t h).fenceWait = sat32 ((hubOf s h).fenceWait + phys)) ∧
         (heldCases s = false → s.fence.hardware = false → s.fence.overflow = false →
           (∀ v ∈ s.fence.votes, v.1 = s.job.step → v.2.2 = 0) →
           (t.fence.passed = true ↔ s.fence.passed = true ∨ ∀ r, r < p.plan.nranks → r ≠ p.plan.rank →
             ∃ v ∈ s.fence.votes, v.1 = s.job.step ∧ v.2.1 = r)) ∧
         (heldCases s = false → s.fence.hardware = true ∨ s.fence.overflow = true →
           t.fence.abandoned = true ∧ t.fence.passed = false ∧ t.fence.sent = true)) ∧
     (s.fence.phase = .voted → rank < p.plan.nranks → rank ≠ p.plan.rank →
       (∀ v ∈ s.fence.votes, v.1 = s.job.step → v.2.1 ≠ rank) →
       ∃ t, exec (.fenceTimeout rank) s = .next t ∧ t.mem = s.mem ∧ t.fence.abandoned = true ∧
         (4, rank) ∈ t.fence.poisons ∧ t.job.held = true)) ∧
  (∀ (s : State) (hub : Nat) (c : Case) (fltW fltC flt3 : List (Nat × W32)), firstCase s = some (hub, c) →
     s.fence.phase = .resolving ∨ s.shut.inStep = false →
     let c0 := c.cap.tile.data
     let cw := narrowRun c.cap fltW
     let c2 := faulty ((checkValues c.cap).map Prod.fst) fltC
     let c3 := narrowRun c.cap flt3
     let q := c.cap.panel
     ∃ t, exec (.caseResolve hub c.slot fltW fltC flt3) s = .next t ∧
       t.mgmt.verdictBase + t.mgmt.verdicts.length = s.mgmt.verdictBase + s.mgmt.verdicts.length + 1 ∧
       ∃ v, t.mgmt.verdicts.getLast? = some v ∧ v.step = s.job.step ∧ v.tag = c.cap.tile.tag ∧ v.panel = q ∧
         v.witness = 16 * ((q / 16 + 8) % 16) + q % 16 ∧
         v.third = (if cw = c0 then q else 16 * ((q / 16 + 4) % 16) + q % 16) ∧
         v.outcome = (if cw = c0 then (if c2 = c.c1 then 0 else 4) else if c2 = c.c1 then
           (if c3 = cw then 1 else if c3 = c0 then 2 else 3) else 5))

/-- R214, R216: on a trained port every flit in sequence is accepted, and the next number is expected; a flit out of
sequence is discarded with its header, which is the model's reading (log entry 40), answered with a NAK in an IDLE flit, and
changes nothing else; a header of another TYPE is no flit of the command. R235: a corrected flit counts, accepted or not. R214 to R217: an IDLE_FLIT acknowledges the
flits up to its ACK, gives its credits, 256 at most, and asks for a replay where it shows a loss; that its header
always acts is the model's reading too (log entry 40). A BAD_FLIT is counted and answered with a NAK. That the receiver speaks
in IDLE flits at once is the model's choice (log entry 71). R216, R218: SEAM_REPLAY sends the whole replay buffer again (an empty one: nothing);
the eighth replay of one flit in succession starts a retrain instead. LANE_WAKE brings back full width (by how much GATED_US grows is
free, log entry 2). -/
def Obligations.SeamSequenceResult : Prop :=
  (∀ (s : State) (port : Nat) (h : FlitHdr) (b1 : Head) (b2 : List Byte) (b3 : Poison) (b4 : Vote) (wake : Bool)
     (b5 : Ident) (nonce : Nat), portTrained (portOf s port) = true → (portOf s port).retraining = false →
     (∀ e ∈ flitKinds port b1 b2 b3 b4 wake b5 nonce, h.type ≠ e.2 → exec (e.1 h) s = .next s) ∧
     ∀ e ∈ flitKinds port b1 b2 b3 b4 wake b5 nonce ++ reservedKinds port, h.type = e.2 →
       let corrected := sat32 ((portOf s port).stat.corrected + boolNat h.corr)
       (h.seq ≠ (portOf s port).rxNext → ∃ t, exec (e.1 h) s = .next t ∧ idleSays t port true ∧
         idlesOnly (setPort s port { portOf s port with
           nak := true, stat := { (portOf s port).stat with corrected := corrected } }) t) ∧
       (h.seq = (portOf s port).rxNext → ∃ t, exec (e.1 h) s = .next t ∧
         (portOf t port).rxNext = ((portOf s port).rxNext + 1) % 2048 ∧ (portOf t port).nak = false ∧
         (portOf t port).stat.rxFlits = sat32 ((portOf s port).stat.rxFlits + 1) ∧
         (portOf t port).stat.corrected = corrected ∧ (e.2 ≠ 2 → t.mem = s.mem))) ∧
  (∀ (s : State) (port : Nat) (h : FlitHdr), portTrained (portOf s port) = true →
     (h.type ≠ 0 → exec (.idleFlit port h) s = .next s) ∧
     (h.type = 0 → ∃ t, exec (.idleFlit port h) s = .next t ∧ t.mem = s.mem ∧ t.panels = s.panels ∧
       idleSays t port (portOf t port).nak ∧
       (portOf t port).stat.corrected = sat32 ((portOf s port).stat.corrected + boolNat h.corr) ∧
       (portOf t port).nak = ((portOf s port).nak || decide ((h.seq + 1) % 2048 ≠ (portOf s port).rxNext)) ∧
       (portOf t port).rxNext = (portOf s port).rxNext ∧
       ((portOf s port).queue = [] →
         (portOf t port).credits = min 256 ((portOf s port).credits + h.crd) ∧
         (∀ pre f post, (portOf s port).replay = pre ++ f :: post → (∀ g ∈ pre, g.seq ≠ h.ack) → f.seq = h.ack →
           (portOf t port).replay = post) ∧
         ((∀ g ∈ (portOf s port).replay, g.seq ≠ h.ack) → (portOf t port).replay = (portOf s port).replay))) ∧
     (∃ t, exec (.badFlit port) s = .next t ∧ idleSays t port true ∧ idlesOnly (setPort s port { portOf s port with
       nak := true, stat := { (portOf s port).stat with bad := sat32 ((portOf s port).stat.bad + 1) } }) t)) ∧
  (∀ (s : State) (port : Nat),
     ((portOf s port).nakIn = true → (portOf s port).retraining = false → (portOf s port).replay = [] →
       exec (.seamReplay port) s = .next (setPort s port { portOf s port with nakIn := false })) ∧
     (∀ f rest, (portOf s port).nakIn = true → (portOf s port).retraining = false → (portOf s port).queue = [] →
       (portOf s port).replay = f :: rest →
       (((portOf s port).lastReplay = some f.seq ∧ (portOf s port).sameReplay = 7) →
         ∃ t, exec (.seamReplay port) s = .next t ∧ (portOf t port).retraining = true ∧
           (portOf t port).retrainDue = true ∧
           (portOf t port).stat.retrains = sat32 ((portOf s port).stat.retrains + 1)) ∧
       (((portOf s port).lastReplay ≠ some f.seq ∨ (portOf s port).sameReplay < 7) →
         ∃ t, exec (.seamReplay port) s = .next t ∧ t.mem = s.mem ∧ (portOf t port).retraining = false ∧
           (portOf t port).nakIn = false ∧ (portOf t port).lastReplay = some f.seq ∧
           (portOf t port).replay = (portOf s port).replay ∧
           (portOf t port).stat.replays = sat32 ((portOf s port).stat.replays + 1) ∧
           (portOf t port).stat.txFlits = sat32 ((portOf s port).stat.txFlits + (rest.length + 1)))) ∧
     ((portOf s port).gated = true → (portOf s port).waking = true → noGates (portOf s port) → ∃ t, exec (.laneWake port) s = .next t ∧
       t.mem = s.mem ∧ t.free = s.free + 1 ∧ (portOf t port).gated = false ∧ (portOf t port).waking = false ∧
       ∃ k, (portOf t port).stat.gatedUs = sat32 ((portOf s port).stat.gatedUs + k)))

/-- R220, R223, R231 to R233: what HEAD, DATA, GATE and reserved flits in sequence do to their port; traffic still queued
when the lanes gate starts their wake, which a GATE flit tells the far end first. R160, R162,
R233: a POISON flit of the step in force that is new to the device abandons the step and is recorded; a repeated or
stale one is only counted, and so is any on a DRAINING device (R332). That a VOTE flit is kept with its step, once for each
rank, and not at all from the own rank or from no rank of the job is the model's reading (log entry 35). -/
def Obligations.SeamTrafficResult : Prop :=
  (∀ (s : State) (port : Nat) (h : FlitHdr) (b : Head) (bs : List Byte) (wake : Bool), inSeq s port h →
     (∃ t, exec (.headFlit port { h with type := 1 } b) s = .next t ∧
       ((portOf s port).st = .member → headCurrent s b = true → (portOf t port).rx = some (b, [])) ∧
       ((portOf s port).st = .member → headCurrent s b = false → (portOf t port).rx = none ∧
         (portOf t port).stat.staleDrops = sat32 ((portOf s port).stat.staleDrops + 1)) ∧
       ((portOf s port).st = .stranger ∨ (portOf s port).st = .excluded →
         (portOf t port).stat.strangerDrops = sat32 ((portOf s port).stat.strangerDrops + 1) ∧
         (portOf t port).rx = (portOf s port).rx)) ∧
     (∃ t, exec (.dataFlit port { h with type := 2 } bs) s = .next t ∧
       (∀ hd pre, (portOf s port).st = .member → s.job.pkg.isSome = true → (portOf s port).rx = some (hd, pre) →
         pre.length + 480 < 480 * ceilDiv hd.bytes 480 → (portOf t port).rx = some (hd, pre ++ bs) ∧ t.mem = s.mem)) ∧
     (noGates (portOf s port) → ∃ t, exec (.gateFlit port { h with type := 6 } wake) s = .next t ∧
       (wake = true → (portOf t port).waking = (portOf s port).gated) ∧
       (wake = false → (portOf t port).gated = true ∧
         ((∀ f ∈ (portOf s port).queue, isControl f = true) → (portOf t port).waking = false) ∧
         ((∃ f ∈ (portOf s port).queue, isControl f = false) → (portOf s port).credits = 0 → h.crd = 0 →
           (portOf t port).waking = false ∧ FlitBody.gate true ∈ (portOf t port).queue ∧
           (portOf t port).stat.gateMiss = sat32 ((portOf s port).stat.gateMiss + 1)))) ∧
     (7 ≤ h.type → h.type ≤ 15 → ∃ t, exec (.reservedFlit port h) s = .next t ∧
       (portOf t port).stat.badFlits = sat32 ((portOf s port).stat.badFlits + 1) ∧ (portOf t port).rx = (portOf s port).rx)) ∧
  (∀ (s : State) (port : Nat) (h : FlitHdr) (p : Package) (b : Poison) (v : Vote), inSeq s port h →
     (portOf s port).st = .member → s.job.pkg = some p →
     (s.dev.st = .draining → ∃ t, exec (.poisonFlit port { h with type := 4 } b) s = .next t ∧ t.mem = s.mem ∧
       t.fence = s.fence ∧ t.job = s.job ∧ (portOf t port).stat.poisonDup = sat32 ((portOf s port).stat.poisonDup + 1)) ∧
     (b.jobTag = p.plan.jobId → s.dev.st ≠ .draining →
       ∃ t, exec (.poisonFlit port { h with type := 4 } b) s = .next t ∧ t.mem = s.mem ∧
       (b.step = s.job.step → (b.cause, b.origin) ∉ s.fence.received → t.fence.abandoned = true ∧
         (b.cause, b.origin) ∈ t.fence.poisons ∧ t.fence.received = s.fence.received ++ [(b.cause, b.origin)]) ∧
       (b.step ≠ s.job.step ∨ (b.cause, b.origin) ∈ s.fence.received → t.fence = s.fence ∧ t.job = s.job ∧
         (portOf t port).stat.poisonDup = sat32 ((portOf s port).stat.poisonDup + 1))) ∧
     (v.jobTag = p.plan.jobId → ∃ t, exec (.voteFlit port { h with type := 5 } v) s = .next t ∧ t.mem = s.mem ∧
       (v.rank ≠ p.plan.rank → v.rank < p.plan.nranks → s.fence.phase ≠ .voted →
         (∀ e ∈ s.fence.votes, ¬ (e.1 = v.step ∧ e.2.1 = v.rank)) →
         t.fence = { s.fence with votes := s.fence.votes ++ [(v.step, v.rank, v.vote)] }) ∧
       ((∃ e ∈ s.fence.votes, e.1 = v.step ∧ e.2.1 = v.rank) → s.fence.phase ≠ .voted → t.fence = s.fence)))

/-- R221 to R224: a HELLO in sequence whose nonce has not been answered yet is answered with a PROOF for it; a PROOF that verifies fits a linked
port; one that does not raises FIT_BAD and begins a new exchange. HELLO_TIMER sends HELLO again, FIT_TIMEOUT slows a
linked port down and excludes a bound one whose retrain found no proof. R212, R218, R223, R325: the outcome of a
training attempt where no load waits for fitting. A first training at full or half width links the port and sends
HELLO with sequence number 0; a retrain keeps the state; the third failure in succession takes the port
down, and so does a failure of a first training that has passed t_train. A
failed loopback test makes the device suspect with cause 7. -/
def Obligations.SeamFittingResult : Prop :=
  (∀ (s : State) (port : Nat) (h : FlitHdr) (b : Ident) (nonce : Nat),
     (inSeq s port h → ∃ t, exec (.hello port { h with type := 3 } b nonce) s = .next t ∧
       (portOf t port).farNonce = some b.nonce ∧ (portOf t port).proofSent = true ∧
       (¬ ((portOf s port).farNonce = some b.nonce ∧ (portOf s port).proofSent = true) →
         flitOut t port (.proof (ownProof s port (portOf t port).nonce b.nonce)))) ∧
     (inSeq s port h → (portOf s port).st = .linked → ∃ t, exec (.proof port { h with type := 3 } b nonce) s = .next t ∧
       (proofOk (portOf s port) b = true → (portOf t port).st = .fitted ∧ (portOf t port).far = some b) ∧
       (proofOk (portOf s port) b = false → (portOf t port).st = .linked ∧ (portOf t port).nonce = nonce ∧
         (portOf t port).farNonce = none ∧ (portOf t port).proofSent = false ∧ logsLast s t (srcPort port) .fitBad [] ∧
         flitOut t port (.hello (ownIdent s port nonce 0)))) ∧
     (portTrained (portOf s port) = true → (portOf s port).slow = false → (portOf s port).farNonce = none →
       exec (.helloTimer port nonce) s =
         .next (seamSend s port (.hello (ownIdent s port (portOf s port).nonce 0)))) ∧
     ((portOf s port).slow = true → (portOf s port).st = .linked →
       ∃ t, exec (.helloTimer port nonce) s = .next t ∧ (portOf t port).nonce = nonce ∧
         (portOf t port).farNonce = none ∧ (portOf t port).proofSent = false ∧ flitOut t port (.hello (ownIdent s port nonce 0))) ∧
     ((portOf s port).st = .linked → ∃ t, exec (.fitTimeout port) s = .next t ∧ t.mem = s.mem ∧
       portOf t port = { portOf s port with slow := true }) ∧
     ((portOf s port).st = .member → (portOf s port).retraining = true → ∃ t, exec (.fitTimeout port) s = .next t ∧
       t.mem = s.mem ∧ (portOf t port).st = .excluded ∧ (portOf t port).testDue = true ∧
       bitOf t.mgmt.causes 4 = true ∧ (s.job.pkg.isSome = true → t.fence.abandoned = true))) ∧
  (∀ (s : State) (port width nonce : Nat) (late : Bool),
     (boxesAt s .fitting = [] → inTraining (portOf s port) = true →
       (width = fullWidth port ∨ 2 * width = fullWidth port →
         ∃ t, exec (.linkTraining port ⟨width, late⟩ nonce) s = .next t ∧ t.mem = s.mem ∧ (portOf t port).width = width ∧
           (portOf t port).nonce = nonce ∧ (portOf t port).fails = 0 ∧ flitOut t port (.hello (ownIdent s port nonce 0)) ∧
           ((portOf s port).st = .training → (portOf t port).st = .linked ∧ (portOf t port).txSeq = 0 ∧
             (portOf t port).rxNext = 0 ∧ (portOf t port).credits = 255) ∧
           ((portOf s port).st ≠ .training → (portOf t port).st = (portOf s port).st ∧
             (portOf t port).retrainDue = false) ∧
           ((portOf t port).stat.degraded = ((portOf s port).stat.degraded || decide (width < fullWidth port)))) ∧
       (width ≠ fullWidth port → 2 * width ≠ fullWidth port →
         ((portOf s port).fails < 2 → late = false ∨ (portOf s port).st ≠ .training →
           (s.pins.startup = 7 → (portOf s port).st = .training) → exec (.linkTraining port ⟨width, late⟩ nonce) s =
           .next (setPort s port { portOf s port with fails := (portOf s port).fails + 1 })) ∧
         (2 ≤ (portOf s port).fails ∨ (late = true ∧ (portOf s port).st = .training) → ∃ t, exec (.linkTraining port ⟨width, late⟩ nonce) s = .next t ∧ t.mem = s.mem ∧
           (portOf t port).st = .down))) ∧
     ((portOf s port).testDue = true →
       (∃ t, exec (.portTest port true) s = .next t ∧ t.mem = s.mem ∧ t.dev = s.dev ∧
         portOf t port = { portOf s port with testDue := false }) ∧
       (∃ t, exec (.portTest port false) s = .next t ∧ (s.dev.suspect = none → t.dev.suspect = some (7, port)))))

/-- R254: the checks on a hemline packet in their order. A frame that is too long, without room in the receive
buffer, of another VLAN, for another address or malformed counts in the counter of that check; a packet for no flow, from a
wrong far address or for a FAILED flow in NO_FLOW; one whose tag or epoch does not check in AUTH_DROPS; none has another
effect, but that a wrong tag on a CTRL flow ends its session (R244; log entry 73). R245, R254: a packet whose PSN was received before only causes an ACK; one 1,024 or more
beyond CUM counts in OUT_OF_WINDOW; every other one is accepted, and its PSN counts as received. -/
def Obligations.PacketCheckResult : Prop :=
  (∀ (s : State) (k : Pkt) (bs : List Byte) (n m : Nat) (ring abort : Bool) (off : Nat) (a : AckBody),
     (hostPortOf s k.port).up = true → ∀ c ∈ (.ack k a, .ack, ackInBytes a) :: packetsOf k bs n m ring abort off,
       let counts := fun (d : DropCause) => exec c.1 s =
         .next (withStat (arrived s k.port k.fec k.frame) k.port (fun t => countDrop t d))
       (¬ frameShort s k → counts .oversize) ∧
       (frameShort s k → ¬ frameRoom k → counts .rxOverflow) ∧
       (frameShort s k → frameRoom k → ¬ frameVlan s k → counts .vlan) ∧
       (frameShort s k → frameRoom k → frameVlan s k → ¬ frameOurs s k → counts .notForUs) ∧
       (frameShort s k → frameRoom k → frameVlan s k → frameOurs s k → ¬ frameFormed k → counts .malformed) ∧
       (frameOk s k →
         (flowOf s k.dstFlow = none ∨ (∃ v, flowOf s k.dstFlow = some v ∧
           (v.st = .failed ∨ v.port ≠ k.port ∨ v.farAddr ≠ k.frame.src)) → counts .noFlow) ∧
         (∀ v, flowOf s k.dstFlow = some v → v.st ≠ .failed → v.port = k.port → v.farAddr = k.frame.src →
           (¬ goodTag s k v c.2.1 c.2.2 → v.kind ≠ .ctrl → counts .authDrops) ∧
           (¬ goodTag s k v c.2.1 c.2.2 → v.kind = .ctrl →
             ∃ t, exec c.1 s = .next t ∧ ∀ e ∈ t.host.flows, e.2.session ≠ v.session) ∧
           (goodTag s k v c.2.1 c.2.2 → epochOk s v.session k.epoch = false → counts .authDrops)))) ∧
  (∀ (s : State) (k : Pkt) (v : Flow) (bs : List Byte) (n m : Nat) (ring abort : Bool) (off : Nat),
     ∀ c ∈ packetsOf k bs n m ring abort off, flowTakes s k v c.2.1 c.2.2 →
       let r := arrived s k.port k.fec k.frame
       (k.psn < v.cum ∨ k.psn ∈ v.sack → ∃ t, exec c.1 s = .next t ∧ swept (sendAck r k.dstFlow none) t) ∧
       (v.cum + 1024 ≤ k.psn → k.psn ∉ v.sack → k.rsv = false → ∃ t, exec c.1 s = .next t ∧
         swept (withStat r k.port (fun t => { t with outOfWindow := sat32 (t.outOfWindow + 1) })) t) ∧
       (v.cum ≤ k.psn → k.psn < v.cum + 1024 → k.psn ∉ v.sack → ∃ t, exec c.1 s = .next t ∧
         ∀ w, flowOf t k.dstFlow = some w → k.psn < w.cum ∨ k.psn ∈ w.sack))

/-- What a packet does; where it leaves every session its CTRL flow, nothing else follows. R242, R245, R247, R251: a WRITE in order into the slots of a dataset stream writes its bytes and nothing else of
memory, and its slot leaves FREE; a READY with the slot's record count marks the slot HELD for its step. R244, R247,
R333, R334: a FENCE in order is reported as done; a CTRL packet in order writes the request buffer of a FREE mailbox
and claims it for its session; a CLOSE frees a context with nothing outstanding, and otherwise the flow is CLOSING. -/
def Obligations.PacketActionResult : Prop :=
  (∀ (s : State) (k : Pkt) (v : Flow) (p : Package) (d : StreamDesc) (bs : List Byte),
     v.kind = .dataset → v.window = false → s.snap.rest = none → s.job.pkg = some p →
     ingestStream p v.stream = some d → plainWrites s → 0 < d.slotBytes →
     (plainNext s k v .write bs → 0 < bs.length → bs.length ≤ v.payload → k.offset % 64 = 0 → bs.length % 64 = 0 →
       k.offset + bs.length ≤ d.slots * d.slotBytes → (∀ e ∈ s.host.slots, ∀ n, e.2 ≠ .held n) →
       ∃ t u, exec (.write k bs) s = .next u ∧ swept t u ∧ t.job = s.job ∧
         memBytes t.mem (256 * d.region + k.offset) bs.length = bs ∧
         (∀ n, ¬ (256 * d.region + k.offset ≤ n ∧ n < 256 * d.region + k.offset + bs.length) →
           memGet t.mem n = memGet s.mem n) ∧
         tabGet .free t.host.slots (slotKey d.stream (k.offset / d.slotBytes)) = .filling) ∧
     (plainNext s k v .ready (beBytes 4 d.records) → s.job.step ≤ k.step → k.step < s.job.step + d.slots → (∀ e ∈ s.host.slots, ∀ n, e.2 ≠ .held n) →
       ∃ t u, exec (.ready k d.records) s = .next u ∧ swept t u ∧ t.mem = s.mem ∧ t.job = s.job ∧
         tabGet .free t.host.slots (slotKey d.stream (slotOfStep d k.step)) = .held k.step)) ∧
  (∀ (s : State) (k : Pkt) (v : Flow) (m off : Nat) (bs : List Byte), v.acks < 2 ^ 31 →
     (plainNext s k v .fence [] → v.window = false → ∃ t u, exec (.hemlineFence k) s = .next u ∧ swept t u ∧ t.mem = s.mem ∧
       ∃ w, flowOf t k.dstFlow = some w ∧ w.fenceDone = max v.fenceDone k.psn ∧ w.cum = v.cum + 1) ∧
     (plainNext s k v .ctrl (ctrlInBytes m false false off bs) → v.kind = .ctrl → (boxOf s m).st = .free → bs ≠ [] → off + bs.length ≤ 4096 →
       ∃ t u, exec (.ctrl k m false false off bs) s = .next u ∧ swept t u ∧ t.mem = s.mem ∧
         boxOf t m = { boxOf s m with st := .claimed v.session, req := memPut (boxOf s m).req off bs } ∧
         ∀ n, n ≠ m → boxOf t n = boxOf s n) ∧
     (plainNext s k v .close [] → ∃ t u, exec (.close k) s = .next u ∧ swept t u ∧ t.mem = s.mem ∧ (v.out = [] → flowOf t k.dstFlow = none) ∧
       (v.out ≠ [] → ∃ w, flowOf t k.dstFlow = some w ∧ w.st = .closing)))

/-- R247, R248, R335: a held packet whose fences are met takes effect and is held no longer. R245, R246: an ACK that
passes the checks completes, and what it covers of the packets sent before it is outstanding no longer;
one with a reserved bit set is answered with NAK code 6. A session whose CTRL flow goes FREE by it ends with it (R243). -/
def Obligations.FenceAndAckResult : Prop :=
  (∀ (s : State) (flow : Nat) (v : Flow) (h : HeldPkt), flowOf s flow = some v →
     v.held.find? (fun x => x.psn == h.psn) = some h → behindFence v h.psn = false → fenceMet s v h = true →
     (h.fenceAll = false → h.fenceW = true ∨ isRing h.act = true →
       ∃ t u, exec (.fenceW flow h.psn) s = .next u ∧ swept t u ∧ ∀ w, flowOf t flow = some w → ∀ g ∈ w.held, g.psn ≠ h.psn) ∧
     (h.fenceAll = true →
       ∃ t u, exec (.fenceAll flow h.psn) s = .next u ∧ swept t u ∧ ∀ w, flowOf t flow = some w → ∀ g ∈ w.held, g.psn ≠ h.psn)) ∧
  (∀ (s : State) (k : Pkt) (v : Flow) (b : AckBody), flowTakes s k v .ack (ackInBytes b) →
     (k.rsv = false → ∃ t u, exec (.ack k b) s = .next u ∧ swept t u ∧ ∀ w, flowOf t k.dstFlow = some w → ∀ x ∈ w.out,
       ackCovers b x.psn = false ∨ v.txNext ≤ x.psn) ∧
     (k.rsv = true → ∃ t, exec (.ack k b) s = .next t ∧
       swept (sendAck (arrived s k.port k.fec k.frame) k.dstFlow (some (6, k.psn))) t))

/-- R240, R241, R244 to R246, R318: the timers of a flow. An ACK that was due goes out, to the far end's address and flow,
with CUM, ECE and SACK; a retransmit timeout halves the rate, not
below 0.1 GB/s; a rate period folds its share of marked packets into α; a timeout without progress fails an OPEN flow
and frees a CLOSING one. A period in which no packet was acknowledged has F = 0, and a retransmit timeout counts as a
lowering: the model's choices (log entry 73). -/
def Obligations.FlowTimerResult : Prop :=
  ∀ (s : State) (f : Nat) (v : Flow), flowOf s f = some v →
    (0 < v.unacked → v.acks < 2 ^ 31 → ∃ t u, exec (.ackDelayExpiry f) s = .next u ∧ swept t u ∧ t.mem = s.mem ∧ t.job = s.job ∧
      flowOf t f = some { v with acks := v.acks + 1, unacked := 0, ece := 0 } ∧
      ((hostPortOf s v.port).up = true → (hostPortOf s v.port).paused = 0 → ∃ g h c tag,
        (hostPortOf t v.port).sent = (hostPortOf s v.port).sent ++ [g] ∧ g.body = .hemline h c tag none ∧
        (hostPortOf t v.port).stat.txFrames = sat32 ((hostPortOf s v.port).stat.txFrames + 1) ∧
        g.ip = v.farAddr ∧ g.srcPort = 49152 + f % 16384 ∧ g.dstPort = setting s 0x136 v.port ∧ g.ect = true ∧
        h.type = .ack ∧ h.dstFlow = v.farFlow ∧ h.srcFlow = f ∧ (v.enc = false → c = ackBytes v none))) ∧
    (v.out ≠ [] → v.st ≠ .failed → ∃ t w, exec (.retransmitTimeout f) s = .next t ∧ t.mem = s.mem ∧
      flowOf t f = some w ∧ w.rate = max 100000000 (v.rate / 2) ∧ w.backoff = v.backoff + 1 ∧ w.out = v.out) ∧
    (∃ t w, exec (.ratePeriod f) s = .next t ∧ t.mem = s.mem ∧ flowOf t f = some w ∧ w.perAcked = 0 ∧ w.perEce = 0 ∧
      (v.perAcked ≠ 0 → w.alpha = v.alpha * 15 / 16 + (v.perEce : Rat) / (v.perAcked : Rat) / 16) ∧
      (v.perEce = 0 → w.good = v.good + 1) ∧ (v.perAcked ≠ 0 → v.perEce ≠ 0 → w.good = 0 ∧ w.rate = min (rMax s v.port) v.rate)) ∧
    (v.st = .opened → v.out ≠ [] → ∃ t, exec (.flowTimeout f) s = .next t ∧
      ∀ w, flowOf t f = some w → w.st = .failed) ∧
    (v.st = .closing → ∃ t u, exec (.flowTimeout f) s = .next u ∧ swept t u ∧ flowOf t f = none) ∧
    (v.st = .failed → snapStarved s f = true → ∃ t, exec (.flowTimeout f) s = .next t ∧ t.snap.snap = none ∧
      t.snap.failed = true)

/-- R237 to R239, R254, R256: ARP, neighbour discovery and echo requests and PFC frames. Each is counted and enters the
receive buffer; a frame that is too long, without room, of another VLAN, not for this port, or a PFC frame without PFC_ENABLE,
counts in the counter of that check and does nothing else. An ARP or neighbour request for an address of the port, and an echo
request up to 100 a second, is answered to its asker; PFC pauses the priorities under PFC, and PFC that pauses nothing more
lets the waiting frames go. A receive buffer that passes 75 % sends PFC where it is enabled. The answers' layout and PFC's
priority are log entries 32, 73 and 76. R244, R258, R358: a host link that comes up, and one that goes down: its flows stay,
HOST_LINK_DOWN is logged and ALERT_N is asserted. -/
def Obligations.EthernetAndLinkResult : Prop :=
  (∀ (s : State) (e target mask : Nat) (f : FrameIn) (c : DropCause), (hostPortOf s e).up = true →
     let r := arrived s e 0 f
     let d := withStat (withStat s e (rxStat 0)) e (fun t => countDrop t c)
     let drops := fun (i : Instr) (b : DropCause) => exec i s = .next (withStat r e (fun t => countDrop t b))
     let asks := [Instr.arp ⟨e, f⟩ target, .neighborDiscovery ⟨e, f⟩ target, .icmpEcho ⟨e, f⟩]
     let long := setting s 0x130 e < f.len
     let full := 0x400000 < f.fill + f.len
     let tagBad := if setting s 0x131 e = 0 then ∃ i, f.vid = some i ∧ i ≠ 0 else f.vid ≠ some (setting s 0x131 e)
     (∀ i ∈ asks ++ [.pfc ⟨e, f⟩ mask], (long → drops i .oversize) ∧ (¬ long → full → drops i .rxOverflow)) ∧
     (¬ long → ¬ full → setting s 0x134 e ≠ 1 → drops (.pfc ⟨e, f⟩ mask) .other) ∧
     (¬ long → ¬ full → ∀ i ∈ asks ++ (if setting s 0x134 e = 1 then [.pfc ⟨e, f⟩ mask] else []),
       (tagBad → drops i .vlan) ∧ (¬ tagBad → f.mac = false → drops i .notForUs)) ∧
     (¬ long → ¬ full → ¬ tagBad → f.mac = true → f.ip ≠ linkLocal e → f.ip ∉ portAddrs s e →
       drops (.icmpEcho ⟨e, f⟩) .notForUs) ∧
     (¬ long → ¬ full → ¬ tagBad → f.mac = true →
       (target + 0xFFFF * 2 ^ 32 ∈ portAddrs s e →
         exec (.arp ⟨e, f⟩ target) s = .next (afterFrame r e (ownFrame s e f.src .arp))) ∧
       (target + 0xFFFF * 2 ^ 32 ∉ portAddrs s e → exec (.arp ⟨e, f⟩ target) s = .next r) ∧
       (target = linkLocal e ∨ target ∈ portAddrs s e →
         exec (.neighborDiscovery ⟨e, f⟩ target) s = .next (afterFrame r e (ownFrame s e f.src .neighbor))) ∧
       (target ≠ linkLocal e → target ∉ portAddrs s e → exec (.neighborDiscovery ⟨e, f⟩ target) s = .next r) ∧
       (f.ip = linkLocal e ∨ f.ip ∈ portAddrs s e →
         ∃ t, exec (.icmpEcho ⟨e, f⟩) s = .next t ∧ t.mem = s.mem ∧ (hostPortOf t e).echoes ≤ max 100 (hostPortOf s e).echoes ∧
         (s.nowUs < (hostPortOf s e).second + 1000000 →
           ((hostPortOf s e).echoes < 100 → (hostPortOf t e).echoes = (hostPortOf s e).echoes + 1 ∧
             ((hostPortOf s e).paused = 0 →
               (hostPortOf t e).sent = (hostPortOf r e).sent ++ [ownFrame s e f.src .echo])) ∧
           (100 ≤ (hostPortOf s e).echoes → (hostPortOf t e).echoDrops = (hostPortOf s e).echoDrops + 1 ∧
             (hostPortOf t e).stat.txFrames = (hostPortOf r e).stat.txFrames))) ∧
       (setting s 0x134 e = 1 → ∃ t, exec (.pfc ⟨e, f⟩ mask) s = .next t ∧ t.mem = s.mem ∧
         (hostPortOf t e).paused = Nat.land mask (setting s 0x135 e) ∧
         (Nat.land mask (setting s 0x135 e) = 0 → (hostPortOf t e).waiting = [] ∧
           (hostPortOf t e).sent = (hostPortOf r e).sent ++ (hostPortOf r e).waiting))) ∧
     (c ≠ .rxOverflow → exec (.droppedFrame e c) s = .next d) ∧
     (let n := modHostPort d e (fun h => { h with rxFill := 0x400000 })
      exec (.droppedFrame e .rxOverflow) s =
        .next (if (hostPortOf s e).rxFill ≤ 0x300000 ∧ setting s 0x134 e = 1 then
          afterFrame n e (ownFrame s e 0 (.pfc (setting s 0x135 e))) else n))) ∧
  (∀ (s : State) (e : Nat),
     (hostLanes s = true → ∃ t, exec (.hostLinkUp e) s = .next t ∧ t.mem = s.mem ∧
       hostPortOf t e = { hostPortOf s e with up := true, lost := false } ∧ t.host.flows = s.host.flows) ∧
     ((hostPortOf s e).up = true → ∃ t, exec (.hostLinkDown e) s = .next t ∧ t.mem = s.mem ∧
       hostPortOf t e = { hostPortOf s e with up := false, lost := true, paused := 0, waiting := [] } ∧
       t.host.flows = s.host.flows ∧ t.host.sessions = s.host.sessions ∧ bitOf t.mgmt.causes 5 = true ∧ logsLast s t (srcHost e) .hostLinkDown []))

/-- R334, R335: a claim that times out frees its mailbox. MB_ABORT of a rung request that has not started ends it
with ABORTED; for a FREE or claimed mailbox it is ignored. R243, R255, R369 to R373: setting a session up, and the
timers of a session. An OFFER within the limits from a client whose chain is accepted opens a half-open setup on a free
flow context, and the signed ANSWER leaves in clear; a FINISH that verifies opens the session, its CTRL flow OPEN, and
raises SESSION_OPEN. An OFFER beyond the limits is counted; one that does not verify, a FINISH that does not, and a setup that
expires open nothing and raise AUTH_FAILED with address and phase; without an anchor a SETUP fails with OWNER_REQUIRED unless
SLOT_ID reads 0x3F. That the FINISH checks the chain again is the model's choice (log entries 43, 77). A second key update
within 100 ms is ignored (R381). -/
def Obligations.SessionResult : Prop :=
  (∀ (s : State) (m n : Nat),
     ((boxOf s m).st = .claimed n → ∃ t, exec (.mailboxClaimTimeout m) s = .next t ∧ t.mem = s.mem ∧
       (boxOf t m).st = .free ∧ (boxOf t m).req = [] ∧ ∀ k, k ≠ m → boxOf t k = boxOf s k) ∧
     ((boxOf s m).st = .free ∨ (boxOf s m).st = .claimed n → exec (.mbAbort m) s = .next s) ∧
     ((boxOf s m).st = .busy n → (boxOf s m).rung = true → (boxOf s m).orphan = false →
       ∃ t, exec (.mbAbort m) s = .next t ∧ m ∉ t.mgmt.rings ∧ (boxOf t m).rung = false ∧
         (boxOf t m).reply = memPut [] 0 (replyBytes (boxOf s m) .aborted (List.replicate 8 0#8)))) ∧
  ((∀ (s : State) (b : Setup) (nonce : Nat), setupArrives s b →
     let r := arrived s b.port 0 b.frame
     let fails := fun (i : Instr) (phase : Nat) => ∃ t, exec i s = .next t ∧ t.mem = s.mem ∧ t.host.sessions = s.host.sessions ∧
       t.host.flows = s.host.flows ∧ t.host.setupStatus = some .authFailed ∧
       logsLast s t srcThimble .authFailed [b.frame.src % 2 ^ 32, b.frame.src / 2 ^ 32 % 2 ^ 32, phase] ∧
       t.host.half = if phase = 1 then s.host.half else s.host.half.filter (fun x => some x != halfOf s b)
     let unowned := fun (i : Instr) => ∃ t, exec i s = .next t ∧ t.mem = s.mem ∧ t.host.sessions = s.host.sessions ∧
       t.host.flows = s.host.flows ∧ t.host.setupStatus = some .ownerRequired ∧ t.mgmt.log = s.mgmt.log
     (¬ setupWithin s b ∨ 16 ≤ s.host.half.length ∨ 64 ≤ s.host.sessions.length →
       ∃ t, exec (.setupOffer b nonce) s = .next t ∧ t.mem = s.mem ∧ t.host.half = s.host.half ∧
         t.host.sessions = s.host.sessions ∧ t.host.flows = s.host.flows ∧
         (hostPortOf t b.port).stat.setupLimited = sat32 ((hostPortOf s b.port).stat.setupLimited + 1)) ∧
     (setupWithin s b → s.host.half.length < 16 → s.host.sessions.length < 64 →
       (noOwner s → unowned (.setupOffer b nonce)) ∧
       (¬ noOwner s → 7936 < b.chain.length ∨ validPoint b.ephemeral = false ∨ clientOk s b.chain = false →
         fails (.setupOffer b nonce) 1) ∧
       (¬ noOwner s → b.chain.length ≤ 7936 → validPoint b.ephemeral = true → clientOk s b.chain = true →
         s.host.flows.length + s.host.half.length < flowContexts →
         ∃ t f, exec (.setupOffer b nonce) s = .next t ∧ t.mem = s.mem ∧ t.host.sessions = s.host.sessions ∧
           t.host.flows = s.host.flows ∧ flowOf s f = none ∧ (∀ h ∈ s.host.half, h.flow ≠ f) ∧
           let offer := setupBytes 1 b.ctrlFlow b.nonce b.ephemeral b.chain
           let body := setupBytes 2 f nonce (ephemeralKey nonce) certChain
           let answer := body ++ sign (offer ++ body)
           t.host.half = s.host.half ++ [
             { port := b.port, addr := b.frame.src, ctrlFlow := b.ctrlFlow, flow := f, prior := offer ++ answer
               prk := hkdfExtract (beBytes 32 b.nonce ++ beBytes 32 nonce) (sharedSecret nonce b.ephemeral)
               chain := b.chain }] ∧
           ((hostPortOf s b.port).paused = 0 → ∃ g h, (hostPortOf t b.port).sent = (hostPortOf r b.port).sent ++ [g] ∧
             g.body = .hemline h answer (List.replicate 16 0#8) none ∧ g.ip = b.frame.src ∧ h.type = .setup ∧
             h.enc = false ∧ h.dstFlow = b.ctrlFlow ∧ h.srcFlow = f ∧ h.length = answer.length))) ∧
     (setupWithin s b →
       (halfOf s b = none → ∃ t, exec (.setupFinish b) s = .next t ∧ t.mem = s.mem ∧ t.host.half = s.host.half ∧
         t.host.sessions = s.host.sessions ∧ t.host.flows = s.host.flows) ∧
       (∀ h, halfOf s b = some h →
         let checks := verify (chainKey h.chain) (h.prior ++ setupBytes 3 b.ctrlFlow b.nonce b.ephemeral []) b.signature
         (noOwner s → unowned (.setupFinish b)) ∧
         (¬ noOwner s → clientOk s h.chain = false ∨ checks = false → fails (.setupFinish b) 3) ∧
         (¬ noOwner s → clientOk s h.chain = true → checks = true → s.host.sessions.length < 64 →
           ∃ t, exec (.setupFinish b) s = .next t ∧ t.mem = s.mem ∧
             t.host.half = s.host.half.filter (fun x => x != h) ∧ t.host.setupStatus = some .ok ∧
             tabFind t.host.sessions s.host.nextSession = some
               (⟨h.port, h.flow, h.prk, 0, none, s.fw.anchors.isEmpty⟩ : Session) ∧
             (∃ v, flowOf t h.flow = some v ∧ v.st = .opened ∧ v.kind = .ctrl ∧ v.session = s.host.nextSession ∧
               v.port = h.port ∧ v.enc = true ∧ v.farFlow = h.ctrlFlow ∧ v.farAddr = h.addr ∧ v.txNext = 0 ∧ v.cum = 0) ∧
             logsLast s t srcThimble .sessionOpen [])))) ∧
   (∀ (s : State) (port addr : Nat) (h : HalfOpen),
     s.host.half.find? (fun h => h.port == port && h.addr == addr) = some h →
     ∃ t, exec (.setupExpiry port addr) s = .next t ∧ t.mem = s.mem ∧ h ∉ t.host.half ∧
       t.host.sessions = s.host.sessions ∧
       logsLast s t srcThimble .authFailed [addr % 2 ^ 32, addr / 2 ^ 32 % 2 ^ 32, 3]) ∧
   (∀ (s : State) (sid : Nat) (w : Session), tabFind s.host.sessions sid = some w →
     (∃ t, exec (.sessionIdleTimeout sid) s = .next t ∧ tabFind t.host.sessions sid = none ∧ ∀ e ∈ t.host.flows, e.2.session ≠ sid) ∧
     (w.epoch = 0xFFFF ∨ w.grace.isSome = true → exec (.epochAgeLimit sid) s = .next s) ∧
     (w.epoch < 0xFFFF → w.grace = none → ∃ t, exec (.epochAgeLimit sid) s = .next t ∧ t.mem = s.mem ∧
       tabFind t.host.sessions sid = some { w with epoch := w.epoch + 1, grace := some w.epoch }) ∧
     (∀ g, w.grace = some g → exec (.epochGraceEnd sid) s = .next { s with host := { s.host with
       sessions := tabPut s.host.sessions sid { w with grace := none } } })))

/-- R278, R336 to R339, R341: every request is checked in order: its length, its reserved fields, the state. The first
check that fails is the reply's status, with no detail, and the request has no other effect; a refused POWER_BUDGET is
counted. R335, R338: a request of an unknown OP is answered with BAD_OPCODE in its turn; that a command which names its mailbox
starts it is the model's choice (log entry 42). -/
def Obligations.RequestCheckOrder : Prop :=
  (∀ (s : State) (m : Nat) (r : Req), r ∈ requests → atHead s m r →
    let refuses := fun (x : Status) => ∃ t, exec (r.cmd m) s = .next t ∧ onlyReply (refusalCounted s r) t m ∧
      refusedWith s t m x 0 0
    (4080 < reqLen (boxOf s m) ∨ r.len s (boxOf s m) = false → refuses .badLength) ∧
    (reqLen (boxOf s m) ≤ 4080 → r.len s (boxOf s m) = true → hdrRsv (boxOf s m) = true ∨ r.rsv (boxOf s m) = true →
      refuses .badReserved) ∧
    (reqLen (boxOf s m) ≤ 4080 → r.len s (boxOf s m) = true → hdrRsv (boxOf s m) = false → r.rsv (boxOf s m) = false →
      ∀ x, stateFault s (boxOf s m) r.st = some x → refuses x)) ∧
  ∀ (s : State) (m : Nat) (r : Req), r ∈ requests → s.mgmt.rings.head? = some m → (boxOf s m).rung = true →
    (boxOf s m).orphan = false → opKnown (reqOp (boxOf s m)) = false →
    ∃ t, exec (r.cmd m) s = .next t ∧ onlyReply s t m ∧ refusedWith s t m .badOpcode 0 0

/-- R203, R262, R283, R341, R351, R368, R374, R380: the requests that read the device's identity and state. Each is
answered with what it reads, and nothing else changes. R341 and R380 list the contents of IDENTIFY, JOB_STATUS and FW_STATUS;
their order and widths in the reply are log entry 32's. -/
def Obligations.StatusRequestsResult : Prop :=
  ∀ (s : State) (m : Nat), let b := boxOf s m
    (accepted s m (plain .identify 1 0) → repliesOnly s (.identify m) m .ok (words ([moduleId.toNat / 2 ^ 32,
      moduleId.toNat % 2 ^ 32, 3, 0xB0, (macAddr 0).toNat % 2 ^ 32, (macAddr 0).toNat / 2 ^ 32, (macAddr 1).toNat % 2 ^ 32,
      (macAddr 1).toNat / 2 ^ 32, s.pins.slotId, s.fw.running.getD 0, ((runningImage s).map Image.release).getD 0,
      identState s.dev.st]))) ∧
    (accepted s m (plain .jobStatus 0x104 0) → repliesOnly s (.jobStatus m) m .ok (words ([identState s.dev.st,
      boolNat s.job.held, eventStep s, s.shut.variant, (s.job.fault.map statusCode).getD 0, boolNat s.job.invalid] ++
      loHi (energyCount s % 2 ^ 64)))) ∧
    (accepted s m (plain .sensorRead 0x502 0) →
      repliesOnly s (.sensorRead m) m .ok (words ((List.range 528).map (sensorWord s)))) ∧
    (accepted s m (counted .lifetimeRead 0x504 8 4 169) → let n := min (reqWord b 4) (384 - reqWord b 0)
      repliesOnly s (.lifetimeRead m) m .ok (leBytes 8 (s.power.lifetime / 100000000) ++ words [reqWord b 0 + n, 0] ++
        (List.range n).flatMap (fun i => lifeBytes s (reqWord b 0 + i)))) ∧
    (accepted s m (counted .calRead 0x605 8 4 339) → let n := min (reqWord b 4) (536 - reqWord b 0)
      repliesOnly s (.calRead m) m .ok (words [reqWord b 0 + n, 0] ++
        (List.range n).flatMap (fun i => calRecord s (reqWord b 0 + i)))) ∧
    (accepted s m (counted .certRead 0x900 8 4 4076) → repliesOnly s (.certRead m) m .ok
      (words [certChain.length] ++ (certChain.drop (reqWord b 0)).take (reqWord b 4))) ∧
    (accepted s m (plain .attest 0x901 32) → let c := reqBytes b 0 32
      (c = List.replicate 32 0#8 → refusesOnly s (.attest m) m .badChallenge 0 0) ∧
      (c ≠ List.replicate 32 0#8 →
        repliesOnly s (.attest m) m .ok (reportBytes s c ++ sign (reportBytes s c)))) ∧
    (accepted s m (plain .fwStatus 0x909 0) → repliesOnly s (.fwStatus m) m .ok (headerBytes s.fw.slotA ++
      headerBytes s.fw.slotB ++ words [s.fw.active, boolNat s.fw.trial, s.fw.floor])) ∧
    (accepted s m reqConfigGet → let ns := (List.range (reqWord b 0)).map (namedSetting b)
      ((∀ n ∈ ns, knownSetting n.1 n.2 = true) →
        repliesOnly s (.configGet m) m .ok (ns.flatMap (fun n => settingEntry s n.1 n.2))) ∧
      ((∃ n ∈ ns, knownSetting n.1 n.2 = false) → refusesOnly s (.configGet m) m .badSetting 0 0))

/-- R145, R147, R156, R256, R329, R352, R357, R360, R376: the requests that read records. Each is answered with the
records from its cursor on, as many as it asks for and are held, and nothing else changes; a COUNTER_READ of a mark
that is not complete waits. What a cursor past the log, a unit out of range or a mark not yet injected brings, and the layout
of FLOW_STATUS, whose contents R256 lists, are the model's choices (log entries 57 and 32). -/
def Obligations.RecordRequestsResult : Prop :=
  ∀ (s : State) (m : Nat), let b := boxOf s m
    (accepted s m reqEvents → let cur := reqWord b 0 + 2 ^ 32 * reqWord b 4
      let start := max cur s.mgmt.dropped
      let hits := ((logFrom s.mgmt start).filter (fun e => reqWord b 12 == 0xFFFF || e.1.source == reqWord b 12)).take
        (reqWord b 8)
      ∃ next, start ≤ next ∧ (∀ e ∈ hits, e.2 < next) ∧ repliesOnly s (.eventRead m) m .ok
        (leBytes 8 next ++ leBytes 8 (s.mgmt.dropped - cur) ++ hits.flatMap (fun e => eventBytes e.1))) ∧
    (accepted s m reqFray →
      (∀ r, s.job.reports[reqWord b 0]? = some r → let rs := (r.records.drop (reqWord b 4)).take (reqWord b 8)
        repliesOnly s (.frayReportRead m) m .ok (words [r.step, r.records.length, r.watch, r.excess,
          reqWord b 4 + rs.length, 0] ++ rs.flatMap (frayBytes r.step))) ∧
      (s.job.reports[reqWord b 0]? = none →
        repliesOnly s (.frayReportRead m) m .ok (words [0xFFFFFFFF, 0, 0, 0, reqWord b 4, 0]))) ∧
    (accepted s m (counted .verdictRead 0x704 8 4 63) → let start := max (reqWord b 0) s.mgmt.verdictBase
      let vs := (s.mgmt.verdicts.drop (start - s.mgmt.verdictBase)).take (reqWord b 4)
      repliesOnly s (.verdictRead m) m .ok (words [start + vs.length, 0] ++ vs.flatMap verdictBytes)) ∧
    (accepted s m (counted .drainRecordRead 0x705 8 4 63) →
      let ds := (s.dev.drains.filter (fun d => decide (reqWord b 0 ≤ d.seq))).take (reqWord b 4)
      repliesOnly s (.drainRecordRead m) m .ok (words [(ds.getLast?.map (fun d => d.seq + 1)).getD (reqWord b 0), 0] ++
        ds.flatMap drainBytes)) ∧
    (accepted s m (counted .clearRecordRead 0x90A 8 4 18) →
      let rs := (s.dev.clears.filter (fun r => decide (reqWord b 0 ≤ r.seq))).take (reqWord b 4)
      repliesOnly s (.clearRecordRead m) m .ok (words [(rs.getLast?.map (fun r => r.seq + 1)).getD (reqWord b 0), 0] ++
        rs.flatMap clearRecord)) ∧
    (accepted s m (counted .traceRead 0x709 12 8 127) →
      let rs := ((panelOf s (reqWord b 0)).trace.drop (reqWord b 4)).take (reqWord b 8)
      (256 ≤ reqWord b 0 → refusesOnly s (.traceRead m) m .badRange 0 0) ∧
      (reqWord b 0 < 256 → repliesOnly s (.traceRead m) m .ok
        (words [reqWord b 4 + rs.length, 0] ++ rs.flatMap (traceBytes (reqWord b 0))))) ∧
    (accepted s m (plain .flowStatus 0x202 4) →
      (ownFlow s b (reqWord b 0) = none → refusesOnly s (.flowStatus m) m .noFlowContext 0 0) ∧
      (∀ v, ownFlow s b (reqWord b 0) = some v → repliesOnly s (.flowStatus m) m .ok
        (words ([flowStCode v.st, kindCode v.kind, v.port, v.payload, v.stream, v.farFlow] ++
          (List.range 5).map (fun i => v.counts.getD i 0)) ++ leBytes 8 v.rate.floor.toNat ++
          leBytes 4 (f32OfRat v.alpha).toNat))) ∧
    (accepted s m reqCounters → let mk := reqWord b 0
      let cls := reqWord b 4
      (classUnits cls = 0 ∨ classUnits cls < reqWord b 8 + reqWord b 12 ∨ s.mgmt.markNext ≤ mk ∨ mk = 0 →
        refusesOnly s (.counterRead m) m .badRange 0 0) ∧
      (classUnits cls ≠ 0 → reqWord b 8 + reqWord b 12 ≤ classUnits cls → mk < s.mgmt.markNext → mk ≠ 0 →
        ((∀ r ∈ s.mgmt.marks, r.number ≠ mk) → refusesOnly s (.counterRead m) m .staleMark 0 0) ∧
        (∀ r, s.mgmt.marks.find? (fun r => r.number == mk) = some r →
          (markComplete r = true →
            repliesOnly s (.counterRead m) m .ok (counterBody r cls (reqWord b 8) (reqWord b 12))) ∧
          (markComplete r = false → ∃ t, exec (.counterRead m) s = .next t ∧ onlyReply s t m ∧
            (boxOf t m).waits = some (.mark mk) ∧ (boxOf t m).reply = b.reply))))

/-- R19: while a job is loaded, running or being cleared, a request to load a job package is refused with BUSY_JOB,
and nothing of the device changes but the reply. -/
def Obligations.LoadRefusedWhileBusy : Prop :=
  ∀ (s : State) (m : Nat) (r : Req), r = reqLoadBegin ∨ r = reqLoadCommit → atHead s m r →
    reqLen (boxOf s m) ≤ 4080 → r.len s (boxOf s m) = true → hdrRsv (boxOf s m) = false → r.rsv (boxOf s m) = false →
    opAllowed s (boxOf s m) = true →
    s.dev.st = .running ∨ s.dev.st = .filling ∧ (jobLoaded s = true ∨ s.dev.work ≠ .none) →
    refusesOnly s (r.cmd m) m .busyJob 0 0

/-- R342: JOB_LOAD_BEGIN and BASE_LOAD_BEGIN open a window of the length, stream and digest they give, or are
refused: BUSY_JOB while a window is open or a load waits for fitting, BAD_LENGTH for a length that does not fit. R21,
R226, R343, R359: JOB_LOAD_COMMIT with all bytes received and a right digest begins the job, held at its start with
its counters zero, once the package and the ports check; else it reports the first failure and no job is loaded.
BASE_LOAD_COMMIT makes the region resident. Either closes the window. The statuses of a second window, of a COMMIT without one
and of a base off its 64 KiB pages are log entry 46's, the STRANGER word of the reply log entry 32's. -/
def Obligations.LoadRequestsResult : Prop :=
  (∀ (s : State) (m : Nat), let b := boxOf s m
     let c := Instr.jobLoadBegin m
     let d := Instr.baseLoadBegin m
     let a := 256 * reqWord b 8
     (accepted s m reqLoadBegin →
       (s.load.isSome = true ∨ loadWaits s = true → refusesOnly s c m .busyJob 0 0) ∧
       (s.load = none → loadWaits s = false →
         (windowLen b = 0 ∨ 128 * snapShareBytes s < windowLen b → refusesOnly s c m .badLength 0 0) ∧
         (0 < windowLen b → windowLen b ≤ 128 * snapShareBytes s → ∃ t, exec c s = .next t ∧ answered s t m .ok [] ∧
           t.load = some (windowFor b 0 0) ∧ t.mem = s.mem ∧ t.job = s.job ∧ t.base = s.base ∧ t.dev.st = s.dev.st))) ∧
     (accepted s m reqBaseBegin →
       (s.load.isSome = true ∨ loadWaits s = true → refusesOnly s d m .busyJob 0 0) ∧
       (s.load = none → loadWaits s = false → a % 0x10000 = 0 →
         (windowLen b = 0 ∨ lpddrEnd < a + windowLen b ∨ meetsStaging s a (windowLen b) = true →
           refusesOnly s d m .badLength 0 0) ∧
         (0 < windowLen b → a + windowLen b ≤ lpddrEnd → meetsStaging s a (windowLen b) = false →
           ∃ t, exec d s = .next t ∧ answered s t m .ok [] ∧ t.load = some (windowFor b 1 a) ∧ t.mem = s.mem ∧
             t.job = s.job ∧ t.base = s.base ∧ t.dev.st = s.dev.st)))) ∧
  (∀ (s : State) (m : Nat) (w : LoadWindow),
     (accepted s m reqLoadCommit → (s.load = none → refusesOnly s (.jobLoadCommit m) m .wrongState 0 0) ∧
       (s.load = some w → w.kind = 0 → coversTo w.got w.len = false → ∃ t, exec (.jobLoadCommit m) s = .next t ∧
         refusedWith s t m .badLength 0 0 ∧ t.load = none ∧ t.job = s.job ∧ t.mem = s.mem) ∧
       (received s w 0 → let bs := packageBytes s w.len
         let p := readPackage bs
         ∃ t, exec (.jobLoadCommit m) s = .next t ∧ t.load = none ∧
           (sha384 bs ≠ w.digest → refusedWith s t m .digestMismatch 0 0 ∧ t.job = s.job ∧ t.mem = s.mem) ∧
           (sha384 bs = w.digest → ∀ f, packageFail s bs = some f →
             refusedWith s t m f.st f.typ f.idx ∧ t.job = s.job ∧ t.mem = s.mem) ∧
           (sha384 bs = w.digest → packageFail s bs = none → mustFit s = true →
             (boxOf t m).waits = some .fitting ∧ t.job = s.job ∧ t.mem = s.mem) ∧
           (sha384 bs = w.digest → packageFail s bs = none → mustFit s = false → unmatched s p ≠ [] →
             refusedWith s t m .fabricMismatch (portMask (unmatched s p)) 0 ∧ t.job = s.job ∧ t.mem = s.mem) ∧
           (sha384 bs = w.digest → packageFail s bs = none → mustFit s = false → unmatched s p = [] →
             answered s t m .ok (words [strangers t]) ∧ t.job = { pkg := some p, held := true, counting := true } ∧
             t.shut.cycles = 0 ∧ t.shut.micro = 0xFFFF ∧ t.mgmt.markNext = 1 ∧ t.mgmt.marks = [] ∧ t.coll = {} ∧
             t.fence = {} ∧ (s.dev.st = .ready → t.dev.st = .running) ∧
             (∀ q, panelOf t q = { trace := (panelOf s q).trace }) ∧
             (s.base = none → ∀ a, a < boltBase → (∀ r, Desc.row r ∈ p.descs → ∀ q, q < 256 →
               ¬ (resolveAddr q (256 * r.ovfBase) ≤ a ∧ a < resolveAddr q (256 * r.ovfBase) + r.ovfLen)) →
               memGet t.mem a = memGet s.mem a)))) ∧
     (accepted s m reqBaseCommit → (s.load = none → refusesOnly s (.baseLoadCommit m) m .wrongState 0 0) ∧
       (received s w 1 → let bs := memBytes (viewMem s) w.start w.len
         ∃ t, exec (.baseLoadCommit m) s = .next t ∧ t.load = none ∧ t.mem = s.mem ∧ t.job = s.job ∧
           (sha384 bs = w.digest → answered s t m .ok [] ∧ t.base = some ⟨w.start, w.len, w.digest⟩) ∧
           (sha384 bs ≠ w.digest → refusedWith s t m .digestMismatch 0 0 ∧ t.base = s.base))))

/-- R20, R313, R317, R344: JOB_RELEASE lets a held job go on. JOB_END of a job that issues waits for its STEP_CLOSE,
of a held job ends it at once, of a fill keeps the base region. That JOB_RELEASE clears the job's fault, and what a JOB_END waits
for beside its STEP_CLOSE, is log entry 47. -/
def Obligations.JobReleaseAndEnd : Prop :=
  ∀ (s : State) (m : Nat), let b := boxOf s m
    (accepted s m reqRelease → (s.job.invalid = true → refusesOnly s (.jobRelease m) m .stateInvalid 0 0) ∧
      (s.job.invalid = false → ∃ t, exec (.jobRelease m) s = .next t ∧ answered s t m .ok [] ∧ quietWork s t ∧
        t.job = { s.job with held := false, fault := none } ∧ t.shut = { s.shut with stopped := false })) ∧
    (accepted s m reqJobEnd → ∃ t, exec (.jobEnd m) s = .next t ∧ t.mem = s.mem ∧ (boxOf t m).waits = some .jobEnd ∧
      (s.dev.st = .running → s.job.held = false →
        t.job = { s.job with ending := some (bitOf (reqWord b 0) 0) } ∧ quietWork s t) ∧
      (s.dev.st = .running → s.job.held = true → mayEnd s → t.job.pkg = none ∧ t.dev.work = .jobClear ∧
        t.dev.retain = (bitOf (reqWord b 0) 0 && s.base.isSome) ∧ t.job.energy = s.job.energy ∧ t.host.slots = []) ∧
      (s.dev.st = .filling → t.job.pkg = none ∧ t.dev.work = .jobClear ∧ t.dev.retain = s.base.isSome ∧
        t.dev.fromFill = true ∧ t.snap.filling = none))

/-- R158, R345: RECIPE_SET asks for a recipe that has a compiled, available variant. FLAG_CLEAR clears the flags it
names in every unit, and NUMERIC of the tag it names. R234, R317: REMAP binds the port that carries the identity to
the rank, with its new switch port; a LOCAL rank whose identity is on no such port is refused, and one on a port bound to
another rank is refused with BUSY_FILL (log entry 72, the model's choice). The layout of FLAG_CLEAR's mask is log entry 9's; that a
REMAP which names the present identity changes nothing is log entry 49's. -/
def Obligations.RecipeFlagsRemapResult : Prop :=
  (∀ (s : State) (m : Nat) (p : Package), s.job.pkg = some p → let b := boxOf s m
     let rc := s.job.wantRecompute.getD ((variantOf p s.shut.variant).any (fun v => v.recompute))
     let keep := fun (i : Nat) (f : Bool) => f && !(bitOf (reqWord b 0) i)
     (accepted s m reqRecipe →
       (compiled s p (reqWord b 0) rc = [] → refusesOnly s (.recipeSet m) m .noVariant 0 0) ∧
       (compiled s p (reqWord b 0) rc ≠ [] → ∃ t, exec (.recipeSet m) s = .next t ∧ answered s t m .ok [] ∧ quietWork s t ∧
         t.job = { s.job with wantRecipe := some (reqWord b 0), clearTags := s.job.numeric } ∧ t.shut = s.shut)) ∧
     (accepted s m reqFlags → reqWord b 4 < tensorTags ∨ reqWord b 4 = 0xFFFF →
       ∃ t, exec (.flagClear m) s = .next t ∧ answered s t m .ok [] ∧ t.mem = s.mem ∧ t.dev = s.dev ∧ t.shut = s.shut ∧
         (∀ q, (panelOf t q).ndl = { (panelOf s q).ndl with
             laneRange := keep 4 (panelOf s q).ndl.laneRange, rowOrder := keep 5 (panelOf s q).ndl.rowOrder
             rowEmpty := keep 6 (panelOf s q).ndl.rowEmpty, needleWait := keep 7 (panelOf s q).ndl.needleWait } ∧
           (panelOf t q).mat = { (panelOf s q).mat with
             foldNonfinite := keep 0 (panelOf s q).mat.foldNonfinite, storeClosed := keep 1 (panelOf s q).mat.storeClosed
             accNonfinite := keep 2 (panelOf s q).mat.accNonfinite, queueWait := keep 3 (panelOf s q).mat.queueWait } ∧
           (spoolOf t q).stat = { (spoolOf s q).stat with
             spillSeen := keep 8 (spoolOf s q).stat.spillSeen, deficit := keep 9 (spoolOf s q).stat.deficit
             masterNonfinite := keep 11 (spoolOf s q).stat.masterNonfinite } ∧
           (panelOf t q).queue = (panelOf s q).queue ∧ (panelOf t q).rows = (panelOf s q).rows) ∧
         (∀ u, memUnitOf t u = { memUnitOf s u with ceRate := keep 12 (memUnitOf s u).ceRate }) ∧
         t.therm = { s.therm with skew := keep 13 s.therm.skew } ∧
         t.power = { s.power with deferred := keep 14 s.power.deferred, fixedExit := keep 15 s.power.fixedExit
                                  capUnmet := keep 16 s.power.capUnmet } ∧
         (∀ x, x ∈ t.job.numeric ↔ x ∈ s.job.numeric ∧
           ¬ (bitOf (reqWord b 0) 17 = true ∧ (reqWord b 4 = 0xFFFF ∨ x = reqWord b 4))))) ∧
  (∀ (s : State) (m : Nat) (p : Package) (e : Nat × Bool), s.job.pkg = some p → s.dev.st ≠ .filling →
     accepted s m reqRemap → let r := remapOf (boxOf s m)
     (p.plan.ranks[r.rank]? = none → refusesOnly s (.remap m) m .badRange 0 0) ∧
     (p.plan.ranks[r.rank]? = some e →
       (∀ q, allPorts.find? (fun q => carries (portOf s q) r && bindable (portOf s q)) = some q →
         ∃ t, exec (.remap m) s = .next t ∧ answered s t m .ok [] ∧ quietWork s t ∧ (portOf t q).st = .member ∧
           (portOf t q).peerRank = some r.rank ∧
           (∃ p', t.job.pkg = some p' ∧ p'.plan.ranks[r.rank]? = some (r.sw, e.2) ∧ p'.stitches = p.stitches) ∧
           ∀ k, k ≠ q → (portOf s k).peerRank ≠ some r.rank → portOf t k = portOf s k) ∧
       ((∀ q ∈ allPorts, carries (portOf s q) r = true → bindable (portOf s q) = false) →
         ∀ q, allPorts.find? (fun q => carries (portOf s q) r && (portOf s q).st == .member) = some q →
         ((portOf s q).peerRank ≠ some r.rank → refusesOnly s (.remap m) m .busyFill 0 0) ∧
         ((portOf s q).peerRank = some r.rank → ∃ t, exec (.remap m) s = .next t ∧ answered s t m .ok [] ∧
           quietWork s t ∧ t.ports = s.ports ∧ ∃ p', t.job.pkg = some p' ∧ p'.plan.ranks[r.rank]? = some (r.sw, e.2))) ∧
       ((∀ q ∈ allPorts, carries (portOf s q) r = true → bindable (portOf s q) = false ∧ (portOf s q).st ≠ .member) →
         (e.2 = true → refusesOnly s (.remap m) m .fabricMismatch (rankMask s r.rank) 0) ∧
         (e.2 = false → ∃ t, exec (.remap m) s = .next t ∧ answered s t m .ok [] ∧ quietWork s t ∧ t.ports = s.ports ∧
           ∃ p', t.job.pkg = some p' ∧ p'.plan.ranks[r.rank]? = some (r.sw, false)))))

/-- R242 to R244, R373, R381: FLOW_OPEN opens a context with the payload it fits, FLOW_CLOSE ends one once all it
has sent is acknowledged and all it has accepted is in effect, KEY_UPDATE moves the session to its next epoch, unless the
last change is within its 100 ms, SESSION_END ends the session with its flows. That a context is the lowest free one, and the layout
of FLOW_OPEN, are the model's choices (log entries 44 and 32). -/
def Obligations.FlowRequestsResult : Prop :=
  ∀ (s : State) (m : Nat), let b := boxOf s m
    let r := openReq b
    let sid := fromSession b
    (accepted s m (plain .flowOpen 0x200 40) →
      (mayOpen s r = false → refusesOnly s (.flowOpen m) m .noJob 0 0) ∧
      (mayOpen s r = true → openRange s r = false → refusesOnly s (.flowOpen m) m .badRange 0 0) ∧
      (mayOpen s r = true → openRange s r = true → sessionFlows s sid < 16384 →
        r.kind = 3 ∨ streamFlows s (kindOf r.kind) r.stream < 64 → ∀ f, freeContext s = some f →
        ∃ t v, exec (.flowOpen m) s = .next t ∧ answered s t m .ok (words [f, flowPayload s r]) ∧ t.mem = s.mem ∧
          t.job = s.job ∧ flowOf s f = none ∧ flowOf t f = some v ∧ v.kind = kindOf r.kind ∧ v.port = r.port ∧
          v.session = sid ∧ v.payload = flowPayload s r ∧ v.stream = r.stream ∧ v.farFlow = r.farFlow ∧
          v.enc = (r.enc == 1) ∧ v.cum = 0)) ∧
    (accepted s m (plain .flowClose 0x201 4) → let f := reqWord b 0
      (ownFlow s b f = none → refusesOnly s (.flowClose m) m .noFlowContext 0 0) ∧
      (∀ v, ownFlow s b f = some v → v.kind ≠ .ctrl → s.job.endDue = false →
        ∃ t, exec (.flowClose m) s = .next t ∧ answered s t m .ok [] ∧ (v.held = [] → t.mem = s.mem) ∧
          (v.st = .failed ∨ v.st = .opened ∧ v.out = [] ∧ v.held = [] → flowOf t f = none) ∧
          (v.st = .opened → v.out ≠ [] ∨ v.held ≠ [] →
            ∃ w, flowOf t f = some w ∧ w.st = .closing ∧ w.out = v.out ∧ w.held = v.held))) ∧
    (accepted s m (plain .keyUpdate 0x903 0) → ∀ w, tabFind s.host.sessions sid = some w →
      (0xFFFF ≤ w.epoch → refusesOnly s (.keyUpdate m) m .epochLimit 0 0) ∧
      (w.epoch < 0xFFFF → w.grace.isSome = true → repliesOnly s (.keyUpdate m) m .ok []) ∧
      (w.epoch < 0xFFFF → w.grace = none → (∀ v, flowOf s w.ctrl = some v → v.txNext + 16 ≤ 2 ^ 31) →
        ∃ t, exec (.keyUpdate m) s = .next t ∧ answered s t m .ok [] ∧ t.mem = s.mem ∧
          tabFind t.host.sessions sid = some { w with epoch := w.epoch + 1, grace := some w.epoch })) ∧
    (accepted s m (plain .sessionEnd 0x904 0) → (tabFind s.host.sessions sid).isSome = true →
      (∀ e ∈ s.host.flows, e.2.session = sid → e.2.held = []) → ∃ t, exec (.sessionEnd m) s = .next t ∧ t.mem = s.mem ∧ tabFind t.host.sessions sid = none ∧
        (∀ e ∈ t.host.flows, e.2.session ≠ sid) ∧ (boxOf t m).reply = memPut [] 0 (replyBytes b .ok []))

/-- R300, R301, R318: SNAPSHOT of a job that issues waits for its capture; of a held job it is captured at once, at
the present step, with memory as it is. It is refused without a usable flow, while the job state is INVALID, or where its
manifest would exceed 16 MiB (the statuses of these are log entry 48's).
SNAPSHOT_CANCEL ends it: FAILED is set and no page stays protected. -/
def Obligations.SnapshotRequestsResult : Prop :=
  ∀ (s : State) (m : Nat), let b := boxOf s m
    (accepted s m reqSnapshot →
      (snapFlowsOf b = [] ∨ (∃ f ∈ snapFlowsOf b, snapFlowOk s (fromSession b) f = false) →
        refusesOnly s (.snapshot m) m .noFlowContext 0 0) ∧
      (snapAsked s b → s.job.invalid = true → refusesOnly s (.snapshot m) m .notRestorable 0 0) ∧
      (∀ p, s.job.pkg = some p → snapAsked s b → s.job.invalid = false →
        0x1000000 < manifestLen p (imageChunks p (snapOf b m)).length → refusesOnly s (.snapshot m) m .badRange 0 0) ∧
      (∀ p, s.job.pkg = some p → snapAsked s b → s.job.invalid = false →
        manifestLen p (imageChunks p (snapOf b m)).length ≤ 0x1000000 → ∃ t n, exec (.snapshot m) s = .next t ∧ t.mem = s.mem ∧ t.job = s.job ∧
        t.snap.snap = some n ∧ n.id = reqWord b 0 ∧ n.flows = sortNats (snapFlowsOf b) ∧
        (s.job.held = false → n = snapOf b m ∧ (boxOf t m).waits = some .snapshot) ∧
        (s.job.held = true → n.captured = true ∧ n.step = s.job.step ∧ n.variant = s.shut.variant ∧
          (boxOf t m).waits = none ∧ (boxOf t m).sent.isSome = true))) ∧
    (accepted s m reqCancel → (s.snap.snap = none → refusesOnly s (.snapshotCancel m) m .wrongState 0 0) ∧
      (s.snap.snap.isSome = true → ∃ t, exec (.snapshotCancel m) s = .next t ∧ t.snap.snap = none ∧ t.snap.guarded = [] ∧
        t.snap.heldWrites = [] ∧ t.snap.failed = true ∧ (s.snap.heldWrites = [] → t.mem = s.mem)))

/-- R302, R303, R310, R313, R314: RESTORE opens the restore target; its reply has SNAP_ID and reads its write-only
words as zero (R9). SNAPSHOT_PAGE_COPY copies the page that a held write waits for, else the next in order, into free space of
the snapshot share of its channel, or waits where there is none, and ends the page's protection (the channel of a bolt page, and
that the first free place is taken, are log entry 48's; the range errors of RESTORE log entry 49's). RESTORE_CHUNK compares a chunk that has arrived: a wrong digest fails the restore, and the
last right one commits it, the job held at the restored step and valid; while a case
is held it waits. -/
def Obligations.RestoreAndCopyResult : Prop :=
  (∀ (s : State) (m : Nat) (p : Package), accepted s m reqRestore → s.job.pkg = some p → let b := boxOf s m
    let bad := reqWord b 8 = 0 ∨ 0x1000000 < reqWord b 8 ∨ reqWord b 8 % 8 ≠ 0 ∨ 256 < fieldOf (reqWord b 0xC) 0 9 ∨
      usesStream p (fieldOf (reqWord b 4) 0 8) = true
    (bad → refusesOnly s (.restore m) m .badRange 0 0) ∧
    (¬ bad → ∃ t, exec (.restore m) s = .next t ∧ answered s t m .ok (words [reqWord b 0, 0, 0, 0]) ∧
      t.snap.rest = some (restoreOf s b) ∧
      t.mem = s.mem ∧ t.job = s.job)) ∧
  (∀ (s : State) (n : Snap) (page : Nat), s.snap.snap = some n → nextPage s = some page → memClean s = true →
    (∀ g, g ≠ page → exec (.snapshotPageCopy g) s = .next s) ∧
    (stageSlot s n (stageChannel page) = none → exec (.snapshotPageCopy page) s = .next s) ∧
    (∀ a, stageSlot s n (stageChannel page) = some a →
      (∃ t, exec (.snapshotPageCopy page) s = .next t ∧
        t.snap.guarded = s.snap.guarded.filter (fun g => g != page) ∧ t.snap.pages = sat32 (s.snap.pages + 1) ∧
        t.snap.promoted = (if s.snap.guarded.head? = some page then s.snap.promoted else sat32 (s.snap.promoted + 1))) ∧
      (s.snap.heldWrites = [] → ∃ t n', exec (.snapshotPageCopy page) s = .next t ∧ t.job = s.job ∧
        memBytes t.mem a 0x10000 = memBytes s.mem (0x10000 * page) 0x10000 ∧
        (∀ x, ¬ (a ≤ x ∧ x < a + 0x10000) → memGet t.mem x = memGet s.mem x) ∧
        t.snap.snap = some n' ∧ tabFind n'.staged page = some a))) ∧
  (∀ (s : State) (r : RestoreRun) (p : Package) (d : Manifest) (k : Nat) (c : Chunk), s.snap.rest = some r →
    s.job.pkg = some p → r.man = some d → d.chunks[k]? = some c → 64 * (tabGet [] r.lines k).length = c.len →
    k ∉ r.matched → memClean s = true →
    (heldCases s = true → exec (.restoreChunk k) s = .next s) ∧
    (heldCases s = false → ∃ t, exec (.restoreChunk k) s = .next t ∧ t.mem = s.mem ∧
      (sha384 (chunkBack s p r c).1 ≠ c.digest → t.snap.rest = none ∧ t.snap.failed = true ∧ t.job = s.job) ∧
      (sha384 (chunkBack s p r c).1 = c.digest →
        ((∃ j, j < d.chunks.length ∧ j ≠ k ∧ j ∉ r.matched) →
          t.snap.rest = some { r with matched := r.matched ++ [k] } ∧ t.job = s.job) ∧
        ((∀ j, j < d.chunks.length → j = k ∨ j ∈ r.matched) → t.snap.rest = none ∧ t.job.pkg = some p ∧
          t.job.step = r.step ∧ t.job.invalid = false ∧ t.job.held = true ∧ t.job.fault = none ∧ t.host.slots = [] ∧
          (s.dev.st = .filling → t.dev.st = .running ∧ t.snap.filling = none)))))

/-- R204, R315, R324, R328, R331, R332: the requests that move the device between its states, each accepted where
R341 says: SPARE, SPARE_EXIT, FILL, DRAIN, UNDRAIN, SELF_TEST, HIBERNATE (which loses bolt memory and keeps LPDDR5X)
and WAKE (R382: VSRAM goes off and on with them). FILL's layout and range errors, what a DRAIN waits for and makes of a pass under
way, and what HIBERNATE closes are the model's choices (log entries 32, 50, 51 and 63). -/
def Obligations.DeviceStateRequests : Prop :=
  ∀ (s : State) (m : Nat), let b := boxOf s m
    (accepted s m reqSpare → ∃ t, exec (.spare m) s = .next t ∧ answered s t m .ok [] ∧ movesTo s t .spare ∧ t.base = s.base) ∧
    (accepted s m reqSpareExit → ∃ t, exec (.spareExit m) s = .next t ∧ answered s t m .ok [] ∧ movesTo s t .ready ∧
      t.base = s.base) ∧
    (accepted s m reqFill → let d := beNat (reqBytes b 8 48)
      (72 < reqWord b 4 ∨ reqWord b 4 ≤ reqWord b 0 → refusesOnly s (.fill m) m .badRange 0 0) ∧
      (reqWord b 4 ≤ 72 → reqWord b 0 < reqWord b 4 → s.base.map BaseRegion.digest ≠ some d →
        refusesOnly s (.fill m) m .baseMismatch 0 0) ∧
      (reqWord b 4 ≤ 72 → reqWord b 0 < reqWord b 4 → s.base.map BaseRegion.digest = some d →
        ∃ t, exec (.fill m) s = .next t ∧ answered s t m .ok [] ∧ movesTo s t .filling ∧
          t.snap.filling = some (reqWord b 0, reqWord b 4, d))) ∧
    (accepted s m reqDrain → ∃ t, exec (.drain m) s = .next t ∧
      t.dev.drainReplace = (s.dev.drainReplace || bitOf (reqWord b 0) 0) ∧
      (s.dev.drain = none → ∃ x, t.dev.drain = some (8, 0xFFFF, x)) ∧
      (heldCases s = true → answered s t m .ok [] ∧ movesTo s t s.dev.st) ∧
      (heldCases s = false → t.dev.st = .draining ∧ t.job.pkg = none ∧ bitOf t.mgmt.causes 7 = true ∧
        (boxesAt s .jobEnd = [] → boxesAt s .fitting = [] → answered s t m .ok []) ∧
        (s.snap.heldWrites = [] → s.dev.work ≠ .jobScan → s.dev.work ≠ .jobSign →
          t.dev.work = .drainClear ∧ t.mem = s.mem))) ∧
    (accepted s m reqUndrain → ∃ t, exec (.undrain m) s = .next t ∧ answered s t m .ok [] ∧ movesTo s t .drained ∧
      t.dev.work = .undrainScan) ∧
    (accepted s m reqSelfTest → ∃ t, exec (.selfTest m) s = .next t ∧ answered s t m .ok [] ∧ movesTo s t s.dev.st ∧
      t.dev.work = (if s.dev.work = .undrainScan then .undrainScan else .selfScan)) ∧
    (accepted s m reqHibernate → ∃ t, exec (.hibernate m) s = .next t ∧ answered s t m .ok [] ∧ t.dev.st = .hibernate ∧
      t.job = s.job ∧ t.health.selfRefresh = true ∧ t.health.scrubbing = false ∧
      (∀ a, a < boltBase → memGet t.mem a = memGet s.mem a) ∧ (∀ q, (portOf t q).st = .off) ∧
      t.dev.hibSpare = (s.dev.st == .spare) ∧
      .vsram ∉ t.pins.rails ∧ t.pins.lowPower = true) ∧
    (accepted s m reqWake → s.health.selfRefresh = true → ∃ t, exec (.wake m) s = .next t ∧ answered s t m .ok [] ∧
      movesTo s t .hibernate ∧ t.health.selfRefresh = false ∧ t.pins.startup = 6 ∧ .vsram ∈ t.pins.rails ∧
      t.pins.lowPower = false)

/-- R264, R265, R286, R287, R337: POWER_BUDGET takes a budget that passes the checks of R265 and counts one that does
not; COOLING_REPORT takes a report that passes those of R286, and an inlet outside 15 to 45 °C raises COOLING. Each
reply of an accepted one returns the values accepted (its layout, and that BUDGETS_REFUSED counts every refusal, are log entry
54's). -/
def Obligations.BudgetAndReportResult : Prop :=
  ∀ (s : State) (m : Nat), let b := boxOf s m
    let lo := fieldOf (reqWord b 4) 0 16
    let hi := fieldOf (reqWord b 4) 16 16
    let hold := fieldOf (reqWord b 8) 0 16
    let flow := fieldOf (reqWord b 8) 0 24
    (accepted s m reqBudget → ∃ t, exec (.powerBudget m) s = .next t ∧ t.mem = s.mem ∧ t.job = s.job ∧
      t.therm = s.therm ∧ t.power.soft = s.power.soft ∧ t.power.hard = s.power.hard ∧ t.power.grade = s.power.grade ∧
      ((1000 ≤ lo ∧ lo ≤ 8000 ∧ 1200 ≤ hi ∧ hi ≤ 8000 ∧ lo ≤ hi ∧ (hold = 0 ∨ 100 ≤ hold) ∧ hold ≤ 60000) →
        (reqWord b 0 ≤ s.power.seq → refusedWith s t m .staleBudget 0 0 ∧ t.power.refusedN = sat32 (s.power.refusedN + 1)) ∧
        (s.power.seq < reqWord b 0 → (∃ a, s.power.accepted = some a ∧ s.nowUs < a + 100000) →
          refusedWith s t m .budgetRate 0 0 ∧ t.power.refusedN = sat32 (s.power.refusedN + 1)) ∧
        (s.power.seq < reqWord b 0 → (∀ a, s.power.accepted = some a → a + 100000 ≤ s.nowUs) →
          answered s t m .ok (words [reqWord b 0, lo + 65536 * hi, hold, s.power.grade + 16 * dutyOf s]) ∧
          t.power = { s.power with seq := reqWord b 0, next := some (lo, hi), hold := hold, fallback := false
                                   accepted := some s.nowUs, taken := sat32 (s.power.taken + 1) })) ∧
      (¬ (1000 ≤ lo ∧ lo ≤ 8000 ∧ 1200 ≤ hi ∧ hi ≤ 8000 ∧ lo ≤ hi ∧ (hold = 0 ∨ 100 ≤ hold) ∧ hold ≤ 60000) →
        refusedWith s t m .badRange 0 0 ∧ t.power = { s.power with refusedN := sat32 (s.power.refusedN + 1) })) ∧
    (accepted s m reqReport → lo ≤ 8000 → hi ≤ 10000 → flow ≤ 100000 →
      (reqWord b 0 ≤ s.therm.seq → refusesOnly s (.coolingReport m) m .staleReport 0 0) ∧
      (s.therm.seq < reqWord b 0 → (∀ a, s.therm.accepted = some a → a + 100000 ≤ s.nowUs) →
        ∃ t, exec (.coolingReport m) s = .next t ∧ t.mem = s.mem ∧ t.job = s.job ∧ t.power = s.power ∧
          answered s t m .ok (words [reqWord b 0, lo + 65536 * hi, flow,
            ratUnits s.therm.theta 10000 % 65536 + 65536 * (s.therm.tj % 65536).toNat]) ∧
          t.therm = { s.therm with seq := reqWord b 0, tIn := lo, tOut := hi, flow := flow, fresh := true
                                   accepted := some s.nowUs } ∧
          (lo < 1500 ∨ 4500 < lo → bitOf t.mgmt.causes 2 = true) ∧
          (1500 ≤ lo → lo ≤ 4500 → t.mgmt.causes = s.mgmt.causes))) ∧
    (accepted s m reqSensorClear → ∃ t, exec (.sensorClear m) s = .next t ∧ answered s t m .ok [] ∧ t.mem = s.mem ∧
      t.therm = { s.therm with suspects := [] } ∧ t.dev = { s.dev with service := false })

/-- R346 to R348: TXN_BEGIN opens the one transaction, TXN_SET stages a batch whose settings all exist, TXN_ROLLBACK
and expiry discard it, and no setting changes before the commit point; there every staged entry is stored at once.
Another session's request is NOT_OWNER, one without a transaction NO_TRANSACTION. -/
def Obligations.TransactionResult : Prop :=
  ∀ (s : State) (m : Nat), let b := boxOf s m
    let x := s.mgmt.txn
    let es := entriesOf b x.count
    (accepted s m (plain .txnBegin 0x600 0) →
      (x.st ≠ .idle → refusesOnly s (.txnBegin m) m .busyTransaction 0 0) ∧
      (x.st = .idle → ∃ t, exec (.txnBegin m) s = .next t ∧ sameSettings s t ∧
        answered s t m .ok (words [(x.number + 1) % 2 ^ 32]) ∧ t.mgmt.txn =
          { st := .opened, number := (x.number + 1) % 2 ^ 32, owner := fromSession b, staged := [], count := 0 })) ∧
    (accepted s m reqTxnSet → (x.st = .idle → refusesOnly s (.txnSet m) m .noTransaction 0 0) ∧
      (x.st ≠ .idle → x.owner ≠ fromSession b → refusesOnly s (.txnSet m) m .notOwner 0 0) ∧
      (ownsTxn s m → (∀ e, es.find? (fun e => !(knownSetting e.id e.index)) = some e →
        refusesOnly s (.txnSet m) m .badSetting e.num e.id)) ∧
      (ownsTxn s m → (∀ e ∈ es, knownSetting e.id e.index = true) → ∃ t, exec (.txnSet m) s = .next t ∧
        sameSettings s t ∧ answered s t m .ok [] ∧
        t.mgmt.txn = { x with staged := es.foldl stageEntry x.staged, count := x.count + reqWord b 0 })) ∧
    (accepted s m (plain .txnRollback 0x603 0) → ownsTxn s m → ∃ t, exec (.txnRollback m) s = .next t ∧
      sameSettings s t ∧ answered s t m .ok [] ∧ t.mgmt.txn.st = .idle ∧ t.mgmt.txn.staged = []) ∧
    (accepted s m (plain .txnCommit 0x602 4) → ownsTxn s m → reqWord b 0 = x.number →
      (∀ st c d, commitFault s x.staged = some (st, c, d) → ∃ t, exec (.txnCommit m) s = .next t ∧ sameSettings s t ∧
        refusedWith s t m st c d ∧ t.mgmt.txn.st = .idle) ∧
      (commitFault s x.staged = none → ∃ t, exec (.txnCommit m) s = .next t ∧ t.mem = s.mem ∧
        (jobLoaded s = true → s.job.held = false → s.fence.abandoned = false → s.fence.poisons = [] →
          sameSettings s t ∧ t.mgmt.txn.st = .pending ∧ (boxOf t m).waits = some .commit) ∧
        (jobLoaded s = false ∨ s.job.held = true ∨ poisoned s = true → s.snap.snap = none →
          t.mgmt.settings = storeEntries s.mgmt.settings x.staged ∧ t.mgmt.txn.st = .idle ∧ (boxOf t m).waits = none))) ∧
    (x.st = .pending → atCommitPoint s = true → ∃ t, exec .txnCommitPoint s = .next t ∧ t.mem = s.mem ∧
      t.mgmt.settings = storeEntries s.mgmt.settings x.staged ∧ t.mgmt.txn.st = .idle ∧
      t.mgmt.flash = storeEntries s.mgmt.flash (x.staged.filter (fun e => persistent e.id))) ∧
    (x.st = .opened → ∃ t, exec .txnExpired s = .next t ∧ sameSettings s t ∧ t.mgmt.txn.st = .idle ∧
      t.mgmt.txn.number = x.number)

/-- R358, R359, R362: MARK_REQUEST injects a mark of kind 3 and names it; ALERT_CAUSES clears each cause it names
whose condition has ended; NOTE_WATCH takes and leaves queues; NOTE_READ returns notes and takes them from the queue. Which conditions hold a cause, and that a
NOTE_WATCH names the whole set, are the model's readings (log entries 30 and 57). -/
def Obligations.MarkAlertNoteResult : Prop :=
  ∀ (s : State) (m : Nat), let b := boxOf s m
    let sid := fromSession b
    let q := reqWord b 0
    (accepted s m (plain .markRequest 0x701 0) → ∃ t, exec (.markRequest m) s = .next t ∧ t.mem = s.mem ∧ t.job = s.job ∧
      answered s t m .ok (words [s.mgmt.markNext]) ∧ t.mgmt.markNext = s.mgmt.markNext + 1 ∧
      t.mgmt.marks.getLast? = some (⟨s.mgmt.markNext, 3, eventStep s, [], s.job.fray⟩ : MarkRec)) ∧
    (accepted s m reqCauses → ∃ t, exec (.alertCauses m) s = .next t ∧ t.mem = s.mem ∧ t.dev = s.dev ∧
      answered s t m .ok (words [t.mgmt.causes]) ∧ ∀ c, bitOf t.mgmt.causes (causeBit c) =
        (bitOf s.mgmt.causes (causeBit c) && !(bitOf q (causeBit c) && !(causeHolds s c)))) ∧
    (accepted s m reqWatch →
      ((∃ k w, k < 16 ∧ bitOf q k = true ∧ (noteQueueOf s k).watcher = some w ∧ w ≠ sid) →
        refusesOnly s (.noteWatch m) m .notOwner 0 0) ∧
      ((∀ k w, k < 16 → bitOf q k = true → (noteQueueOf s k).watcher = some w → w = sid) →
        ∃ t, exec (.noteWatch m) s = .next t ∧ answered s t m .ok [] ∧ t.mem = s.mem ∧
          ∀ k, k < 16 → (noteQueueOf t k).notes = (noteQueueOf s k).notes ∧
            (bitOf q k = true → (noteQueueOf t k).watcher = some sid) ∧
            (bitOf q k = false → (noteQueueOf t k).watcher ≠ some sid))) ∧
    (accepted s m reqNotes → (16 ≤ q → refusesOnly s (.noteRead m) m .badRange 0 0) ∧
      (q < 16 → (noteQueueOf s q).watcher.isSome = true → refusesOnly s (.noteRead m) m .notOwner 0 0) ∧
      (q < 16 → (noteQueueOf s q).watcher = none → ∃ t, exec (.noteRead m) s = .next t ∧ t.mem = s.mem ∧
        answered s t m .ok (notesBody s b) ∧ (∀ n ∈ notesAt s b, n ∉ (noteQueueOf t q).notes) ∧
        (∀ n ∈ (noteQueueOf s q).notes, n ∉ notesAt s b → n ∈ (noteQueueOf t q).notes) ∧
        ∀ k, k ≠ q → noteQueueOf t k = noteQueueOf s k))

/-- R208, R223, R366, R370, R377, R378: OWNER_SET replaces the owner anchors; FW_BEGIN, FW_COMMIT, FW_ACTIVATE and
FW_CONFIRM take an image to the inactive slot, to trial and to its confirmation; MEM_INJECT changes one stored
codeword and no data; PORT_RETRAIN returns a DOWN port to training. The layouts of MEM_INJECT and PORT_RETRAIN, and when a
trial ends, are log entries 32 and 60. -/
def Obligations.TrustRequestsResult : Prop :=
  ∀ (s : State) (m : Nat), let b := boxOf s m
    let keys := (List.range (reqWord b 0)).map (ownerKey b)
    (accepted s m reqOwner → b.provisioning = false ∨ s.fw.anchors = [] →
      (4 < reqWord b 0 → refusesOnly s (.ownerSet m) m .badRange 0 0) ∧
      (reqWord b 0 ≤ 4 → (∃ k ∈ keys, validPoint k = false) → refusesOnly s (.ownerSet m) m .badCert 0 0) ∧
      (reqWord b 0 ≤ 4 → (∀ k ∈ keys, validPoint k = true) → ∃ t, exec (.ownerSet m) s = .next t ∧ answered s t m .ok [] ∧
        t.mem = s.mem ∧ t.fw = { s.fw with anchors := keys })) ∧
    (accepted s m reqFwBegin → (s.fw.trial = true → refusesOnly s (.fwBegin m) m .updatePending 0 0) ∧
      (s.fw.trial = false → s.load = none → 0 < windowLen b → windowLen b ≤ 2 ^ 30 → ∃ t, exec (.fwBegin m) s = .next t ∧
        answered s t m .ok [] ∧ t.load = some (windowFor b 2 0) ∧ t.fw = s.fw ∧ t.mem = s.mem)) ∧
    (accepted s m reqFwCommit → ∀ w, s.load = some w → w.kind = 2 → coversTo w.got w.len = true →
      let bs := memBytes w.buf 0 w.len
      ∃ t, exec (.fwCommit m) s = .next t ∧ t.load = none ∧ t.mem = s.mem ∧ t.fw.active = s.fw.active ∧
        (sha384 bs ≠ w.digest → refusedWith s t m .digestMismatch 0 0 ∧ t.fw = s.fw) ∧
        (sha384 bs = w.digest → ∀ st, imageFault s.fw (readImage bs) = some st → refusedWith s t m st 0 0 ∧ t.fw = s.fw) ∧
        (sha384 bs = w.digest → imageFault s.fw (readImage bs) = none → (readImage bs).recovery = false →
          answered s t m .ok [] ∧ t.fw.committed = true ∧
          (s.fw.active = 0 → t.fw.slotB = some (readImage bs) ∧ t.fw.slotA = s.fw.slotA) ∧
          (s.fw.active ≠ 0 → t.fw.slotA = some (readImage bs) ∧ t.fw.slotB = s.fw.slotB))) ∧
    (accepted s m reqFwActivate → (s.fw.committed = false → refusesOnly s (.fwActivate m) m .wrongState 0 0) ∧
      (s.fw.committed = true → ∃ t, exec (.fwActivate m) s = .next t ∧ answered s t m .ok [] ∧ t.mem = s.mem ∧
        t.fw = { s.fw with active := 1 - s.fw.active, trial := true, committed := false })) ∧
    (accepted s m (plain .fwConfirm 0x908 0) → (s.fw.trial = false → refusesOnly s (.fwConfirm m) m .notTrial 0 0) ∧
      (s.fw.trial = true → ∀ i, runningImage s = some i → ∃ t, exec (.fwConfirm m) s = .next t ∧ answered s t m .ok [] ∧
        t.mem = s.mem ∧ t.fw = { s.fw with trial := false, floor := max s.fw.floor i.svn })) ∧
    (accepted s m reqInject → ∀ pat, let u := fieldOf (reqWord b 0) 0 8
      let bolt := !(bitOf (reqWord b 0) 8)
      u < (if bolt then 256 else 128) → reqWord b 4 < unitLines bolt →
      injectPattern (bitOf (reqWord b 0) 9) (reqWord b 8) (reqBytes b 12 8) = some pat →
      ∃ t, exec (.memInject m) s = .next t ∧ answered s t m .ok [] ∧ t.mem = s.mem ∧ t.job = s.job ∧
        tabGet [] t.health.errors (unitLine bolt u (reqWord b 4)) =
          patXor (tabGet [] s.health.errors (unitLine bolt u (reqWord b 4))) pat ∧
        ∀ l, l ≠ unitLine bolt u (reqWord b 4) → tabFind t.health.errors l = tabFind s.health.errors l) ∧
    (accepted s m (plain .portRetrain 0x801 4) → let q := reqWord b 0
      (12 ≤ q → refusesOnly s (.portRetrain m) m .badRange 0 0) ∧
      (q < 12 → (portOf s q).st ≠ .down → refusesOnly s (.portRetrain m) m .wrongState 0 0) ∧
      (q < 12 → (portOf s q).st = .down → ∃ t, exec (.portRetrain m) s = .next t ∧ answered s t m .ok [] ∧ t.mem = s.mem ∧
        portOf t q = { st := .training, stat := (portOf s q).stat } ∧ ∀ k, k ≠ q → portOf t k = portOf s k))

/-- R3, R195, R197, R199, R200, R206, R353: SCRUB_READ reads the next line of its unit and goes on to the line after it; a
correctable error is counted and, with no write since, taken out of the stored codeword, every byte reading as
before; an uncorrectable line is poisoned. MEM_CE_RATE acts once CORRECTED has
grown by more than CE_WARN within an hour, and only then (that the growth then counts anew is log entry 70, the model's
choice); LPDDR_TRACKING and REGISTER_ACCESS are counted or logged. A segment of LPDDR5X stores its 14 data lines, their
check bytes and the segment word with their poison bits where R195 says. -/
def Obligations.ScrubAndRatesResult : Prop :=
  ∀ (s : State) (bolt : Bool) (unit : Nat),
    let k := unitKey (unit, bolt)
    let u := memUnitOf s k
    let l := unitLine bolt unit u.scrubNext
    (s.health.scrubbing = true → ∀ ow, ∃ t, exec (.scrubRead bolt unit ow) s = .next t ∧
      (memUnitOf t k).scrubNext = (if u.scrubNext + 1 < unitLines bolt then u.scrubNext + 1 else 0) ∧
      (memUnitOf t k).scrubPasses =
        (if u.scrubNext + 1 < unitLines bolt then u.scrubPasses else sat32 (u.scrubPasses + 1)) ∧
      (tabFind s.health.errors l = none → l ∉ s.health.poison → sideOnly s t ∧ t.health.errors = s.health.errors ∧
        (memUnitOf t k).corrected = u.corrected) ∧
      (∀ pat n, tabFind s.health.errors l = some pat → l ∉ s.health.poison → eccDecode pat = .corrected n →
        (memUnitOf t k).corrected = sat32 (u.corrected + 1) ∧ (memUnitOf t k).symbols = sat32 (u.symbols + n) ∧
        (∀ a, memGet t.mem a = memGet s.mem a) ∧ t.job = s.job ∧
        (ow = false → tabFind t.health.errors l = none) ∧ (ow = true → t.health.errors = s.health.errors)) ∧
      (∀ pat, tabFind s.health.errors l = some pat → l ∉ s.health.poison → eccDecode pat = .uncorrectable →
        s.job.pkg = none → s.base = none → l ∈ t.health.poison ∧ t.mem = s.mem ∧
        (memUnitOf t (unitKey (unitOf (64 * l)))).uncorrectable =
          sat32 ((memUnitOf s (unitKey (unitOf (64 * l)))).uncorrectable + 1))) ∧
    (let grown := (u.ceTimes.filter (fun x => decide (s.nowUs < x + 3600000000))).length;
      (setting s 0x122 0 < grown → ∃ t, exec (.memCeRate bolt unit) s = .next t ∧ sideOnly s t ∧
        memUnitOf t k = { u with ceRate := true, ceTimes := [] } ∧ bitOf t.mgmt.causes 6 = true ∧
        logsLast s t (srcMem bolt unit) .memCeRate [unit]) ∧
      (grown ≤ setting s 0x122 0 → exec (.memCeRate bolt unit) s = .next s)) ∧
    (s.pins.rails ≠ [] → 6 ≤ s.pins.startup → ∃ t, exec (.lpddrTracking unit) s = .next t ∧ sideOnly s t ∧
      memUnitOf t (256 + unit) = { memUnitOf s (256 + unit) with retrains := sat32 ((memUnitOf s (256 + unit)).retrains + 1) } ∧
      t.mgmt = s.mgmt) ∧
    (∃ t, exec (.registerAccess unit) s = .next t ∧ sideOnly s t ∧ t.dev = s.dev ∧ t.health = s.health ∧
      logsLast s t unit .registerAccess []) ∧
    (∀ ch seg j a, ch < 128 → j < 14 → a < 64 →
      (storageByte (896 * seg + 64 * j + a) = 1024 * seg + 64 * j + a ∧
        storageCheck (896 * seg + 64 * j + a) = 1024 * seg + 896 + 8 * j) ∧
      (segmentBytes s ch seg).length = 1024 ∧
      (tabFind s.health.errors (segmentLine ch seg j) = none →
        ((segmentBytes s ch seg).drop (64 * j)).take 64 = memBytes s.mem (64 * segmentLine ch seg j) 64) ∧
      bitOf (segmentWord s ch seg) j = s.health.poison.contains (segmentLine ch seg j) ∧
      segmentWord s ch seg < 2 ^ 14)

/-- R20, R207, R208, R321: CLEARING_DONE leaves zero in every byte outside a retained base region, no panel work and no job
flow, starts scrubbing and goes on to the scan or the signing; a nonzero read-back makes the device suspect for cause
3. R321, R323, R324, R327 to R329: SCAN_DONE of a pass that finds nothing logs SCAN_DONE and goes on: to the signing
after a job or a drain, whose record it writes, to READY after UNDRAIN, else to no work. A failing set makes the
device suspect for cause 4; a set whose digest fails in copy A of the scan image is taken from copy B and rewritten, and one that
fails in both makes the device suspect for cause 9; the march test of a full pass counts a correctable error it reads. SPARE_SCAN starts a pass in SPARE. -/
def Obligations.ClearingAndScanResult : Prop :=
  (∀ (s : State) (nonzero : Bool) (w w' : Work), s.dev.work = w →
     (w, w') ∈ [(Work.jobClear, Work.jobScan), (.drainClear, .drainScan), (.resetClear, .resetSign)] →
     ∃ t, exec (.clearingDone nonzero) s = .next t ∧
       (nonzero = false → t.dev.work = w' ∧ t.dev.clearOk = true ∧ t.health.scrubbing = true ∧
         (∀ a, memGet t.mem a = if s.dev.retain && inBase s a then memGet s.mem a else 0#8) ∧
         t.base = (if s.dev.retain then s.base else none) ∧ (∀ e ∈ t.host.flows, e.2.kind = .ctrl) ∧
         (∀ l ∈ t.health.poison, s.dev.retain = true ∧ inBase s (64 * l) = true) ∧ t.job = s.job ∧
         ∀ q, (panelOf t q).queue = [] ∧ (panelOf t q).banks = [] ∧ (panelOf t q).rows = [] ∧ (panelOf t q).chain = none ∧
           (panelOf t q).spool.ring = [] ∧ (panelOf t q).mat = (panelOf s q).mat ∧
           (panelOf t q).ndl = (panelOf s q).ndl ∧ (panelOf t q).trace = (panelOf s q).trace) ∧
       (nonzero = true → s.dev.suspect = none → t.dev.suspect = some (3, 0xFFFF))) ∧
  ((∀ (s : State) (occ n : Nat), scanKind s.dev.work = some (occ, n) →
     sound s ∨ s.dev.st = .draining ∧ (s.dev.work = .drainScan ∨ s.dev.work = .drainJobScan) →
     n = 279 ∨ boltSound s → (∀ k ∈ s.dev.scanA, k < n → k ∉ s.dev.scanB) →
     ∃ t, exec (.scanDone ⟨[], [], [], []⟩) s = .next t ∧ t.job = s.job ∧ (n = 279 → t.mem = s.mem) ∧
       (∀ a, a < boltBase → memGet t.mem a = memGet s.mem a) ∧
       (s.dev.st ≠ .draining → sound s → logsLast s t srcThimble .scanDone [occ, n, 0xFFFF] ∧
         (∀ k, k ∈ t.dev.scanA ↔ k ∈ s.dev.scanA ∧ n ≤ k) ∧ t.dev.scanB = s.dev.scanB ∧
         (s.dev.work = .jobScan → t.dev.work = .jobSign ∧ t.dev.st = s.dev.st) ∧
         (s.dev.work = .selfScan ∨ s.dev.work = .spareScan → t.dev.work = .none ∧ t.dev.st = s.dev.st) ∧
         (s.dev.work = .undrainScan → t.dev.work = .none ∧ t.dev.st = .ready)) ∧
       (s.dev.st = .draining → s.dev.work = .drainScan ∨ s.dev.work = .drainJobScan → s.dev.signDue = false →
         t.dev.work = .drainSign ∧ t.dev.drainSeq = s.dev.drainSeq + 1 ∧ ∃ r, t.dev.drains.getLast? = some r ∧
           r.seq = s.dev.drainSeq + 1 ∧ r.scanFails = 0 ∧ r.clearOk = s.dev.clearOk ∧
           r.replace = (t.dev.replace || s.dev.replaceFull) ∧
           t.dev.replace = (s.dev.replace || s.dev.suspect.isSome || s.dev.drainReplace))) ∧
   (∀ (s : State) (r : ScanResult) (f : Nat), (scanKind s.dev.work).isSome = true → r.fails.head? = some f →
     s.dev.suspect = none → (scanKind s.dev.work).map Prod.snd = some 279 ∨ boltSound s → ∃ t, exec (.scanDone r) s = .next t ∧ t.dev.suspect = some (4, f)) ∧
   (∀ (s : State) (r : ScanResult) (occ n : Nat), scanKind s.dev.work = some (occ, n) → r.fails = [] →
     s.dev.suspect = none → n = 279 ∨ boltSound s →
     let lost := fun (k : Nat) => k < n ∧ (k ∈ s.dev.scanA ∨ k ∈ r.badA) ∧ (k ∈ s.dev.scanB ∨ k ∈ r.badB)
     (∃ k, lost k) → ∃ t f, exec (.scanDone r) s = .next t ∧ lost f ∧ t.dev.suspect = some (9, f)) ∧
   (∀ (s : State) (r : ScanResult) (l n : Nat) (pat : List (Nat × Byte)), (scanKind s.dev.work).map Prod.snd = some 535 →
     s.health.errors = [(l, pat)] → s.health.poison = [] → boltBase ≤ 64 * l → eccDecode pat = .corrected n →
     let k := unitKey (unitOf (64 * l))
     ∃ t, exec (.scanDone r) s = .next t ∧ (memUnitOf t k).corrected = sat32 ((memUnitOf s k).corrected + 1) ∧
       (memUnitOf t k).symbols = sat32 ((memUnitOf s k).symbols + n)) ∧
   (∀ s : State, s.dev.st = .spare → ∃ t, exec .spareScan s = .next t ∧ sideOnly s t ∧ t.dev.st = .spare ∧
     (s.dev.work = .none → t.dev.work = .spareScan) ∧ (s.dev.work ≠ .none → t = s)))

/-- R20, R327, R331, R344, R376: CLEAR_SIGNED files one clear record with the next number. After a job the device is
READY (SPARE after a fill), and every waiting JOB_END is answered with the final energy count; after a drain it is
DRAINED and no longer suspect; after a reset it is READY. R321, R322, R326, R367: THIMBLE_LOCKSTEP restarts both cores from ROM; an image that
verifies runs and records cause 6 unless another came first, and a device in service without held cases drains at once; with no
such image the ROM is in recovery, the compute rails off. What else the restart loses is the model's choice (log entry 62). -/
def Obligations.ClearSignedAndLockstep : Prop :=
  (∀ (s : State), s.dev.work = .jobSign ∨ s.dev.work = .drainSign ∧ s.dev.signDue = false ∨ s.dev.work = .resetSign →
     ∃ t r, exec .clearSigned s = .next t ∧ (sound s ∨ s.dev.work = .drainSign → t.mem = s.mem) ∧
       t.dev.clearSeq = s.dev.clearSeq + 1 ∧
       t.dev.clears.getLast? = some r ∧ r.seq = s.dev.clearSeq + 1 ∧ r.clearOk = s.dev.clearOk ∧
       r.scanOk = s.dev.scan.fails.isEmpty ∧ r.baseDigest = baseDigestOf s ∧
       (s.dev.work = .jobSign → r.kind = 0 ∧ r.energy = energyCount s ∧ r.pkgDigest = s.dev.endDigest ∧
         (sound s → t.dev.st = (if s.dev.fromFill then .spare else .ready) ∧
           ∀ m ∈ boxesAt s .jobEnd, (boxOf s m).orphan = false → answered s t m .ok (leBytes 8 (energyCount s)))) ∧
       (s.dev.work = .drainSign → r.kind = 1 ∧ t.dev.st = .drained ∧ sound t ∧ t.dev.work = .none) ∧
       (s.dev.work = .resetSign → r.kind = 2 ∧ r.energy = 0 ∧ r.pkgDigest = 0 ∧
         (sound s → t.dev.st = .ready ∧ t.dev.lostJob = false))) ∧
  (∀ (s : State), s.pins.v72 = true → s.pins.resetLow = false →
     (slotOk s.fw 0 = true ∨ slotOk s.fw 1 = true → ∃ t, exec .thimbleLockstep s = .next t ∧
       t.dev.suspect = some (s.dev.suspect.getD (6, 0xFFFF)) ∧ t.pins.verified = true ∧ t.fw.running.isSome = true ∧
       (∀ m, boxOf t m = {}) ∧ t.mgmt.rings = [] ∧ t.mgmt.txn.st = .idle ∧ t.host.half = [] ∧ t.power.fallback = true ∧
       t.therm.fresh = false ∧
       (s.dev.st = .ready ∨ s.dev.st = .running ∨ s.dev.st = .spare ∨ s.dev.st = .filling → heldCases s = false →
         t.dev.st = .draining ∧ t.job.pkg = none)) ∧
     (slotOk s.fw 0 = false → slotOk s.fw 1 = false → ∃ t, exec .thimbleLockstep s = .next t ∧ t.fw.recovery = true ∧
       t.dev.st = .standby ∧ railsDown t ∧ t.dev.suspect = s.dev.suspect))

/-- R261, R262, R265, R268, R269, R271: a power window adds its energy, sets the idle duty by the limit of R268, and
the next window begins with an accepted budget. CAP_UNMET and BUDGET_EXPIRED act on their conditions; an expired
budget leaves the fallback values in force and SEQ as it was. R287, R318: a window keeps the watch over the reported heat, and ends a
snapshot none of whose flows has been open for FLOW_TIMEOUT. That time passes with these windows alone is log entry 8. -/
def Obligations.PowerWindowResult : Prop :=
  (∀ (s : State) (p pCore vIn vCore : Nat), s.pins.v72 = true → boxesAt s .fitting = [] →
    (∀ n a, s.snap.snap = some n → snapFlows s n = [] → s.snap.starvedAt = some a →
      s.nowUs + 100 < a + 1000 * setting s 0x139 0) →
    let w := s.power
    let P := p * 1000
    let lim := limitOf w
    ∃ t, exec (.powerWindow p pCore vIn vCore) s = .next t ∧ t.mem = s.mem ∧ t.panels = s.panels ∧ t.nowUs = s.nowUs + 100 ∧
      t.power.lifetime = w.lifetime + p ∧ t.job.energy = (if s.job.counting then s.job.energy + p else s.job.energy) ∧
      t.job.pkg = s.job.pkg ∧ t.power.telem = (vIn, vCore) ∧ t.power.seq = w.seq ∧ t.power.grade = w.grade ∧
      (lim < P → t.power.q = min 63 (w.q + ceilDiv (64 * (P - lim)) P)) ∧
      (P ≤ lim → 98 * lim ≤ 100 * P → t.power.q = w.q) ∧
      (P ≤ lim → 100 * P < 98 * lim → t.power.q = if w.under + 1 = 2 then w.q - 1 else w.q) ∧
      t.power.capWindows = (if 0 < w.q then sat32 (w.capWindows + 1) else w.capWindows) ∧
      (∀ so ha, w.next = some (so, ha) → t.power.soft = so ∧ t.power.hard = ha ∧ t.power.next = none) ∧
      (w.next = none → w.fallback = false → t.power.soft = w.soft ∧ t.power.hard = w.hard) ∧
      t.power.rampRate = setting s 0x140 0 ∧ t.power.rampHold = setting s 0x141 0 ∧
      (let heat : Int := s.therm.flow * 697 * ((s.therm.tOut : Int) - s.therm.tIn)
       let in_ : Int := p * 100000
       t.therm.skewSince = if s.therm.tOut ≠ 0 ∧ s.therm.flow ≠ 0 ∧ 1500 ≤ p ∧ 3 * in_ < 10 * (heat - in_).natAbs then
         some (s.therm.skewSince.getD (s.nowUs + 100)) else none)) ∧
  (∀ (s : State) (p pCore vIn vCore a : Nat) (n : Snap), s.pins.v72 = true → boxesAt s .fitting = [] →
    s.snap.snap = some n → snapFlows s n = [] → s.snap.starvedAt = some a → a + 1000 * setting s 0x139 0 ≤ s.nowUs + 100 →
    ∃ t, exec (.powerWindow p pCore vIn vCore) s = .next t ∧ t.snap.snap = none ∧ t.snap.failed = true ∧ t.snap.guarded = []) ∧
  (∀ s : State, 100 ≤ s.power.unmetRun → s.power.lastLimit < s.power.lastP * 1000 →
    ∃ t, exec .capUnmet s = .next t ∧ sideOnly s t ∧ t.power.capUnmet = true ∧ bitOf t.mgmt.causes 0 = true ∧ logsLast s t srcThimble .capUnmet [s.power.lastP, s.power.lastLimit / 1000]) ∧
  (∀ s : State, (∀ a, s.power.accepted = some a → s.nowUs < a + 1000 * s.power.hold) → exec .budgetExpired s = .next s) ∧
  (∀ (s : State) (a : Nat), s.power.hold ≠ 0 → s.power.fallback = false → s.power.accepted = some a →
    a + 1000 * s.power.hold ≤ s.nowUs → ∃ t, exec .budgetExpired s = .next t ∧ sideOnly s t ∧
    t.power.soft = setting s 0x142 0 ∧ t.power.hard = setting s 0x143 0 ∧ t.power.hold = 0 ∧ t.power.fallback = true ∧
    t.power.seq = s.power.seq ∧ t.power.grade = s.power.grade)

/-- R282, R284, R285, R291: a sensor sample sets T_j. From 95 °C it raises q_therm by 4, below 93 °C it lowers it by
1; from 105 °C the device is in the forced state at G1 and q_therm 63; from 115 °C it trips: THERM_TRIP_N, rails off,
SAFE, the event and the record in flash. R283: the sample keeps the watch over each pair it reads: since when the two have differed
by more than 6 °C and 15 °C, and since when they have not. A device that has tripped does not trip again (log entry 55). -/
def Obligations.SensorSampleResult : Prop :=
  ∀ (s : State) (rs : List SensorRead), s.pins.v72 = true → s.pins.resetLow = false → let v := takeReadings s rs
    (junction { s.therm with sensors := v } = none →
      ∃ t, exec (.sensorSample rs) s = .next t ∧ sideOnly s t ∧ t.dev = s.dev ∧ t.therm.sensors = v ∧ t.therm.tj = s.therm.tj ∧
        t.therm.q = s.therm.q) ∧
    (∀ tj q, junction { s.therm with sensors := v } = some (tj, q) → ∃ t, exec (.sensorSample rs) s = .next t ∧
      t.therm.sensors = v ∧ t.therm.tj = tj ∧ t.therm.tjPanel = q ∧
      (tj < 1150 → t.mem = s.mem ∧ t.job = { s.job with stepForced := t.job.stepForced } ∧ t.panels = s.panels ∧ t.dev = s.dev) ∧
      (930 ≤ tj → tj < 950 → t.therm.q = s.therm.q) ∧
      (tj < 930 → t.therm.q = s.therm.q - 1) ∧
      (950 ≤ tj → tj < 1050 → t.therm.q = min 63 (s.therm.q + 4)) ∧
      (950 ≤ tj → bitOf t.mgmt.causes 1 = true) ∧ (850 ≤ tj → t.therm.coolSince = none) ∧
      (1050 ≤ tj → t.therm.q = 63 ∧ t.therm.forced = true ∧ (s.therm.forced = false → t.power.grade = 1)) ∧
      (1150 ≤ tj → s.pins.tripped = false → t.dev.st = .safe ∧ t.pins.tripped = true ∧ railsDown t ∧
        t.therm.trip = some (q, tj, [s.therm.seq, s.therm.tIn, s.therm.tOut, s.therm.flow]) ∧
        t.mgmt.log.getLast?.map (fun e => (e.source, e.code, e.args)) = some (srcThimble, .thermTrip,
          [q, (tj % 2 ^ 32).toNat, s.therm.seq, s.therm.tIn, s.therm.tOut, s.therm.flow])) ∧
      (∀ r ∈ rs, ∀ n a b, r.sensor / 2 = n → n < 256 → tabGet none v (2 * n) = some a → tabGet none v (2 * n + 1) = some b →
        let w := tabGet {} s.therm.skews n
        let u := tabGet {} t.therm.skews n
        (60 < (a - b).natAbs → u.high = some (w.high.getD s.nowUs) ∧ u.low = none ∧ u.told = w.told) ∧
        (150 < (a - b).natAbs → u.wide = some (w.wide.getD s.nowUs)) ∧ ((a - b).natAbs ≤ 150 → u.wide = none) ∧
        ((a - b).natAbs ≤ 60 → u.high = none ∧ u.low = some (w.low.getD s.nowUs) ∧
          u.told = (w.told && decide (s.nowUs < w.low.getD s.nowUs + 1000000)))))

/-- R283, R287, R291: skewed and suspect pairs, the end of the forced state, stale and skewed reports. Each acts once its
condition has lasted its time (1 s, 10 s, COOL_LEASE, 60 s), SENSOR_SKEW and COOL_REPORT_SKEW once for each such time, and on
nothing of memory, job or links. -/
def Obligations.ThermalEventsResult : Prop :=
  ∀ (s : State) (q : Nat),
    (∀ a b, tabGet none s.therm.sensors (2 * q) = some a → tabGet none s.therm.sensors (2 * q + 1) = some b →
      let w := tabGet {} s.therm.skews q
      (w.told = true ∨ w.high = none → exec (.sensorSkew q) s = .next s) ∧
      ∀ x, w.high = some x → x + 1000000 < s.nowUs → w.told = false → ∃ t, exec (.sensorSkew q) s = .next t ∧ sideOnly s t ∧
        t.therm = { s.therm with skew := true, skewEvents := sat32 (s.therm.skewEvents + 1)
                                 skews := tabPut s.therm.skews q { w with told := true } } ∧
        logsLast s t srcThimble .sensorSkew [q, (a % 2 ^ 32).toNat, (b % 2 ^ 32).toNat]) ∧
    (tabFind s.therm.sensors (2 * q) = some none ∨ tabFind s.therm.sensors (2 * q + 1) = some none ∨
      (∃ x, (tabGet {} s.therm.skews q).wide = some x ∧ x + 1000000 < s.nowUs) → q ∉ s.therm.suspects → ∃ t, exec (.sensorSuspect q) s = .next t ∧ sideOnly s t ∧
      t.therm = { s.therm with suspects := s.therm.suspects ++ [q] } ∧ t.dev = { s.dev with service := true } ∧
      bitOf t.mgmt.causes 3 = true ∧ logsLast s t srcThimble .sensorSuspect []) ∧
    (s.therm.coolSince = none → exec .forcedStateEnd s = .next s) ∧
    (∀ x, s.therm.forced = true → s.therm.coolSince = some x → x + 10000000 ≤ s.nowUs →
      ∃ t, exec .forcedStateEnd s = .next t ∧ sideOnly s t ∧ t.therm = { s.therm with forced := false } ∧
        (s.therm.q = 0 → bitOf t.mgmt.causes 1 = false) ∧ (s.therm.q ≠ 0 → t.mgmt = s.mgmt)) ∧
    (∀ x, s.therm.fresh = true → s.therm.accepted = some x → x + setting s 0x154 0 * 1000000 ≤ s.nowUs →
      ∃ t, exec .coolStale s = .next t ∧ sideOnly s t ∧ t.therm = { s.therm with fresh := false } ∧
      bitOf t.mgmt.causes 2 = true ∧ logsLast s t srcThimble .coolStale []) ∧
    (s.therm.skewSince = none ∨ s.therm.skewTold = true → exec .coolReportSkew s = .next s) ∧
    (∀ x, s.therm.skewSince = some x → x + 60000000 ≤ s.nowUs → s.therm.skewTold = false →
      ∃ t, exec .coolReportSkew s = .next t ∧ sideOnly s t ∧ t.therm = { s.therm with skewTold := true } ∧
      t.dev = s.dev ∧ t.mgmt.causes = s.mgmt.causes ∧ logsLast s t srcThimble .coolReportSkew [])

/-- R288: once a second θ_est moves by a sixtieth of its distance from θ_inst, when the report is fresh, the second's
mean input power at least 150 W and every 100 ms mean within ±5 %; in any other second it does not change. The
means are those of the device's own windows and samples (log entry 59). At power-on it holds THETA_NOM. -/
def Obligations.ThetaRule : Prop :=
  (∀ (s : State) (x : Nat) (y : Int) (z : Bool), s.pins.v72 = true → s.pins.resetLow = false →
    let sum := s.therm.means.foldl (· + ·) 0
    let forms := s.therm.fresh = true ∧ 15000 ≤ sum ∧ s.therm.means.length = 10 ∧
      (∀ m ∈ s.therm.means, 20 * (10 * m - sum) ≤ sum ∧ 20 * (sum - 10 * m) ≤ sum) ∧ 0 < s.therm.tjN
    (forms → ∃ t, exec (.thetaUpdate x y z) s = .next t ∧ sideOnly s t ∧ t.dev = s.dev ∧ t.therm.theta = s.therm.theta +
        (((s.therm.tjSum : Rat) / (s.therm.tjN : Rat) / 10 - (s.therm.tIn : Rat) / 100) / ((sum : Rat) / 100)
          - s.therm.theta) / 60 ∧ t.therm.tjSum = 0 ∧ t.therm.tjN = 0) ∧
    (¬ forms → exec (.thetaUpdate x y z) s = .next { s with therm := { s.therm with tjSum := 0, tjN := 0 } })) ∧
  (∀ (s : State) (bad : List Nat), s.pins.v72 = true → s.pins.resetLow = false → s.pins.verified = false →
    s.fw.recovery = false → s.dev.st = .standby → s.fw.repair = false → s.fw.fallback = false →
    slotOk s.fw s.fw.active = true → (∀ i, slotImage s.fw s.fw.active = some i → i.recovery = false) → bad = [] →
    ∃ t, exec (.firmwareVerify bad) s = .next t ∧ t.therm.theta = thetaStart s.mgmt.flash) ∧
  State.reset.therm.theta = thetaStart []

/-- R173, R275, R276: a pinch is counted and holds a clock switch back; its end, or a new one while the voltage is
still low; the rate of pinches, those that the
state counts in the last second (log entry 59); a deferred switch that begins, or is cancelled and keeps the old clock; a clock trim. -/
def Obligations.PinchAndClockResult : Prop :=
  ∀ (s : State) (h count : Nat), let live := (hubOf s h).pinchTimes.filter (fun x => decide (s.nowUs < x + 1000000))
    (h < 16 → (hubOf s h).pinched = false → ∃ t, exec (.pinch h) s = .next t ∧ sideOnly s t ∧ t.shut = s.shut ∧
      hubOf t h = { hubOf s h with pinched := true, pinchTimes := s.nowUs :: live } ∧ (∀ k, k ≠ h → hubOf t k = hubOf s k) ∧
      t.power = { s.power with pinches := sat32 (s.power.pinches + 1), quiet := false }) ∧
    ((hubOf s h).pinched = true → s.power.switching = none →
      (∃ t, exec (.pinchEnd h false) s = .next t ∧ sideOnly s t ∧ hubOf t h = { hubOf s h with pinched := false } ∧
        t.power = s.power) ∧
      ∃ t, exec (.pinchEnd h true) s = .next t ∧ sideOnly s t ∧
        hubOf t h = { hubOf s h with pinched := true, pinchTimes := s.nowUs :: live } ∧
        t.power = { s.power with pinches := sat32 (s.power.pinches + 1), quiet := false }) ∧
    (live.length ≤ s.power.pinchWarn → exec (.pinchRate h count) s = .next s) ∧
    (s.power.pinchWarn < live.length → ∃ t, exec (.pinchRate h count) s = .next t ∧ sideOnly s t ∧
      bitOf t.mgmt.causes 0 = true ∧
      ((∀ a, s.power.pinchTold = some a → a + 1000000 ≤ s.nowUs) → logsLast s t srcThimble .pinchRate [h, live.length] ∧
        t.power = { s.power with pinchTold := some s.nowUs, pinchAlert := some s.nowUs }) ∧
      (∀ a, s.power.pinchTold = some a → s.nowUs < a + 1000000 → t.mgmt.log = s.mgmt.log ∧
        t.power = { s.power with pinchAlert := some s.nowUs })) ∧
    (∀ o n us, s.power.switching = some (o, n, us) →
      (anyPinch s = false → ∃ t, exec .clockSwitch s = .next t ∧ sideOnly s t ∧ t.power.grade = n ∧
        t.power.switching = none ∧ t.power.vset = vSet s n ∧ t.shut.gswPhys = sat32 (s.shut.gswPhys + 256) ∧
        t.shut.addr = s.shut.addr ∧ t.shut.variant = s.shut.variant) ∧
      (o < n → ∃ t, exec .gradeDeferred s = .next t ∧ sideOnly s t ∧ t.shut = s.shut ∧
        t.power = { s.power with switching := none, vset := vSet s o, deferred := true, stay := some o } ∧
        logsLast s t srcThimble .gradeDeferred [o, n])) ∧
    (∃ t, exec (.clockTrim h) s = .next t ∧ sideOnly s t ∧ t.power = s.power ∧ t.shut = s.shut ∧
      logsLast s t srcThimble .clockTrim [h])

/-- R331, R366, R367, R383, R387: 72 V brings up the housekeeping rail and STANDBY, unless the overcurrent latch
holds, and samples the straps; SB_RX held low forces recovery (R392, R393). FIRMWARE_VERIFY runs the active slot if it verifies, else the other, which then also replaces the bad one,
else the ROM is in recovery; step 4 follows as soon as PWR_EN is asserted: the rails come up in their order, and the straps are sampled again. -/
def Obligations.FirmwareStartResult : Prop :=
  ∀ (s : State) (k : PowerUp) (bad : List Nat),
    (s.pins.v72 = false → s.pins.latch = true → exec (.power72vPresent k) s =
      .next { s with pins := { s.pins with straps := k.slotId, sbRx := !k.sbRxLow } }) ∧
    (s.pins.v72 = false → s.pins.latch = false → ∃ t, exec (.power72vPresent k) s = .next t ∧ sideOnly s t ∧
      t.pins = { s.pins with v72 := true, slotId := k.slotId, straps := k.slotId, startup := 1, sbTx := true, sbRx := !k.sbRxLow } ∧
      t.fw = { s.fw with recovery := k.sbRxLow && !s.pins.resetLow } ∧
      t.dev.st = (if s.pins.resetLow then .boot else .standby)) ∧
    (s.pins.v72 = true → s.pins.resetLow = false → s.pins.verified = false → s.fw.recovery = false →
      s.dev.st = .standby → let a := s.fw.active
      ∃ t, exec (.firmwareVerify bad) s = .next t ∧ sideOnly s t ∧
        (slotOk s.fw a = true ∨ slotOk s.fw (1 - a) = true → t.pins.verified = true ∧ t.fw.recovery = false ∧
          (s.pins.pwrEn = true → s.pins.railsOff = false → t.dev.st = .boot ∧ t.pins.startup = 4 ∧ t.power.grade = 1 ∧
            t.pins.rails = [.vser, .vdd1, .vdd2h, .vdd2l, .vddq, .vsram, .vcore] ∧ t.pins.slotId = s.pins.straps) ∧
          (s.pins.pwrEn = false ∨ s.pins.railsOff = true → t.dev.st = .standby ∧ t.pins.startup = 3)) ∧
        (slotOk s.fw a = true → t.fw.running = some a ∧ t.fw.active = a ∧ t.fw.trial = s.fw.trial) ∧
        (slotOk s.fw a = false → slotOk s.fw (1 - a) = true → t.fw.running = some (1 - a) ∧ t.fw.active = 1 - a ∧
          t.fw.trial = false ∧ slotImage t.fw a = slotImage s.fw (1 - a)) ∧
        (slotOk s.fw a = false → slotOk s.fw (1 - a) = false → t.fw.recovery = true ∧ t.fw.running = s.fw.running ∧
          t.dev.st = .standby)) ∧
    (∃ t, exec .pwrEnAssert s = .next t ∧ sideOnly s t ∧ t.pins.pwrEn = true ∧
      (mayBoot { s with pins := { s.pins with pwrEn := true } } → s.pins.verified = true → s.dev.st = .standby →
        t.dev.st = .boot ∧ t.pins.startup = 4 ∧ t.pins.rails = [.vser, .vdd1, .vdd2h, .vdd2l, .vddq, .vsram, .vcore] ∧
        t.pins.slotId = s.pins.straps) ∧
      (s.pins.verified = false ∨ s.dev.st ≠ .standby → t.dev = s.dev ∧ t.pins.startup = s.pins.startup))

/-- R201, R202, R205, R207, R223, R327, R328, R331, R383: the steps 4 to 9 of start-up, each only after the one before. A
channel that fails, a listed LPDDR5X row for which its channel has no repair, and a failing or listed bolt row beyond the 32
spares of its layer set the replacement flag. Training starts from the saved values, at first from the factory's base (R351); one
without failure saves its values in flash. Step 7 ends when no port is in TRAINING, step 8 when none is LINKED and not FITTED or
t_fit has passed. Start-up ends in READY, in DRAINED with the flag, in the clearing of a lost
job, or after HIBERNATE in the state it was entered from. -/
def Obligations.StartUpResult : Prop :=
  ∀ (s : State) (k : Nat) (failed repaired values slices layers : List Nat),
    (s.dev.st = .boot → s.pins.startup = 4 → exec (.pwrGood k) s = .next { s with
      pins := { s.pins with pwrGood := true, startup := 5, straps := k } }) ∧
    (s.dev.st = .boot → s.pins.startup = 5 → runsRecovery s = false → let rows := listedChannels s
      ∃ t, exec (.lpddrTraining failed repaired values) s = .next t ∧ sideOnly s t ∧ t.pins = { s.pins with startup := 6 } ∧
        t.dev = { s.dev with replace := s.dev.replace || !failed.isEmpty ||
                                        rows.any (fun c => decide (repaired.count c < rows.count c)) } ∧
        t.health.trainFrom = (if s.health.training = [] then (List.range 128).map trainingBase else s.health.training) ∧
        t.health.training = (if failed = [] then values else s.health.training) ∧
        ∀ c, c < 128 → (c ∉ failed → (memUnitOf t (256 + c)).trained = true) ∧
          (rows.length ≤ 1024 → (memUnitOf t (256 + c)).sparesUsed = min (rows.count c) (repaired.count c))) ∧
    (s.dev.st = .boot ∨ s.dev.st = .hibernate → s.pins.startup = 6 → let rows := slices.zip layers ++ listedLayers s
      ∃ t, exec (.boltSelfTest slices layers) s = .next t ∧ t.mem = s.mem ∧ t.job = s.job ∧
        t.pins = { s.pins with startup := 7, trainedAt := none } ∧
        t.dev = { s.dev with replace := s.dev.replace || rows.any (fun r => decide (32 < rows.count r)) } ∧
        ∀ q, q < 12 → portOf t q = { st := .training, stat := (portOf s q).stat }) ∧
    (∀ port nonce, s.pins.startup = 7 → boxesAt s .fitting = [] → (portOf s port).st = .training →
      (∀ q, q < 12 → q ≠ port → (portOf s q).st ≠ .training) →
      ∃ t, exec (.linkTraining port ⟨fullWidth port, false⟩ nonce) s = .next t ∧ (portOf t port).st = .linked ∧
        t.pins = { s.pins with startup := 8, trainedAt := some s.nowUs }) ∧
    (s.pins.startup = 8 → (∃ q, q < 12 ∧ (portOf s q).st = .linked) →
      (∀ x, s.pins.trainedAt = some x → s.nowUs < x + 5000000) → exec .startUpComplete s = .next s) ∧
    (s.pins.startup = 8 → (∀ q, q < 12 → (portOf s q).st ≠ .linked) ∨
        (∃ x, s.pins.trainedAt = some x ∧ x + 5000000 ≤ s.nowUs) → s.dev.st = .boot ∨ s.dev.st = .hibernate →
      ∃ t, exec .startUpComplete s = .next t ∧ t.pins.startup = 9 ∧ t.pins.upAt = some s.nowUs ∧
        (sound s → t.mem = s.mem ∧ t.health.scrubbing = !(s.dev.st == .boot && !s.dev.replace && s.dev.lostJob) ∧
          (s.dev.st = .hibernate → t.dev.st = (if s.dev.hibSpare then .spare else .ready)) ∧
          (s.dev.st = .boot → (s.dev.replace = true → t.dev.st = .drained) ∧
            (s.dev.replace = false → s.dev.lostJob = true → t.dev.work = .resetClear ∧ t.dev.st = .boot) ∧
            (s.dev.replace = false → s.dev.lostJob = false → t.dev.st = .ready))) ∧
        (s.dev.st = .boot → heldCases s = false → (drainCause s).isSome = true → t.dev.st = .draining))

/-- R331, R378, R385, R386, R393: removing PWR_EN, a reset, a rail fault and a trial that does not finish each take
the compute rails away and restart the Thimble; a second rail fault within 60 s keeps the rails off and raises
DEVICE. A pulse on RESET_N shorter than 10 µs does nothing (log entry 15); a longer one enters BOOT and samples the straps (R392). -/
def Obligations.ResetAndRailsResult : Prop :=
  ∀ (s : State) (us k : Nat) (sb : Bool),
    (s.pins.v72 = true → s.pins.resetLow = false → s.dev.st ≠ .standby → ∃ t, exec .pwrEnRemove s = .next t ∧
      restarted s t .standby ∧ t.pins.pwrEn = false) ∧
    (s.pins.v72 = false ∨ s.pins.resetLow = true →
      exec .pwrEnRemove s = .next { s with pins := { s.pins with pwrEn := false } }) ∧
    (us < 10 → exec (.resetNAssert ⟨us, k⟩) s = .next { s with pins := { s.pins with straps := k } }) ∧
    (10 ≤ us → s.pins.v72 = false ∨ s.pins.resetLow = true →
      exec (.resetNAssert ⟨us, k⟩) s = .next { s with pins := { s.pins with straps := k, resetLow := true } }) ∧
    (10 ≤ us → s.pins.v72 = true → s.pins.resetLow = false → ∃ t, exec (.resetNAssert ⟨us, k⟩) s = .next t ∧
      restarted s t .boot ∧ t.pins.resetLow = true ∧ t.pins.slotId = k ∧ t.dev.lostJob = (s.dev.lostJob || losesJob s)) ∧
    (s.pins.resetLow = true → s.pins.v72 = true → ∃ t, exec (.resetNRelease sb) s = .next t ∧ sideOnly s t ∧
      t.pins = { s.pins with resetLow := false, sbRx := !sb } ∧ t.dev.st = .standby ∧ t.fw.recovery = sb) ∧
    (s.pins.pwrGood = true → ∃ t, exec .railFault s = .next t ∧ t.pins.railFault = some s.nowUs ∧ t.dev.st = .standby ∧
      railsDown t ∧ t.fw.running = none ∧
      ((∃ a, s.pins.railFault = some a ∧ s.nowUs < a + 60000000) → t.pins.railsOff = true ∧ bitOf t.mgmt.causes 7 = true) ∧
      ((∀ a, s.pins.railFault = some a → a + 60000000 ≤ s.nowUs) → t.pins.railsOff = false ∧ t.mgmt.causes = 0)) ∧
    (s.fw.trial = true → s.fw.running = some s.fw.active → s.dev.st = .boot → s.pins.resetLow = false →
      ∃ t, exec .trialTimeout s = .next t ∧ restarted s t .standby ∧ t.fw.active = 1 - s.fw.active ∧ t.fw.trial = false)

/-- R331, R387, R389: the removal of 72 V, an undervoltage and an overvoltage leave the module OFF with its flash,
fuses and queue; an overcurrent also latches, until the latch is released. R379: a recovery frame with a wrong CRC
changes nothing but the answer 0x15; a right one that does not complete the image is stored and answered 0x06. R352,
R394: the test access port. IDCODE selects 0x1A90_94C7; SAMPLE_PRELOAD preloads the boundary register and drives no
pin; EXTEST drives the pins while its setting is 1, and acts as BYPASS otherwise. That BYPASS captures 0, and that TDO carries the register's first bit, is PRESUMED
(log entry 7). Without 72 V no instruction acts. -/
def Obligations.RecoveryAndTestPort : Prop :=
  (∀ (s : State) (bs : List Byte) (crc : Nat),
     (s.pins.v72 = true → ∀ c ∈ [Instr.undervoltage, .overvoltage, .power72vRemoved], ∃ t, exec c s = .next t ∧
       moduleOff s t ∧ t.pins.latch = s.pins.latch) ∧
     (s.pins.v72 = true → ∃ t, exec .overcurrent s = .next t ∧ moduleOff s t ∧ t.pins.latch = true) ∧
     (s.pins.latch = true →
       exec .overcurrentLatchRelease s = .next { s with pins := { s.pins with latch := false } }) ∧
     (s.pins.v72 = true → s.pins.resetLow = false → s.fw.recovery = true → let n := s.fw.received + bs.length
       (crc32 bs ≠ crc ∨ 0x800000 < n →
         exec (.recoveryFrame bs crc) s = .next { s with fw := { s.fw with answer := some 0x15 } }) ∧
       (crc32 bs = crc → n ≤ 0x800000 → let buf := memPut s.fw.recBuf s.fw.received bs
         ∃ t, exec (.recoveryFrame bs crc) s = .next t ∧ sideOnly s t ∧ t.fw.answer = some 0x06 ∧
           (n < leNat (memBytes buf 8 4) →
             t = { s with fw := { s.fw with recBuf := buf, received := n, answer := some 0x06 } }) ∧
           (leNat (memBytes buf 8 4) ≤ n → let i := readImage (memBytes buf 0 n)
             (imageFault s.fw i = none → i.recovery = true → i.len ≤ 0x800000 → t.fw.slotA = some i ∧
               t.fw.running = some 0 ∧ t.fw.recovery = false ∧ t.pins.verified = true) ∧
             ((imageFault s.fw i).isSome = true ∨ i.recovery = false → t.fw.slotA = s.fw.slotA ∧ t.fw.received = 0 ∧
               t.fw.recovery = true))))) ∧
  (∀ (s : State) (bits : Nat),
     (s.pins.v72 = false → ∀ c ∈ [Instr.idcode, .bypass, .samplePreload bits, .extest bits], exec c s = .next s) ∧
     (s.pins.v72 = true →
       exec .idcode s = .next { s with pins := { s.pins with tapIr := 1, tapDr := 0x1A9094C7, driven := false, tdo := true } } ∧
       exec .bypass s = .next { s with pins := { s.pins with tapIr := 0, tapDr := 0, driven := false, tdo := false } } ∧
       (∃ t, exec (.samplePreload bits) s = .next t ∧ sideOnly s t ∧
         { t.pins with tapDr := 0, tdo := false } = { s.pins with tapIr := 2, boundary := bits, driven := false, tapDr := 0, tdo := false } ∧
         t.pins.tdo = bitOf t.pins.tapDr 0) ∧
       (setting s 0x172 0 = 1 → ∃ t, exec (.extest bits) s = .next t ∧ sideOnly s t ∧
         { t.pins with tapDr := 0, tdo := false } = { s.pins with tapIr := 3, boundary := bits, driven := true, tapDr := 0, tdo := false } ∧
         t.pins.tdo = bitOf t.pins.tapDr 0) ∧
       (setting s 0x172 0 ≠ 1 → exec (.extest bits) s = exec .bypass s)))

/-- A step takes the command at the front of the queue and runs it with the rest of the queue. An empty queue idles
(log entry 11, a choice of the model). -/
def Obligations.StepRunsFront : Prop :=
  (∀ (c : Instr) (s : State), step { s with pending := c :: s.pending } = exec c s) ∧
  (∀ s : State, s.pending = [] → step s = .next s)

/-- Every step that answers a next state leaves the queue without its front command: no command adds, drops or
reorders one that waits. -/
def Obligations.StepKeepsQueue : Prop :=
  ∀ s t : State, step s = .next t → t.pending = s.pending.tail

/-- Every step keeps memory in its canonical form: addresses rise strictly, and no listed byte is 0, what an unlisted
one reads as (log entry 1). -/
def Obligations.StepKeepsMemoryForm : Prop :=
  ∀ s t : State, Memory.wf s.mem = true → step s = .next t → Memory.wf t.mem = true

/-- R91, R117, R132, R157, R167, R183, R203, R223, R235, R251, R256, R265, R278, R287, R288, R331, R334, R346, R349,
R355, R358, R359: the values that the spec gives for reset, and a memory in canonical form. -/
def Obligations.ResetValues : Prop :=
  let s := State.reset
  Memory.wf s.mem = true ∧ s.pending = [] ∧ s.dev.st = .off ∧ s.pins.pwrGood = false ∧ s.pins.alert = false ∧
    s.job.pkg = none ∧ s.job.step = 0 ∧ s.shut.micro = 0xFFFF ∧ s.shut.ctrs = [0, 0, 0, 0] ∧ s.shut.cycles = 0 ∧
    (∀ q, (panelOf s q).mat = {} ∧ (panelOf s q).ndl = {} ∧ (panelOf s q).spool.stat = {} ∧ (panelOf s q).queue = []) ∧
    (∀ q, (portOf s q).st = .off ∧ (portOf s q).stat = {}) ∧ (∀ h, (hubOf s h).checks = 0 ∧ (hubOf s h).cases = []) ∧
    (∀ u, (memUnitOf s u).corrected = 0) ∧ (∀ e, (hostPortOf s e).stat.rxFrames = 0) ∧ s.host.slots = [] ∧
    (∀ m, (boxOf s m).st = .free) ∧ s.mgmt.txn.st = .idle ∧ s.mgmt.log = [] ∧ s.mgmt.causes = 0 ∧ s.mgmt.markNext = 1 ∧
    s.power.seq = 0 ∧ s.power.soft = 5600 ∧ s.power.hard = 8000 ∧ s.power.grade = 1 ∧ s.therm.q = 0 ∧
    s.therm.fresh = false ∧ s.therm.theta = 8 / 100 ∧ setting s 0x120 0 = 4096 ∧ setting s 0x130 0 = 9216 ∧
    setting s 0x171 0 = 0xFF
end

