-- ==== Sys2Proof/Laws/Exec.lean ====
section
/-! SUPPORT. One equation for each command: exec is a call of its meaning. -/

namespace Sys2Proof.Machine

theorem exec_prod (x : SlotRef) (s : State) : exec (.prod x) s = execProd x s := rfl
theorem exec_fold (x : SlotRef) (s : State) : exec (.fold x) s = execFold x s := rfl
theorem exec_chain (x : SlotRef) (s : State) : exec (.chain x) s = execChain x s := rfl
theorem exec_rclr (x : SlotRef) (s : State) : exec (.rclr x) s = execRclr x s := rfl
theorem exec_rfinMean (x : SlotRef) (s : State) : exec (.rfinMean x) s = execRfinMean x s := rfl
theorem exec_rfinRms (x : SlotRef) (s : State) : exec (.rfinRms x) s = execRfinRms x s := rfl
theorem exec_rfinLse (x : SlotRef) (s : State) : exec (.rfinLse x) s = execRfinLse x s := rfl
theorem exec_rfinRmsb (x : SlotRef) (s : State) : exec (.rfinRmsb x) s = execRfinRmsb x s := rfl
theorem exec_rfinSample (x : SlotRef) (s : State) : exec (.rfinSample x) s = execRfinSample x s := rfl
theorem exec_rfinPick (x : SlotRef) (s : State) : exec (.rfinPick x) s = execRfinPick x s := rfl
theorem exec_rsave (x : SlotRef) (s : State) : exec (.rsave x) s = execRsave x s := rfl
theorem exec_rload (x : SlotRef) (s : State) : exec (.rload x) s = execRload x s := rfl
theorem exec_rchainSend (x : SlotRef) (s : State) : exec (.rchainSend x) s = execRchainSend x s := rfl
theorem exec_rchainRecv (x : SlotRef) (s : State) : exec (.rchainRecv x) s = execRchainRecv x s := rfl
theorem exec_copy (x : MovRef) (s : State) : exec (.copy x) s = execCopy x s := rfl
theorem exec_spush (x : MovRef) (s : State) : exec (.spush x) s = execSpush x s := rfl
theorem exec_spop (x : MovRef) (s : State) : exec (.spop x) s = execSpop x s := rfl
theorem exec_apply (x : MovRef) (s : State) : exec (.apply x) s = execApply x s := rfl
theorem exec_coll (x : MovRef) (s : State) : exec (.coll x) s = execColl x s := rfl
theorem exec_ingest (x : MovRef) (s : State) : exec (.ingest x) s = execIngest x s := rfl
theorem exec_ingestCopy (op : Nat) (s : State) : exec (.ingestCopy op) s = execIngestCopy op s := rfl
theorem exec_emit (x : MovRef) (s : State) : exec (.emit x) s = execEmit x s := rfl
theorem exec_note (x : MovRef) (s : State) : exec (.note x) s = execNote x s := rfl
theorem exec_moverCompletion (queue op : Nat) (s : State) : exec (.moverCompletion queue op) s = execMoverCompletion queue op s := rfl
theorem exec_syncRelease (mask : Nat) (phys : Nat) (s : State) : exec (.syncRelease mask phys) s = execSyncRelease mask phys s := rfl
theorem exec_syncLate (queue op : Nat) (s : State) : exec (.syncLate queue op) s = execSyncLate queue op s := rfl
theorem exec_jump (arg gap : Nat) (s : State) : exec (.jump arg gap) s = execJump arg gap s := rfl
theorem exec_loop (ctr arg gap : Nat) (s : State) : exec (.loop ctr arg gap) s = execLoop ctr arg gap s := rfl
theorem exec_setc (ctr arg gap : Nat) (s : State) : exec (.setc ctr arg gap) s = execSetc ctr arg gap s := rfl
theorem exec_halt (gap : Nat) (s : State) : exec (.halt gap) s = execHalt gap s := rfl
theorem exec_microSetZero  (s : State) : exec (.microSetZero) s = execMicroSetZero s := rfl
theorem exec_microAdd  (s : State) : exec (.microAdd) s = execMicroAdd s := rfl
theorem exec_microSetNone  (s : State) : exec (.microSetNone) s = execMicroSetNone s := rfl
theorem exec_pmark  (s : State) : exec (.pmark) s = execPmark s := rfl
theorem exec_grade (gp : Nat) (s : State) : exec (.grade gp) s = execGrade gp s := rfl
theorem exec_gradeRecipe (gp : Nat) (s : State) : exec (.gradeRecipe gp) s = execGradeRecipe gp s := rfl
theorem exec_stepOpen (gp entropy : Nat) (s : State) : exec (.stepOpen gp entropy) s = execStepOpen gp entropy s := rfl
theorem exec_fence (gp : Nat) (s : State) : exec (.fence gp) s = execFence gp s := rfl
theorem exec_stepClose (gp : Nat) (s : State) : exec (.stepClose gp) s = execStepClose gp s := rfl
theorem exec_idleStitch  (s : State) : exec (.idleStitch) s = execIdleStitch s := rfl
theorem exec_markLatch (mark cls unit : Nat) (s : State) : exec (.markLatch mark cls unit) s = execMarkLatch mark cls unit s := rfl
theorem exec_bankEmit (p : Nat) (s : State) : exec (.bankEmit p) s = execBankEmit p s := rfl
theorem exec_tilePush (e : PanelWait) (draw : Nat) (flt : List (Nat × W32)) (s : State) :
    exec (.tilePush e draw flt) s = execTilePush e draw flt s := rfl
theorem exec_chainHopArrival (e : PanelWait) (s : State) : exec (.chainHopArrival e) s = execChainHopArrival e s := rfl
theorem exec_headEntryArrival (p phys : Nat) (s : State) : exec (.headEntryArrival p phys) s = execHeadEntryArrival p phys s := rfl
theorem exec_chainComplete (p : Nat) (s : State) : exec (.chainComplete p) s = execChainComplete p s := rfl
theorem exec_nop (p : Nat) (a : NArgs) (s : State) : exec (.nop p a) s = execNop p a s := rfl
theorem exec_fadd (p : Nat) (a : NArgs) (s : State) : exec (.fadd p a) s = execFadd p a s := rfl
theorem exec_fsub (p : Nat) (a : NArgs) (s : State) : exec (.fsub p a) s = execFsub p a s := rfl
theorem exec_fmul (p : Nat) (a : NArgs) (s : State) : exec (.fmul p a) s = execFmul p a s := rfl
theorem exec_ffma (p : Nat) (a : NArgs) (s : State) : exec (.ffma p a) s = execFfma p a s := rfl
theorem exec_fmin (p : Nat) (a : NArgs) (s : State) : exec (.fmin p a) s = execFmin p a s := rfl
theorem exec_fmax (p : Nat) (a : NArgs) (s : State) : exec (.fmax p a) s = execFmax p a s := rfl
theorem exec_fabs (p : Nat) (a : NArgs) (s : State) : exec (.fabs p a) s = execFabs p a s := rfl
theorem exec_fneg (p : Nat) (a : NArgs) (s : State) : exec (.fneg p a) s = execFneg p a s := rfl
theorem exec_fcmp (p : Nat) (a : NArgs) (s : State) : exec (.fcmp p a) s = execFcmp p a s := rfl
theorem exec_sel (p : Nat) (a : NArgs) (s : State) : exec (.sel p a) s = execSel p a s := rfl
theorem exec_iadd (p : Nat) (a : NArgs) (s : State) : exec (.iadd p a) s = execIadd p a s := rfl
theorem exec_iand (p : Nat) (a : NArgs) (s : State) : exec (.iand p a) s = execIand p a s := rfl
theorem exec_ior (p : Nat) (a : NArgs) (s : State) : exec (.ior p a) s = execIor p a s := rfl
theorem exec_ixor (p : Nat) (a : NArgs) (s : State) : exec (.ixor p a) s = execIxor p a s := rfl
theorem exec_ishl (p : Nat) (a : NArgs) (s : State) : exec (.ishl p a) s = execIshl p a s := rfl
theorem exec_ishr (p : Nat) (a : NArgs) (s : State) : exec (.ishr p a) s = execIshr p a s := rfl
theorem exec_f2i (p : Nat) (a : NArgs) (s : State) : exec (.f2i p a) s = execF2i p a s := rfl
theorem exec_i2f (p : Nat) (a : NArgs) (s : State) : exec (.i2f p a) s = execI2f p a s := rfl
theorem exec_lane (p : Nat) (a : NArgs) (s : State) : exec (.lane p a) s = execLane p a s := rfl
theorem exec_idx (p : Nat) (a : NArgs) (s : State) : exec (.idx p a) s = execIdx p a s := rfl
theorem exec_hdr (p : Nat) (a : NArgs) (s : State) : exec (.hdr p a) s = execHdr p a s := rfl
theorem exec_chalk (p : Nat) (a : NArgs) (s : State) : exec (.chalk p a) s = execChalk p a s := rfl
theorem exec_perm (p : Nat) (a : NArgs) (s : State) : exec (.perm p a) s = execPerm p a s := rfl
theorem exec_bcast (p : Nat) (a : NArgs) (s : State) : exec (.bcast p a) s = execBcast p a s := rfl
theorem exec_ldt (p : Nat) (a : NArgs) (s : State) : exec (.ldt p a) s = execLdt p a s := rfl
theorem exec_ldb (p : Nat) (a : NArgs) (s : State) : exec (.ldb p a) s = execLdb p a s := rfl
theorem exec_stb (p : Nat) (a : NArgs) (s : State) : exec (.stb p a) s = execStb p a s := rfl
theorem exec_qnt (e : PanelWait) (a : NArgs) (s : State) : exec (.qnt e a) s = execQnt e a s := rfl
theorem exec_acc (p : Nat) (a : NArgs) (s : State) : exec (.acc p a) s = execAcc p a s := rfl
theorem exec_cvt16 (p : Nat) (a : NArgs) (s : State) : exec (.cvt16 p a) s = execCvt16 p a s := rfl
theorem exec_rand (p : Nat) (a : NArgs) (s : State) : exec (.rand p a) s = execRand p a s := rfl
theorem exec_drop (p : Nat) (a : NArgs) (s : State) : exec (.drop p a) s = execDrop p a s := rfl
theorem exec_rpush (p : Nat) (a : NArgs) (s : State) : exec (.rpush p a) s = execRpush p a s := rfl
theorem exec_rget (p : Nat) (a : NArgs) (s : State) : exec (.rget p a) s = execRget p a s := rfl
theorem exec_spill (p phys : Nat) (s : State) : exec (.spill p phys) s = execSpill p phys s := rfl
theorem exec_spoolReturnDone (p phys : Nat) (s : State) : exec (.spoolReturnDone p phys) s = execSpoolReturnDone p phys s := rfl
theorem exec_basteCaptureDone (hub : Nat) (s : State) : exec (.basteCaptureDone hub) s = execBasteCaptureDone hub s := rfl
theorem exec_basteCaptureAbandon (hub : Nat) (s : State) : exec (.basteCaptureAbandon hub) s = execBasteCaptureAbandon hub s := rfl
theorem exec_basteCheckDone (hub : Nat) (flt : List (Nat × W32)) (s : State) : exec (.basteCheckDone hub flt) s = execBasteCheckDone hub flt s := rfl
theorem exec_fenceHoldEnd (phys : Nat) (s : State) : exec (.fenceHoldEnd phys) s = execFenceHoldEnd phys s := rfl
theorem exec_caseResolve (hub slot : Nat) (fltW fltC flt3 : List (Nat × W32)) (s : State) : exec (.caseResolve hub slot fltW fltC flt3) s = execCaseResolve hub slot fltW fltC flt3 s := rfl
theorem exec_fenceTimeout (rank : Nat) (s : State) : exec (.fenceTimeout rank) s = execFenceTimeout rank s := rfl
theorem exec_idleFlit (port : Nat) (h : FlitHdr) (s : State) : exec (.idleFlit port h) s = execIdleFlit port h s := rfl
theorem exec_headFlit (port : Nat) (h : FlitHdr) (b : Head) (s : State) : exec (.headFlit port h b) s = execHeadFlit port h b s := rfl
theorem exec_dataFlit (port : Nat) (h : FlitHdr) (b : List Byte) (s : State) : exec (.dataFlit port h b) s = execDataFlit port h b s := rfl
theorem exec_collFold (desc micro segment : Nat) (s : State) : exec (.collFold desc micro segment) s = execCollFold desc micro segment s := rfl
theorem exec_poisonFlit (port : Nat) (h : FlitHdr) (b : Poison) (s : State) : exec (.poisonFlit port h b) s = execPoisonFlit port h b s := rfl
theorem exec_voteFlit (port : Nat) (h : FlitHdr) (b : Vote) (s : State) : exec (.voteFlit port h b) s = execVoteFlit port h b s := rfl
theorem exec_gateFlit (port : Nat) (h : FlitHdr) (wake : Bool) (s : State) : exec (.gateFlit port h wake) s = execGateFlit port h wake s := rfl
theorem exec_hello (port : Nat) (h : FlitHdr) (b : Ident) (nonce : Nat) (s : State) : exec (.hello port h b nonce) s = execHello port h b nonce s := rfl
theorem exec_proof (port : Nat) (h : FlitHdr) (b : Ident) (nonce : Nat) (s : State) : exec (.proof port h b nonce) s = execProof port h b nonce s := rfl
theorem exec_reservedFlit (port : Nat) (h : FlitHdr) (s : State) : exec (.reservedFlit port h) s = execReservedFlit port h s := rfl
theorem exec_badFlit (port : Nat) (s : State) : exec (.badFlit port) s = execBadFlit port s := rfl
theorem exec_seamReplay (port : Nat) (s : State) : exec (.seamReplay port) s = execSeamReplay port s := rfl
theorem exec_helloTimer (port nonce : Nat) (s : State) : exec (.helloTimer port nonce) s = execHelloTimer port nonce s := rfl
theorem exec_fitTimeout (port : Nat) (s : State) : exec (.fitTimeout port) s = execFitTimeout port s := rfl
theorem exec_linkTraining (port : Nat) (r : TrainOutcome) (nonce : Nat) (s : State) :
    exec (.linkTraining port r nonce) s = execLinkTraining port r nonce s := rfl
theorem exec_laneWake (port : Nat) (s : State) : exec (.laneWake port) s = execLaneWake port s := rfl
theorem exec_portTest (port : Nat) (pass : Bool) (s : State) : exec (.portTest port pass) s = execPortTest port pass s := rfl
theorem exec_write (k : Pkt) (bs : List Byte) (s : State) : exec (.write k bs) s = execWrite k bs s := rfl
theorem exec_ready (k : Pkt) (count : Nat) (s : State) : exec (.ready k count) s = execReady k count s := rfl
theorem exec_hemlineFence (k : Pkt) (s : State) : exec (.hemlineFence k) s = execHemlineFence k s := rfl
theorem exec_fenceW (flow psn : Nat) (s : State) : exec (.fenceW flow psn) s = execFenceW flow psn s := rfl
theorem exec_fenceAll (flow psn : Nat) (s : State) : exec (.fenceAll flow psn) s = execFenceAll flow psn s := rfl
theorem exec_ack (k : Pkt) (b : AckBody) (s : State) : exec (.ack k b) s = execAck k b s := rfl
theorem exec_ctrl (k : Pkt) (mailbox : Nat) (ring abort : Bool) (off : Nat) (bs : List Byte) (s : State) : exec (.ctrl k mailbox ring abort off bs) s = execCtrl k mailbox ring abort off bs s := rfl
theorem exec_mbAbort (mailbox : Nat) (s : State) : exec (.mbAbort mailbox) s = execMbAbort mailbox s := rfl
theorem exec_setupOffer (b : Setup) (answerNonce : Nat) (s : State) : exec (.setupOffer b answerNonce) s = execSetupOffer b answerNonce s := rfl
theorem exec_setupFinish (b : Setup) (s : State) : exec (.setupFinish b) s = execSetupFinish b s := rfl
theorem exec_close (k : Pkt) (s : State) : exec (.close k) s = execClose k s := rfl
theorem exec_arp (x : PortFrame) (target : Nat) (s : State) : exec (.arp x target) s = execArp x target s := rfl
theorem exec_neighborDiscovery (x : PortFrame) (target : Nat) (s : State) : exec (.neighborDiscovery x target) s = execNeighborDiscovery x target s := rfl
theorem exec_icmpEcho (x : PortFrame) (s : State) : exec (.icmpEcho x) s = execIcmpEcho x s := rfl
theorem exec_pfc (x : PortFrame) (mask : Nat) (s : State) : exec (.pfc x mask) s = execPfc x mask s := rfl
theorem exec_droppedFrame (port : Nat) (c : DropCause) (s : State) : exec (.droppedFrame port c) s = execDroppedFrame port c s := rfl
theorem exec_ackDelayExpiry (flow : Nat) (s : State) : exec (.ackDelayExpiry flow) s = execAckDelayExpiry flow s := rfl
theorem exec_retransmitTimeout (flow : Nat) (s : State) : exec (.retransmitTimeout flow) s = execRetransmitTimeout flow s := rfl
theorem exec_ratePeriod (flow : Nat) (s : State) : exec (.ratePeriod flow) s = execRatePeriod flow s := rfl
theorem exec_flowTimeout (flow : Nat) (s : State) : exec (.flowTimeout flow) s = execFlowTimeout flow s := rfl
theorem exec_hostLinkUp (port : Nat) (s : State) : exec (.hostLinkUp port) s = execHostLinkUp port s := rfl
theorem exec_hostLinkDown (port : Nat) (s : State) : exec (.hostLinkDown port) s = execHostLinkDown port s := rfl
theorem exec_mailboxClaimTimeout (mailbox : Nat) (s : State) : exec (.mailboxClaimTimeout mailbox) s = execMailboxClaimTimeout mailbox s := rfl
theorem exec_sessionIdleTimeout (session : Nat) (s : State) : exec (.sessionIdleTimeout session) s = execSessionIdleTimeout session s := rfl
theorem exec_setupExpiry (port addr : Nat) (s : State) : exec (.setupExpiry port addr) s = execSetupExpiry port addr s := rfl
theorem exec_epochAgeLimit (session : Nat) (s : State) : exec (.epochAgeLimit session) s = execEpochAgeLimit session s := rfl
theorem exec_epochGraceEnd (session : Nat) (s : State) : exec (.epochGraceEnd session) s = execEpochGraceEnd session s := rfl
theorem exec_identify (m : Nat) (s : State) : exec (.identify m) s = execIdentify m s := rfl
theorem exec_jobLoadBegin (m : Nat) (s : State) : exec (.jobLoadBegin m) s = execJobLoadBegin m s := rfl
theorem exec_jobLoadCommit (m : Nat) (s : State) : exec (.jobLoadCommit m) s = execJobLoadCommit m s := rfl
theorem exec_jobRelease (m : Nat) (s : State) : exec (.jobRelease m) s = execJobRelease m s := rfl
theorem exec_jobEnd (m : Nat) (s : State) : exec (.jobEnd m) s = execJobEnd m s := rfl
theorem exec_jobStatus (m : Nat) (s : State) : exec (.jobStatus m) s = execJobStatus m s := rfl
theorem exec_recipeSet (m : Nat) (s : State) : exec (.recipeSet m) s = execRecipeSet m s := rfl
theorem exec_flagClear (m : Nat) (s : State) : exec (.flagClear m) s = execFlagClear m s := rfl
theorem exec_remap (m : Nat) (s : State) : exec (.remap m) s = execRemap m s := rfl
theorem exec_baseLoadBegin (m : Nat) (s : State) : exec (.baseLoadBegin m) s = execBaseLoadBegin m s := rfl
theorem exec_baseLoadCommit (m : Nat) (s : State) : exec (.baseLoadCommit m) s = execBaseLoadCommit m s := rfl
theorem exec_flowOpen (m : Nat) (s : State) : exec (.flowOpen m) s = execFlowOpen m s := rfl
theorem exec_flowClose (m : Nat) (s : State) : exec (.flowClose m) s = execFlowClose m s := rfl
theorem exec_flowStatus (m : Nat) (s : State) : exec (.flowStatus m) s = execFlowStatus m s := rfl
theorem exec_snapshot (m : Nat) (s : State) : exec (.snapshot m) s = execSnapshot m s := rfl
theorem exec_snapshotCancel (m : Nat) (s : State) : exec (.snapshotCancel m) s = execSnapshotCancel m s := rfl
theorem exec_restore (m : Nat) (s : State) : exec (.restore m) s = execRestore m s := rfl
theorem exec_snapshotPageCopy (page : Nat) (s : State) : exec (.snapshotPageCopy page) s = execSnapshotPageCopy page s := rfl
theorem exec_restoreChunk (chunk : Nat) (s : State) : exec (.restoreChunk chunk) s = execRestoreChunk chunk s := rfl
theorem exec_spare (m : Nat) (s : State) : exec (.spare m) s = execSpare m s := rfl
theorem exec_spareExit (m : Nat) (s : State) : exec (.spareExit m) s = execSpareExit m s := rfl
theorem exec_fill (m : Nat) (s : State) : exec (.fill m) s = execFill m s := rfl
theorem exec_drain (m : Nat) (s : State) : exec (.drain m) s = execDrain m s := rfl
theorem exec_undrain (m : Nat) (s : State) : exec (.undrain m) s = execUndrain m s := rfl
theorem exec_selfTest (m : Nat) (s : State) : exec (.selfTest m) s = execSelfTest m s := rfl
theorem exec_hibernate (m : Nat) (s : State) : exec (.hibernate m) s = execHibernate m s := rfl
theorem exec_wake (m : Nat) (s : State) : exec (.wake m) s = execWake m s := rfl
theorem exec_powerBudget (m : Nat) (s : State) : exec (.powerBudget m) s = execPowerBudget m s := rfl
theorem exec_coolingReport (m : Nat) (s : State) : exec (.coolingReport m) s = execCoolingReport m s := rfl
theorem exec_sensorRead (m : Nat) (s : State) : exec (.sensorRead m) s = execSensorRead m s := rfl
theorem exec_sensorClear (m : Nat) (s : State) : exec (.sensorClear m) s = execSensorClear m s := rfl
theorem exec_lifetimeRead (m : Nat) (s : State) : exec (.lifetimeRead m) s = execLifetimeRead m s := rfl
theorem exec_txnBegin (m : Nat) (s : State) : exec (.txnBegin m) s = execTxnBegin m s := rfl
theorem exec_txnSet (m : Nat) (s : State) : exec (.txnSet m) s = execTxnSet m s := rfl
theorem exec_txnCommit (m : Nat) (s : State) : exec (.txnCommit m) s = execTxnCommit m s := rfl
theorem exec_txnRollback (m : Nat) (s : State) : exec (.txnRollback m) s = execTxnRollback m s := rfl
theorem exec_txnCommitPoint  (s : State) : exec (.txnCommitPoint) s = execTxnCommitPoint s := rfl
theorem exec_txnExpired  (s : State) : exec (.txnExpired) s = execTxnExpired s := rfl
theorem exec_configGet (m : Nat) (s : State) : exec (.configGet m) s = execConfigGet m s := rfl
theorem exec_calRead (m : Nat) (s : State) : exec (.calRead m) s = execCalRead m s := rfl
theorem exec_eventRead (m : Nat) (s : State) : exec (.eventRead m) s = execEventRead m s := rfl
theorem exec_markRequest (m : Nat) (s : State) : exec (.markRequest m) s = execMarkRequest m s := rfl
theorem exec_counterRead (m : Nat) (s : State) : exec (.counterRead m) s = execCounterRead m s := rfl
theorem exec_frayReportRead (m : Nat) (s : State) : exec (.frayReportRead m) s = execFrayReportRead m s := rfl
theorem exec_verdictRead (m : Nat) (s : State) : exec (.verdictRead m) s = execVerdictRead m s := rfl
theorem exec_drainRecordRead (m : Nat) (s : State) : exec (.drainRecordRead m) s = execDrainRecordRead m s := rfl
theorem exec_alertCauses (m : Nat) (s : State) : exec (.alertCauses m) s = execAlertCauses m s := rfl
theorem exec_noteWatch (m : Nat) (s : State) : exec (.noteWatch m) s = execNoteWatch m s := rfl
theorem exec_noteRead (m : Nat) (s : State) : exec (.noteRead m) s = execNoteRead m s := rfl
theorem exec_traceRead (m : Nat) (s : State) : exec (.traceRead m) s = execTraceRead m s := rfl
theorem exec_memInject (m : Nat) (s : State) : exec (.memInject m) s = execMemInject m s := rfl
theorem exec_portRetrain (m : Nat) (s : State) : exec (.portRetrain m) s = execPortRetrain m s := rfl
theorem exec_certRead (m : Nat) (s : State) : exec (.certRead m) s = execCertRead m s := rfl
theorem exec_attest (m : Nat) (s : State) : exec (.attest m) s = execAttest m s := rfl
theorem exec_ownerSet (m : Nat) (s : State) : exec (.ownerSet m) s = execOwnerSet m s := rfl
theorem exec_keyUpdate (m : Nat) (s : State) : exec (.keyUpdate m) s = execKeyUpdate m s := rfl
theorem exec_sessionEnd (m : Nat) (s : State) : exec (.sessionEnd m) s = execSessionEnd m s := rfl
theorem exec_fwBegin (m : Nat) (s : State) : exec (.fwBegin m) s = execFwBegin m s := rfl
theorem exec_fwCommit (m : Nat) (s : State) : exec (.fwCommit m) s = execFwCommit m s := rfl
theorem exec_fwActivate (m : Nat) (s : State) : exec (.fwActivate m) s = execFwActivate m s := rfl
theorem exec_fwConfirm (m : Nat) (s : State) : exec (.fwConfirm m) s = execFwConfirm m s := rfl
theorem exec_fwStatus (m : Nat) (s : State) : exec (.fwStatus m) s = execFwStatus m s := rfl
theorem exec_clearRecordRead (m : Nat) (s : State) : exec (.clearRecordRead m) s = execClearRecordRead m s := rfl
theorem exec_registerAccess (source : Nat) (s : State) : exec (.registerAccess source) s = execRegisterAccess source s := rfl
theorem exec_scrubRead (bolt : Bool) (unit : Nat) (overwritten : Bool) (s : State) : exec (.scrubRead bolt unit overwritten) s = execScrubRead bolt unit overwritten s := rfl
theorem exec_memCeRate (bolt : Bool) (unit : Nat) (s : State) : exec (.memCeRate bolt unit) s = execMemCeRate bolt unit s := rfl
theorem exec_lpddrTracking (channel : Nat) (s : State) : exec (.lpddrTracking channel) s = execLpddrTracking channel s := rfl
theorem exec_clearingDone (nonzero : Bool) (s : State) : exec (.clearingDone nonzero) s = execClearingDone nonzero s := rfl
theorem exec_scanDone (r : ScanResult) (s : State) : exec (.scanDone r) s = execScanDone r s := rfl
theorem exec_clearSigned  (s : State) : exec (.clearSigned) s = execClearSigned s := rfl
theorem exec_spareScan  (s : State) : exec (.spareScan) s = execSpareScan s := rfl
theorem exec_thimbleLockstep  (s : State) : exec (.thimbleLockstep) s = execThimbleLockstep s := rfl
theorem exec_powerWindow (p pCore vIn vCore : Nat) (s : State) : exec (.powerWindow p pCore vIn vCore) s = execPowerWindow p pCore vIn vCore s := rfl
theorem exec_capUnmet  (s : State) : exec (.capUnmet) s = execCapUnmet s := rfl
theorem exec_budgetExpired  (s : State) : exec (.budgetExpired) s = execBudgetExpired s := rfl
theorem exec_sensorSample (rs : List SensorRead) (s : State) : exec (.sensorSample rs) s = execSensorSample rs s := rfl
theorem exec_sensorSkew (panel : Nat) (s : State) : exec (.sensorSkew panel) s = execSensorSkew panel s := rfl
theorem exec_sensorSuspect (panel : Nat) (s : State) : exec (.sensorSuspect panel) s = execSensorSuspect panel s := rfl
theorem exec_forcedStateEnd  (s : State) : exec (.forcedStateEnd) s = execForcedStateEnd s := rfl
theorem exec_thetaUpdate (pMean tjMean : Nat) (steady : Bool) (s : State) : exec (.thetaUpdate pMean tjMean steady) s = execThetaUpdate pMean tjMean steady s := rfl
theorem exec_coolStale  (s : State) : exec (.coolStale) s = execCoolStale s := rfl
theorem exec_coolReportSkew  (s : State) : exec (.coolReportSkew) s = execCoolReportSkew s := rfl
theorem exec_pinch (sleeve : Nat) (s : State) : exec (.pinch sleeve) s = execPinch sleeve s := rfl
theorem exec_pinchEnd (sleeve : Nat) (stillLow : Bool) (s : State) : exec (.pinchEnd sleeve stillLow) s = execPinchEnd sleeve stillLow s := rfl
theorem exec_pinchRate (sleeve count : Nat) (s : State) : exec (.pinchRate sleeve count) s = execPinchRate sleeve count s := rfl
theorem exec_clockSwitch  (s : State) : exec (.clockSwitch) s = execClockSwitch s := rfl
theorem exec_gradeDeferred  (s : State) : exec (.gradeDeferred) s = execGradeDeferred s := rfl
theorem exec_clockTrim (island : Nat) (s : State) : exec (.clockTrim island) s = execClockTrim island s := rfl
theorem exec_power72vPresent (p : PowerUp) (s : State) : exec (.power72vPresent p) s = execPower72vPresent p s := rfl
theorem exec_firmwareVerify (badConfig : List Nat) (s : State) : exec (.firmwareVerify badConfig) s = execFirmwareVerify badConfig s := rfl
theorem exec_pwrEnAssert  (s : State) : exec (.pwrEnAssert) s = execPwrEnAssert s := rfl
theorem exec_pwrEnRemove  (s : State) : exec (.pwrEnRemove) s = execPwrEnRemove s := rfl
theorem exec_resetNAssert (p : ResetPulse) (s : State) : exec (.resetNAssert p) s = execResetNAssert p s := rfl
theorem exec_resetNRelease (sbRxLow : Bool) (s : State) : exec (.resetNRelease sbRxLow) s = execResetNRelease sbRxLow s := rfl
theorem exec_pwrGood (slotId : Nat) (s : State) : exec (.pwrGood slotId) s = execPwrGood slotId s := rfl
theorem exec_lpddrTraining (failed repaired values : List Nat) (s : State) :
    exec (.lpddrTraining failed repaired values) s = execLpddrTraining failed repaired values s := rfl
theorem exec_boltSelfTest (slices layers : List Nat) (s : State) :
    exec (.boltSelfTest slices layers) s = execBoltSelfTest slices layers s := rfl
theorem exec_startUpComplete  (s : State) : exec (.startUpComplete) s = execStartUpComplete s := rfl
theorem exec_railFault  (s : State) : exec (.railFault) s = execRailFault s := rfl
theorem exec_undervoltage  (s : State) : exec (.undervoltage) s = execUndervoltage s := rfl
theorem exec_overvoltage  (s : State) : exec (.overvoltage) s = execOvervoltage s := rfl
theorem exec_overcurrent  (s : State) : exec (.overcurrent) s = execOvercurrent s := rfl
theorem exec_overcurrentLatchRelease  (s : State) : exec (.overcurrentLatchRelease) s = execOvercurrentLatchRelease s := rfl
theorem exec_power72vRemoved  (s : State) : exec (.power72vRemoved) s = execPower72vRemoved s := rfl
theorem exec_trialTimeout  (s : State) : exec (.trialTimeout) s = execTrialTimeout s := rfl
theorem exec_recoveryFrame (bs : List Byte) (crc : Nat) (s : State) : exec (.recoveryFrame bs crc) s = execRecoveryFrame bs crc s := rfl
theorem exec_idcode  (s : State) : exec (.idcode) s = execIdcode s := rfl
theorem exec_bypass  (s : State) : exec (.bypass) s = execBypass s := rfl
theorem exec_samplePreload (bits : Nat) (s : State) : exec (.samplePreload bits) s = execSamplePreload bits s := rfl
theorem exec_extest (bits : Nat) (s : State) : exec (.extest bits) s = execExtest bits s := rfl
theorem exec_next (gap : Nat) (s : State) : exec (.next gap) s = execNext gap s := rfl

end Sys2Proof.Machine
end

