-- ==== Sys2Proof/Laws/Tab.lean ====
section
/-! SUPPORT. The laws of sparse tables and of memory: what a read finds after a write, and that every memory
operation keeps the canonical form. -/

namespace Sys2Proof

open Sys2Proof.Machine

/-! ### Tables -/

theorem tabGet_tabPut {α : Type} (d : α) (t : Tab α) (k j : Nat) (v : α) :
    tabGet d (tabPut t k v) j = if k = j then v else tabGet d t j := by
  induction t with
  | nil => by_cases h : k = j <;> simp [tabPut, tabGet, h]
  | cons e t ih =>
    obtain ⟨i, w⟩ := e
    simp only [tabPut]
    split
    · rename_i h; subst h; simp [tabGet]; split <;> simp_all
    · split
      · simp [tabGet]
      · simp only [tabGet, ih]
        by_cases hij : i = j <;> by_cases hkj : k = j <;> simp [hij, hkj]; omega

@[simp] theorem tabGet_tabPut_self {α : Type} (d : α) (t : Tab α) (k : Nat) (v : α) :
    tabGet d (tabPut t k v) k = v := by simp [tabGet_tabPut]

theorem tabGet_tabPut_ne {α : Type} (d : α) (t : Tab α) (k j : Nat) (v : α) (h : k ≠ j) :
    tabGet d (tabPut t k v) j = tabGet d t j := by simp [tabGet_tabPut, h]

theorem tabFind_tabPut {α : Type} (t : Tab α) (k j : Nat) (v : α) :
    tabFind (tabPut t k v) j = if k = j then some v else tabFind t j := by
  induction t with
  | nil => by_cases h : k = j <;> simp [tabPut, tabFind, h]
  | cons e t ih =>
    obtain ⟨i, w⟩ := e
    simp only [tabPut]
    split
    · rename_i h; subst h; simp [tabFind]; split <;> simp_all
    · split
      · simp [tabFind]
      · simp only [tabFind, ih]
        by_cases hij : i = j <;> by_cases hkj : k = j <;> simp [hij, hkj]; omega

theorem tabFind_tabErase {α : Type} (t : Tab α) (k j : Nat) :
    tabFind (tabErase t k) j = if k = j then none else tabFind t j := by
  induction t with
  | nil => simp [tabErase, tabFind]
  | cons e t ih =>
    obtain ⟨i, w⟩ := e
    simp only [tabErase]
    by_cases hik : i = k
    · subst hik; simp only [if_true, ih, tabFind]; split <;> rfl
    · by_cases hij : i = j
      · subst hij; simp [tabFind, hik, Ne.symm hik]
      · simp [tabFind, hik, hij, ih]

/-! ### Canonical memories -/

/-- A canonical memory from a bound is canonical from every lower bound. -/
theorem memSorted_mono {lo hi : Nat} (h : lo ≤ hi) : ∀ {m : Mem}, memSorted hi m = true → memSorted lo m = true
  | [], _ => rfl
  | (a, b) :: t, hm => by
    simp only [memSorted, Bool.and_eq_true, decide_eq_true_eq] at hm ⊢
    exact ⟨⟨by omega, hm.1.2⟩, hm.2⟩

theorem memSorted_tabPut {a : Nat} {b : Byte} (hb : b ≠ 0#8) :
    ∀ {m : Mem} {lo : Nat}, lo ≤ a → memSorted lo m = true → memSorted lo (tabPut m a b) = true
  | [], lo, hl, _ => by simp [tabPut, memSorted, hl, hb]
  | (c, d) :: t, lo, hl, hm => by
    simp only [memSorted, Bool.and_eq_true, decide_eq_true_eq] at hm
    simp only [tabPut]
    split
    · rename_i h; subst h; simp [memSorted, hl, hb, hm.2]
    · split
      · rename_i h1 h2
        have : memSorted (a + 1) ((c, d) :: t) = true := by
          simp only [memSorted, Bool.and_eq_true, decide_eq_true_eq]; exact ⟨⟨by omega, hm.1.2⟩, hm.2⟩
        simp only [memSorted, Bool.and_eq_true, decide_eq_true_eq] at this ⊢
        exact ⟨⟨hl, by simpa using hb⟩, this⟩
      · rename_i h1 h2
        simp only [memSorted, Bool.and_eq_true, decide_eq_true_eq]
        exact ⟨hm.1, memSorted_tabPut hb (by omega) hm.2⟩

theorem memSorted_tabErase {a : Nat} :
    ∀ {m : Mem} {lo : Nat}, memSorted lo m = true → memSorted lo (tabErase m a) = true
  | [], _, h => h
  | (c, d) :: t, lo, hm => by
    simp only [memSorted, Bool.and_eq_true, decide_eq_true_eq] at hm
    simp only [tabErase]
    split
    · exact memSorted_mono (by omega) (memSorted_tabErase (lo := c + 1) hm.2)
    · simp only [memSorted, Bool.and_eq_true, decide_eq_true_eq]
      exact ⟨hm.1, memSorted_tabErase hm.2⟩

theorem memSorted_filter {f : Host.Cell → Bool} :
    ∀ {m : Mem} {lo : Nat}, memSorted lo m = true → memSorted lo (m.filter f) = true
  | [], _, h => h
  | (c, d) :: t, lo, hm => by
    simp only [memSorted, Bool.and_eq_true, decide_eq_true_eq] at hm
    simp only [List.filter_cons]
    split
    · simp only [memSorted, Bool.and_eq_true, decide_eq_true_eq]
      exact ⟨hm.1, memSorted_filter hm.2⟩
    · exact memSorted_mono (by omega) (memSorted_filter hm.2)

/-- Writing a byte keeps the canonical form (R186; log entry 1). -/
theorem memSet_wf {m : Mem} (a : Nat) (b : Byte) (h : Memory.wf m = true) : Memory.wf (memSet m a b) = true := by
  simp only [memSet]
  split
  · exact memSorted_tabErase h
  · exact memSorted_tabPut ‹_› (Nat.zero_le _) h

/-- Writing bytes keeps the canonical form. -/
theorem memPut_wf : ∀ (bs : List Byte) {m : Mem} (a : Nat), Memory.wf m = true → Memory.wf (memPut m a bs) = true
  | [], _, _, h => h
  | b :: bs, _, a, h => memPut_wf bs (a + 1) (memSet_wf a b h)

/-- Dropping a range keeps the canonical form. -/
theorem memErase_wf {m : Mem} (a n : Nat) (h : Memory.wf m = true) : Memory.wf (memErase m a n) = true :=
  memSorted_filter h

/-- Keeping a range keeps the canonical form. -/
theorem memKeep_wf {m : Mem} (k : Nat → Bool) (h : Memory.wf m = true) : Memory.wf (memKeep m k) = true :=
  memSorted_filter h

/-! ### Reads after writes -/

/-- An address below the bound of a canonical memory reads 0. -/
theorem memGet_low : ∀ {m : Mem} {lo a : Nat}, memSorted lo m = true → a < lo → memGet m a = 0#8
  | [], _, _, _, _ => rfl
  | (c, d) :: t, lo, a, hm, ha => by
    simp only [memSorted, Bool.and_eq_true, decide_eq_true_eq] at hm
    have hc : c ≠ a := by omega
    have := memGet_low hm.2 (a := a) (by omega)
    simp only [memGet, tabGet, hc, if_false] at this ⊢
    exact this

theorem memGet_erase : ∀ (m : Mem) (a x : Nat), memGet (tabErase m a) x = if a = x then 0#8 else memGet m x
  | [], a, x => by simp [tabErase, memGet, tabGet]
  | (c, d) :: t, a, x => by
    have ih := memGet_erase t a x
    simp only [memGet] at ih
    simp only [tabErase, memGet, tabGet]
    by_cases h : c = a
    · subst h; rw [if_pos rfl, ih]; split <;> rfl
    · rw [if_neg h]; simp only [tabGet, ih]
      by_cases hx : c = x
      · subst hx; simp [Ne.symm h]
      · simp [hx]

/-- A read after a byte write (R186). -/
theorem memGet_memSet (m : Mem) (a x : Nat) (b : Byte) :
    memGet (memSet m a b) x = if a = x then b else memGet m x := by
  simp only [memSet]
  split
  · rename_i hb; subst hb; exact memGet_erase m a x
  · simp [memGet, tabGet_tabPut]

/-- A write leaves every byte outside it alone. -/
theorem memGet_memPut_outside : ∀ (bs : List Byte) (m : Mem) (a x : Nat),
    (x < a ∨ a + bs.length ≤ x) → memGet (memPut m a bs) x = memGet m x
  | [], _, _, _, _ => rfl
  | b :: bs, m, a, x, hx => by
    simp only [List.length_cons] at hx
    rw [memPut, memGet_memPut_outside bs _ (a + 1) x (by omega), memGet_memSet m a x b, if_neg (by omega)]

/-- A read inside a write gives the byte written. -/
theorem memGet_memPut_inside : ∀ (bs : List Byte) (m : Mem) (a i : Nat) (hi : i < bs.length),
    memGet (memPut m a bs) (a + i) = bs[i]
  | b :: bs, m, a, 0, _ => by
    rw [memPut, memGet_memPut_outside bs _ (a + 1) _ (by omega), memGet_memSet]; simp
  | b :: bs, m, a, i + 1, hi => by
    simp only [List.length_cons] at hi
    have := memGet_memPut_inside bs (memSet m a b) (a + 1) i (by omega)
    simp only [memPut, List.getElem_cons_succ, ← this]
    congr 1; omega

/-- The bytes just written read back. -/
theorem memBytes_memPut (m : Mem) (a : Nat) (bs : List Byte) : memBytes (memPut m a bs) a bs.length = bs := by
  apply List.ext_getElem (by simp [memBytes])
  intro i _ hi
  simp only [memBytes, List.getElem_map, List.getElem_range]
  rw [memGet_memPut_inside bs m a i hi]

end Sys2Proof
end

