-- ==== Sys2Proof/Laws/State.lean ====
section
/-! SUPPORT. What each named update of State leaves alone, field by field, and what a unit reads after an update. -/

namespace Sys2Proof.Machine

@[simp] theorem setPanel_pending (s : State) (q : Nat) (v : Panel) : (setPanel s q v).pending = s.pending := rfl
@[simp] theorem setPanel_free (s : State) (q : Nat) (v : Panel) : (setPanel s q v).free = s.free := rfl
@[simp] theorem setPanel_nowUs (s : State) (q : Nat) (v : Panel) : (setPanel s q v).nowUs = s.nowUs := rfl
@[simp] theorem setPanel_mem (s : State) (q : Nat) (v : Panel) : (setPanel s q v).mem = s.mem := rfl
@[simp] theorem setPanel_health (s : State) (q : Nat) (v : Panel) : (setPanel s q v).health = s.health := rfl
@[simp] theorem setPanel_dev (s : State) (q : Nat) (v : Panel) : (setPanel s q v).dev = s.dev := rfl
@[simp] theorem setPanel_pins (s : State) (q : Nat) (v : Panel) : (setPanel s q v).pins = s.pins := rfl
@[simp] theorem setPanel_fw (s : State) (q : Nat) (v : Panel) : (setPanel s q v).fw = s.fw := rfl
@[simp] theorem setPanel_job (s : State) (q : Nat) (v : Panel) : (setPanel s q v).job = s.job := rfl
@[simp] theorem setPanel_load (s : State) (q : Nat) (v : Panel) : (setPanel s q v).load = s.load := rfl
@[simp] theorem setPanel_base (s : State) (q : Nat) (v : Panel) : (setPanel s q v).base = s.base := rfl
@[simp] theorem setPanel_shut (s : State) (q : Nat) (v : Panel) : (setPanel s q v).shut = s.shut := rfl
@[simp] theorem setPanel_hubs (s : State) (q : Nat) (v : Panel) : (setPanel s q v).hubs = s.hubs := rfl
@[simp] theorem setPanel_fence (s : State) (q : Nat) (v : Panel) : (setPanel s q v).fence = s.fence := rfl
@[simp] theorem setPanel_ports (s : State) (q : Nat) (v : Panel) : (setPanel s q v).ports = s.ports := rfl
@[simp] theorem setPanel_coll (s : State) (q : Nat) (v : Panel) : (setPanel s q v).coll = s.coll := rfl
@[simp] theorem setPanel_host (s : State) (q : Nat) (v : Panel) : (setPanel s q v).host = s.host := rfl
@[simp] theorem setPanel_mgmt (s : State) (q : Nat) (v : Panel) : (setPanel s q v).mgmt = s.mgmt := rfl
@[simp] theorem setPanel_power (s : State) (q : Nat) (v : Panel) : (setPanel s q v).power = s.power := rfl
@[simp] theorem setPanel_therm (s : State) (q : Nat) (v : Panel) : (setPanel s q v).therm = s.therm := rfl
@[simp] theorem setPanel_snap (s : State) (q : Nat) (v : Panel) : (setPanel s q v).snap = s.snap := rfl

@[simp] theorem modPanel_pending (s : State) (q : Nat) (f : Panel → Panel) : (modPanel s q f).pending = s.pending := rfl
@[simp] theorem modPanel_free (s : State) (q : Nat) (f : Panel → Panel) : (modPanel s q f).free = s.free := rfl
@[simp] theorem modPanel_nowUs (s : State) (q : Nat) (f : Panel → Panel) : (modPanel s q f).nowUs = s.nowUs := rfl
@[simp] theorem modPanel_mem (s : State) (q : Nat) (f : Panel → Panel) : (modPanel s q f).mem = s.mem := rfl
@[simp] theorem modPanel_health (s : State) (q : Nat) (f : Panel → Panel) : (modPanel s q f).health = s.health := rfl
@[simp] theorem modPanel_dev (s : State) (q : Nat) (f : Panel → Panel) : (modPanel s q f).dev = s.dev := rfl
@[simp] theorem modPanel_pins (s : State) (q : Nat) (f : Panel → Panel) : (modPanel s q f).pins = s.pins := rfl
@[simp] theorem modPanel_fw (s : State) (q : Nat) (f : Panel → Panel) : (modPanel s q f).fw = s.fw := rfl
@[simp] theorem modPanel_job (s : State) (q : Nat) (f : Panel → Panel) : (modPanel s q f).job = s.job := rfl
@[simp] theorem modPanel_load (s : State) (q : Nat) (f : Panel → Panel) : (modPanel s q f).load = s.load := rfl
@[simp] theorem modPanel_base (s : State) (q : Nat) (f : Panel → Panel) : (modPanel s q f).base = s.base := rfl
@[simp] theorem modPanel_shut (s : State) (q : Nat) (f : Panel → Panel) : (modPanel s q f).shut = s.shut := rfl
@[simp] theorem modPanel_hubs (s : State) (q : Nat) (f : Panel → Panel) : (modPanel s q f).hubs = s.hubs := rfl
@[simp] theorem modPanel_fence (s : State) (q : Nat) (f : Panel → Panel) : (modPanel s q f).fence = s.fence := rfl
@[simp] theorem modPanel_ports (s : State) (q : Nat) (f : Panel → Panel) : (modPanel s q f).ports = s.ports := rfl
@[simp] theorem modPanel_coll (s : State) (q : Nat) (f : Panel → Panel) : (modPanel s q f).coll = s.coll := rfl
@[simp] theorem modPanel_host (s : State) (q : Nat) (f : Panel → Panel) : (modPanel s q f).host = s.host := rfl
@[simp] theorem modPanel_mgmt (s : State) (q : Nat) (f : Panel → Panel) : (modPanel s q f).mgmt = s.mgmt := rfl
@[simp] theorem modPanel_power (s : State) (q : Nat) (f : Panel → Panel) : (modPanel s q f).power = s.power := rfl
@[simp] theorem modPanel_therm (s : State) (q : Nat) (f : Panel → Panel) : (modPanel s q f).therm = s.therm := rfl
@[simp] theorem modPanel_snap (s : State) (q : Nat) (f : Panel → Panel) : (modPanel s q f).snap = s.snap := rfl

@[simp] theorem setHub_pending (s : State) (q : Nat) (v : Hub) : (setHub s q v).pending = s.pending := rfl
@[simp] theorem setHub_free (s : State) (q : Nat) (v : Hub) : (setHub s q v).free = s.free := rfl
@[simp] theorem setHub_nowUs (s : State) (q : Nat) (v : Hub) : (setHub s q v).nowUs = s.nowUs := rfl
@[simp] theorem setHub_mem (s : State) (q : Nat) (v : Hub) : (setHub s q v).mem = s.mem := rfl
@[simp] theorem setHub_health (s : State) (q : Nat) (v : Hub) : (setHub s q v).health = s.health := rfl
@[simp] theorem setHub_dev (s : State) (q : Nat) (v : Hub) : (setHub s q v).dev = s.dev := rfl
@[simp] theorem setHub_pins (s : State) (q : Nat) (v : Hub) : (setHub s q v).pins = s.pins := rfl
@[simp] theorem setHub_fw (s : State) (q : Nat) (v : Hub) : (setHub s q v).fw = s.fw := rfl
@[simp] theorem setHub_job (s : State) (q : Nat) (v : Hub) : (setHub s q v).job = s.job := rfl
@[simp] theorem setHub_load (s : State) (q : Nat) (v : Hub) : (setHub s q v).load = s.load := rfl
@[simp] theorem setHub_base (s : State) (q : Nat) (v : Hub) : (setHub s q v).base = s.base := rfl
@[simp] theorem setHub_shut (s : State) (q : Nat) (v : Hub) : (setHub s q v).shut = s.shut := rfl
@[simp] theorem setHub_panels (s : State) (q : Nat) (v : Hub) : (setHub s q v).panels = s.panels := rfl
@[simp] theorem setHub_fence (s : State) (q : Nat) (v : Hub) : (setHub s q v).fence = s.fence := rfl
@[simp] theorem setHub_ports (s : State) (q : Nat) (v : Hub) : (setHub s q v).ports = s.ports := rfl
@[simp] theorem setHub_coll (s : State) (q : Nat) (v : Hub) : (setHub s q v).coll = s.coll := rfl
@[simp] theorem setHub_host (s : State) (q : Nat) (v : Hub) : (setHub s q v).host = s.host := rfl
@[simp] theorem setHub_mgmt (s : State) (q : Nat) (v : Hub) : (setHub s q v).mgmt = s.mgmt := rfl
@[simp] theorem setHub_power (s : State) (q : Nat) (v : Hub) : (setHub s q v).power = s.power := rfl
@[simp] theorem setHub_therm (s : State) (q : Nat) (v : Hub) : (setHub s q v).therm = s.therm := rfl
@[simp] theorem setHub_snap (s : State) (q : Nat) (v : Hub) : (setHub s q v).snap = s.snap := rfl

@[simp] theorem modHub_pending (s : State) (q : Nat) (f : Hub → Hub) : (modHub s q f).pending = s.pending := rfl
@[simp] theorem modHub_free (s : State) (q : Nat) (f : Hub → Hub) : (modHub s q f).free = s.free := rfl
@[simp] theorem modHub_nowUs (s : State) (q : Nat) (f : Hub → Hub) : (modHub s q f).nowUs = s.nowUs := rfl
@[simp] theorem modHub_mem (s : State) (q : Nat) (f : Hub → Hub) : (modHub s q f).mem = s.mem := rfl
@[simp] theorem modHub_health (s : State) (q : Nat) (f : Hub → Hub) : (modHub s q f).health = s.health := rfl
@[simp] theorem modHub_dev (s : State) (q : Nat) (f : Hub → Hub) : (modHub s q f).dev = s.dev := rfl
@[simp] theorem modHub_pins (s : State) (q : Nat) (f : Hub → Hub) : (modHub s q f).pins = s.pins := rfl
@[simp] theorem modHub_fw (s : State) (q : Nat) (f : Hub → Hub) : (modHub s q f).fw = s.fw := rfl
@[simp] theorem modHub_job (s : State) (q : Nat) (f : Hub → Hub) : (modHub s q f).job = s.job := rfl
@[simp] theorem modHub_load (s : State) (q : Nat) (f : Hub → Hub) : (modHub s q f).load = s.load := rfl
@[simp] theorem modHub_base (s : State) (q : Nat) (f : Hub → Hub) : (modHub s q f).base = s.base := rfl
@[simp] theorem modHub_shut (s : State) (q : Nat) (f : Hub → Hub) : (modHub s q f).shut = s.shut := rfl
@[simp] theorem modHub_panels (s : State) (q : Nat) (f : Hub → Hub) : (modHub s q f).panels = s.panels := rfl
@[simp] theorem modHub_fence (s : State) (q : Nat) (f : Hub → Hub) : (modHub s q f).fence = s.fence := rfl
@[simp] theorem modHub_ports (s : State) (q : Nat) (f : Hub → Hub) : (modHub s q f).ports = s.ports := rfl
@[simp] theorem modHub_coll (s : State) (q : Nat) (f : Hub → Hub) : (modHub s q f).coll = s.coll := rfl
@[simp] theorem modHub_host (s : State) (q : Nat) (f : Hub → Hub) : (modHub s q f).host = s.host := rfl
@[simp] theorem modHub_mgmt (s : State) (q : Nat) (f : Hub → Hub) : (modHub s q f).mgmt = s.mgmt := rfl
@[simp] theorem modHub_power (s : State) (q : Nat) (f : Hub → Hub) : (modHub s q f).power = s.power := rfl
@[simp] theorem modHub_therm (s : State) (q : Nat) (f : Hub → Hub) : (modHub s q f).therm = s.therm := rfl
@[simp] theorem modHub_snap (s : State) (q : Nat) (f : Hub → Hub) : (modHub s q f).snap = s.snap := rfl

@[simp] theorem setPort_pending (s : State) (q : Nat) (v : SeamPort) : (setPort s q v).pending = s.pending := rfl
@[simp] theorem setPort_free (s : State) (q : Nat) (v : SeamPort) : (setPort s q v).free = s.free := rfl
@[simp] theorem setPort_nowUs (s : State) (q : Nat) (v : SeamPort) : (setPort s q v).nowUs = s.nowUs := rfl
@[simp] theorem setPort_mem (s : State) (q : Nat) (v : SeamPort) : (setPort s q v).mem = s.mem := rfl
@[simp] theorem setPort_health (s : State) (q : Nat) (v : SeamPort) : (setPort s q v).health = s.health := rfl
@[simp] theorem setPort_dev (s : State) (q : Nat) (v : SeamPort) : (setPort s q v).dev = s.dev := rfl
@[simp] theorem setPort_pins (s : State) (q : Nat) (v : SeamPort) : (setPort s q v).pins = s.pins := rfl
@[simp] theorem setPort_fw (s : State) (q : Nat) (v : SeamPort) : (setPort s q v).fw = s.fw := rfl
@[simp] theorem setPort_job (s : State) (q : Nat) (v : SeamPort) : (setPort s q v).job = s.job := rfl
@[simp] theorem setPort_load (s : State) (q : Nat) (v : SeamPort) : (setPort s q v).load = s.load := rfl
@[simp] theorem setPort_base (s : State) (q : Nat) (v : SeamPort) : (setPort s q v).base = s.base := rfl
@[simp] theorem setPort_shut (s : State) (q : Nat) (v : SeamPort) : (setPort s q v).shut = s.shut := rfl
@[simp] theorem setPort_panels (s : State) (q : Nat) (v : SeamPort) : (setPort s q v).panels = s.panels := rfl
@[simp] theorem setPort_hubs (s : State) (q : Nat) (v : SeamPort) : (setPort s q v).hubs = s.hubs := rfl
@[simp] theorem setPort_fence (s : State) (q : Nat) (v : SeamPort) : (setPort s q v).fence = s.fence := rfl
@[simp] theorem setPort_coll (s : State) (q : Nat) (v : SeamPort) : (setPort s q v).coll = s.coll := rfl
@[simp] theorem setPort_host (s : State) (q : Nat) (v : SeamPort) : (setPort s q v).host = s.host := rfl
@[simp] theorem setPort_mgmt (s : State) (q : Nat) (v : SeamPort) : (setPort s q v).mgmt = s.mgmt := rfl
@[simp] theorem setPort_power (s : State) (q : Nat) (v : SeamPort) : (setPort s q v).power = s.power := rfl
@[simp] theorem setPort_therm (s : State) (q : Nat) (v : SeamPort) : (setPort s q v).therm = s.therm := rfl
@[simp] theorem setPort_snap (s : State) (q : Nat) (v : SeamPort) : (setPort s q v).snap = s.snap := rfl

@[simp] theorem modPort_pending (s : State) (q : Nat) (f : SeamPort → SeamPort) : (modPort s q f).pending = s.pending := rfl
@[simp] theorem modPort_free (s : State) (q : Nat) (f : SeamPort → SeamPort) : (modPort s q f).free = s.free := rfl
@[simp] theorem modPort_nowUs (s : State) (q : Nat) (f : SeamPort → SeamPort) : (modPort s q f).nowUs = s.nowUs := rfl
@[simp] theorem modPort_mem (s : State) (q : Nat) (f : SeamPort → SeamPort) : (modPort s q f).mem = s.mem := rfl
@[simp] theorem modPort_health (s : State) (q : Nat) (f : SeamPort → SeamPort) : (modPort s q f).health = s.health := rfl
@[simp] theorem modPort_dev (s : State) (q : Nat) (f : SeamPort → SeamPort) : (modPort s q f).dev = s.dev := rfl
@[simp] theorem modPort_pins (s : State) (q : Nat) (f : SeamPort → SeamPort) : (modPort s q f).pins = s.pins := rfl
@[simp] theorem modPort_fw (s : State) (q : Nat) (f : SeamPort → SeamPort) : (modPort s q f).fw = s.fw := rfl
@[simp] theorem modPort_job (s : State) (q : Nat) (f : SeamPort → SeamPort) : (modPort s q f).job = s.job := rfl
@[simp] theorem modPort_load (s : State) (q : Nat) (f : SeamPort → SeamPort) : (modPort s q f).load = s.load := rfl
@[simp] theorem modPort_base (s : State) (q : Nat) (f : SeamPort → SeamPort) : (modPort s q f).base = s.base := rfl
@[simp] theorem modPort_shut (s : State) (q : Nat) (f : SeamPort → SeamPort) : (modPort s q f).shut = s.shut := rfl
@[simp] theorem modPort_panels (s : State) (q : Nat) (f : SeamPort → SeamPort) : (modPort s q f).panels = s.panels := rfl
@[simp] theorem modPort_hubs (s : State) (q : Nat) (f : SeamPort → SeamPort) : (modPort s q f).hubs = s.hubs := rfl
@[simp] theorem modPort_fence (s : State) (q : Nat) (f : SeamPort → SeamPort) : (modPort s q f).fence = s.fence := rfl
@[simp] theorem modPort_coll (s : State) (q : Nat) (f : SeamPort → SeamPort) : (modPort s q f).coll = s.coll := rfl
@[simp] theorem modPort_host (s : State) (q : Nat) (f : SeamPort → SeamPort) : (modPort s q f).host = s.host := rfl
@[simp] theorem modPort_mgmt (s : State) (q : Nat) (f : SeamPort → SeamPort) : (modPort s q f).mgmt = s.mgmt := rfl
@[simp] theorem modPort_power (s : State) (q : Nat) (f : SeamPort → SeamPort) : (modPort s q f).power = s.power := rfl
@[simp] theorem modPort_therm (s : State) (q : Nat) (f : SeamPort → SeamPort) : (modPort s q f).therm = s.therm := rfl
@[simp] theorem modPort_snap (s : State) (q : Nat) (f : SeamPort → SeamPort) : (modPort s q f).snap = s.snap := rfl

@[simp] theorem modHostPort_pending (s : State) (q : Nat) (f : HostPort → HostPort) : (modHostPort s q f).pending = s.pending := rfl
@[simp] theorem modHostPort_free (s : State) (q : Nat) (f : HostPort → HostPort) : (modHostPort s q f).free = s.free := rfl
@[simp] theorem modHostPort_nowUs (s : State) (q : Nat) (f : HostPort → HostPort) : (modHostPort s q f).nowUs = s.nowUs := rfl
@[simp] theorem modHostPort_mem (s : State) (q : Nat) (f : HostPort → HostPort) : (modHostPort s q f).mem = s.mem := rfl
@[simp] theorem modHostPort_health (s : State) (q : Nat) (f : HostPort → HostPort) : (modHostPort s q f).health = s.health := rfl
@[simp] theorem modHostPort_dev (s : State) (q : Nat) (f : HostPort → HostPort) : (modHostPort s q f).dev = s.dev := rfl
@[simp] theorem modHostPort_pins (s : State) (q : Nat) (f : HostPort → HostPort) : (modHostPort s q f).pins = s.pins := rfl
@[simp] theorem modHostPort_fw (s : State) (q : Nat) (f : HostPort → HostPort) : (modHostPort s q f).fw = s.fw := rfl
@[simp] theorem modHostPort_job (s : State) (q : Nat) (f : HostPort → HostPort) : (modHostPort s q f).job = s.job := rfl
@[simp] theorem modHostPort_load (s : State) (q : Nat) (f : HostPort → HostPort) : (modHostPort s q f).load = s.load := rfl
@[simp] theorem modHostPort_base (s : State) (q : Nat) (f : HostPort → HostPort) : (modHostPort s q f).base = s.base := rfl
@[simp] theorem modHostPort_shut (s : State) (q : Nat) (f : HostPort → HostPort) : (modHostPort s q f).shut = s.shut := rfl
@[simp] theorem modHostPort_panels (s : State) (q : Nat) (f : HostPort → HostPort) : (modHostPort s q f).panels = s.panels := rfl
@[simp] theorem modHostPort_hubs (s : State) (q : Nat) (f : HostPort → HostPort) : (modHostPort s q f).hubs = s.hubs := rfl
@[simp] theorem modHostPort_fence (s : State) (q : Nat) (f : HostPort → HostPort) : (modHostPort s q f).fence = s.fence := rfl
@[simp] theorem modHostPort_ports (s : State) (q : Nat) (f : HostPort → HostPort) : (modHostPort s q f).ports = s.ports := rfl
@[simp] theorem modHostPort_coll (s : State) (q : Nat) (f : HostPort → HostPort) : (modHostPort s q f).coll = s.coll := rfl
@[simp] theorem modHostPort_mgmt (s : State) (q : Nat) (f : HostPort → HostPort) : (modHostPort s q f).mgmt = s.mgmt := rfl
@[simp] theorem modHostPort_power (s : State) (q : Nat) (f : HostPort → HostPort) : (modHostPort s q f).power = s.power := rfl
@[simp] theorem modHostPort_therm (s : State) (q : Nat) (f : HostPort → HostPort) : (modHostPort s q f).therm = s.therm := rfl
@[simp] theorem modHostPort_snap (s : State) (q : Nat) (f : HostPort → HostPort) : (modHostPort s q f).snap = s.snap := rfl

@[simp] theorem setFlow_pending (s : State) (q : Nat) (v : Flow) : (setFlow s q v).pending = s.pending := rfl
@[simp] theorem setFlow_free (s : State) (q : Nat) (v : Flow) : (setFlow s q v).free = s.free := rfl
@[simp] theorem setFlow_nowUs (s : State) (q : Nat) (v : Flow) : (setFlow s q v).nowUs = s.nowUs := rfl
@[simp] theorem setFlow_mem (s : State) (q : Nat) (v : Flow) : (setFlow s q v).mem = s.mem := rfl
@[simp] theorem setFlow_health (s : State) (q : Nat) (v : Flow) : (setFlow s q v).health = s.health := rfl
@[simp] theorem setFlow_dev (s : State) (q : Nat) (v : Flow) : (setFlow s q v).dev = s.dev := rfl
@[simp] theorem setFlow_pins (s : State) (q : Nat) (v : Flow) : (setFlow s q v).pins = s.pins := rfl
@[simp] theorem setFlow_fw (s : State) (q : Nat) (v : Flow) : (setFlow s q v).fw = s.fw := rfl
@[simp] theorem setFlow_job (s : State) (q : Nat) (v : Flow) : (setFlow s q v).job = s.job := rfl
@[simp] theorem setFlow_load (s : State) (q : Nat) (v : Flow) : (setFlow s q v).load = s.load := rfl
@[simp] theorem setFlow_base (s : State) (q : Nat) (v : Flow) : (setFlow s q v).base = s.base := rfl
@[simp] theorem setFlow_shut (s : State) (q : Nat) (v : Flow) : (setFlow s q v).shut = s.shut := rfl
@[simp] theorem setFlow_panels (s : State) (q : Nat) (v : Flow) : (setFlow s q v).panels = s.panels := rfl
@[simp] theorem setFlow_hubs (s : State) (q : Nat) (v : Flow) : (setFlow s q v).hubs = s.hubs := rfl
@[simp] theorem setFlow_fence (s : State) (q : Nat) (v : Flow) : (setFlow s q v).fence = s.fence := rfl
@[simp] theorem setFlow_ports (s : State) (q : Nat) (v : Flow) : (setFlow s q v).ports = s.ports := rfl
@[simp] theorem setFlow_coll (s : State) (q : Nat) (v : Flow) : (setFlow s q v).coll = s.coll := rfl
@[simp] theorem setFlow_mgmt (s : State) (q : Nat) (v : Flow) : (setFlow s q v).mgmt = s.mgmt := rfl
@[simp] theorem setFlow_power (s : State) (q : Nat) (v : Flow) : (setFlow s q v).power = s.power := rfl
@[simp] theorem setFlow_therm (s : State) (q : Nat) (v : Flow) : (setFlow s q v).therm = s.therm := rfl
@[simp] theorem setFlow_snap (s : State) (q : Nat) (v : Flow) : (setFlow s q v).snap = s.snap := rfl

@[simp] theorem freeFlow_pending (s : State) (q : Nat) : (freeFlow s q).pending = s.pending := rfl
@[simp] theorem freeFlow_free (s : State) (q : Nat) : (freeFlow s q).free = s.free := rfl
@[simp] theorem freeFlow_nowUs (s : State) (q : Nat) : (freeFlow s q).nowUs = s.nowUs := rfl
@[simp] theorem freeFlow_mem (s : State) (q : Nat) : (freeFlow s q).mem = s.mem := rfl
@[simp] theorem freeFlow_health (s : State) (q : Nat) : (freeFlow s q).health = s.health := rfl
@[simp] theorem freeFlow_dev (s : State) (q : Nat) : (freeFlow s q).dev = s.dev := rfl
@[simp] theorem freeFlow_pins (s : State) (q : Nat) : (freeFlow s q).pins = s.pins := rfl
@[simp] theorem freeFlow_fw (s : State) (q : Nat) : (freeFlow s q).fw = s.fw := rfl
@[simp] theorem freeFlow_job (s : State) (q : Nat) : (freeFlow s q).job = s.job := rfl
@[simp] theorem freeFlow_load (s : State) (q : Nat) : (freeFlow s q).load = s.load := rfl
@[simp] theorem freeFlow_base (s : State) (q : Nat) : (freeFlow s q).base = s.base := rfl
@[simp] theorem freeFlow_shut (s : State) (q : Nat) : (freeFlow s q).shut = s.shut := rfl
@[simp] theorem freeFlow_panels (s : State) (q : Nat) : (freeFlow s q).panels = s.panels := rfl
@[simp] theorem freeFlow_hubs (s : State) (q : Nat) : (freeFlow s q).hubs = s.hubs := rfl
@[simp] theorem freeFlow_fence (s : State) (q : Nat) : (freeFlow s q).fence = s.fence := rfl
@[simp] theorem freeFlow_ports (s : State) (q : Nat) : (freeFlow s q).ports = s.ports := rfl
@[simp] theorem freeFlow_coll (s : State) (q : Nat) : (freeFlow s q).coll = s.coll := rfl
@[simp] theorem freeFlow_mgmt (s : State) (q : Nat) : (freeFlow s q).mgmt = s.mgmt := rfl
@[simp] theorem freeFlow_power (s : State) (q : Nat) : (freeFlow s q).power = s.power := rfl
@[simp] theorem freeFlow_therm (s : State) (q : Nat) : (freeFlow s q).therm = s.therm := rfl
@[simp] theorem freeFlow_snap (s : State) (q : Nat) : (freeFlow s q).snap = s.snap := rfl

@[simp] theorem setBox_pending (s : State) (q : Nat) (v : Mailbox) : (setBox s q v).pending = s.pending := rfl
@[simp] theorem setBox_free (s : State) (q : Nat) (v : Mailbox) : (setBox s q v).free = s.free := rfl
@[simp] theorem setBox_nowUs (s : State) (q : Nat) (v : Mailbox) : (setBox s q v).nowUs = s.nowUs := rfl
@[simp] theorem setBox_mem (s : State) (q : Nat) (v : Mailbox) : (setBox s q v).mem = s.mem := rfl
@[simp] theorem setBox_health (s : State) (q : Nat) (v : Mailbox) : (setBox s q v).health = s.health := rfl
@[simp] theorem setBox_dev (s : State) (q : Nat) (v : Mailbox) : (setBox s q v).dev = s.dev := rfl
@[simp] theorem setBox_pins (s : State) (q : Nat) (v : Mailbox) : (setBox s q v).pins = s.pins := rfl
@[simp] theorem setBox_fw (s : State) (q : Nat) (v : Mailbox) : (setBox s q v).fw = s.fw := rfl
@[simp] theorem setBox_job (s : State) (q : Nat) (v : Mailbox) : (setBox s q v).job = s.job := rfl
@[simp] theorem setBox_load (s : State) (q : Nat) (v : Mailbox) : (setBox s q v).load = s.load := rfl
@[simp] theorem setBox_base (s : State) (q : Nat) (v : Mailbox) : (setBox s q v).base = s.base := rfl
@[simp] theorem setBox_shut (s : State) (q : Nat) (v : Mailbox) : (setBox s q v).shut = s.shut := rfl
@[simp] theorem setBox_panels (s : State) (q : Nat) (v : Mailbox) : (setBox s q v).panels = s.panels := rfl
@[simp] theorem setBox_hubs (s : State) (q : Nat) (v : Mailbox) : (setBox s q v).hubs = s.hubs := rfl
@[simp] theorem setBox_fence (s : State) (q : Nat) (v : Mailbox) : (setBox s q v).fence = s.fence := rfl
@[simp] theorem setBox_ports (s : State) (q : Nat) (v : Mailbox) : (setBox s q v).ports = s.ports := rfl
@[simp] theorem setBox_coll (s : State) (q : Nat) (v : Mailbox) : (setBox s q v).coll = s.coll := rfl
@[simp] theorem setBox_host (s : State) (q : Nat) (v : Mailbox) : (setBox s q v).host = s.host := rfl
@[simp] theorem setBox_power (s : State) (q : Nat) (v : Mailbox) : (setBox s q v).power = s.power := rfl
@[simp] theorem setBox_therm (s : State) (q : Nat) (v : Mailbox) : (setBox s q v).therm = s.therm := rfl
@[simp] theorem setBox_snap (s : State) (q : Nat) (v : Mailbox) : (setBox s q v).snap = s.snap := rfl

@[simp] theorem modBox_pending (s : State) (q : Nat) (f : Mailbox → Mailbox) : (modBox s q f).pending = s.pending := rfl
@[simp] theorem modBox_free (s : State) (q : Nat) (f : Mailbox → Mailbox) : (modBox s q f).free = s.free := rfl
@[simp] theorem modBox_nowUs (s : State) (q : Nat) (f : Mailbox → Mailbox) : (modBox s q f).nowUs = s.nowUs := rfl
@[simp] theorem modBox_mem (s : State) (q : Nat) (f : Mailbox → Mailbox) : (modBox s q f).mem = s.mem := rfl
@[simp] theorem modBox_health (s : State) (q : Nat) (f : Mailbox → Mailbox) : (modBox s q f).health = s.health := rfl
@[simp] theorem modBox_dev (s : State) (q : Nat) (f : Mailbox → Mailbox) : (modBox s q f).dev = s.dev := rfl
@[simp] theorem modBox_pins (s : State) (q : Nat) (f : Mailbox → Mailbox) : (modBox s q f).pins = s.pins := rfl
@[simp] theorem modBox_fw (s : State) (q : Nat) (f : Mailbox → Mailbox) : (modBox s q f).fw = s.fw := rfl
@[simp] theorem modBox_job (s : State) (q : Nat) (f : Mailbox → Mailbox) : (modBox s q f).job = s.job := rfl
@[simp] theorem modBox_load (s : State) (q : Nat) (f : Mailbox → Mailbox) : (modBox s q f).load = s.load := rfl
@[simp] theorem modBox_base (s : State) (q : Nat) (f : Mailbox → Mailbox) : (modBox s q f).base = s.base := rfl
@[simp] theorem modBox_shut (s : State) (q : Nat) (f : Mailbox → Mailbox) : (modBox s q f).shut = s.shut := rfl
@[simp] theorem modBox_panels (s : State) (q : Nat) (f : Mailbox → Mailbox) : (modBox s q f).panels = s.panels := rfl
@[simp] theorem modBox_hubs (s : State) (q : Nat) (f : Mailbox → Mailbox) : (modBox s q f).hubs = s.hubs := rfl
@[simp] theorem modBox_fence (s : State) (q : Nat) (f : Mailbox → Mailbox) : (modBox s q f).fence = s.fence := rfl
@[simp] theorem modBox_ports (s : State) (q : Nat) (f : Mailbox → Mailbox) : (modBox s q f).ports = s.ports := rfl
@[simp] theorem modBox_coll (s : State) (q : Nat) (f : Mailbox → Mailbox) : (modBox s q f).coll = s.coll := rfl
@[simp] theorem modBox_host (s : State) (q : Nat) (f : Mailbox → Mailbox) : (modBox s q f).host = s.host := rfl
@[simp] theorem modBox_power (s : State) (q : Nat) (f : Mailbox → Mailbox) : (modBox s q f).power = s.power := rfl
@[simp] theorem modBox_therm (s : State) (q : Nat) (f : Mailbox → Mailbox) : (modBox s q f).therm = s.therm := rfl
@[simp] theorem modBox_snap (s : State) (q : Nat) (f : Mailbox → Mailbox) : (modBox s q f).snap = s.snap := rfl

@[simp] theorem modMemUnit_pending (s : State) (q : Nat) (f : MemUnit → MemUnit) : (modMemUnit s q f).pending = s.pending := rfl
@[simp] theorem modMemUnit_free (s : State) (q : Nat) (f : MemUnit → MemUnit) : (modMemUnit s q f).free = s.free := rfl
@[simp] theorem modMemUnit_nowUs (s : State) (q : Nat) (f : MemUnit → MemUnit) : (modMemUnit s q f).nowUs = s.nowUs := rfl
@[simp] theorem modMemUnit_mem (s : State) (q : Nat) (f : MemUnit → MemUnit) : (modMemUnit s q f).mem = s.mem := rfl
@[simp] theorem modMemUnit_dev (s : State) (q : Nat) (f : MemUnit → MemUnit) : (modMemUnit s q f).dev = s.dev := rfl
@[simp] theorem modMemUnit_pins (s : State) (q : Nat) (f : MemUnit → MemUnit) : (modMemUnit s q f).pins = s.pins := rfl
@[simp] theorem modMemUnit_fw (s : State) (q : Nat) (f : MemUnit → MemUnit) : (modMemUnit s q f).fw = s.fw := rfl
@[simp] theorem modMemUnit_job (s : State) (q : Nat) (f : MemUnit → MemUnit) : (modMemUnit s q f).job = s.job := rfl
@[simp] theorem modMemUnit_load (s : State) (q : Nat) (f : MemUnit → MemUnit) : (modMemUnit s q f).load = s.load := rfl
@[simp] theorem modMemUnit_base (s : State) (q : Nat) (f : MemUnit → MemUnit) : (modMemUnit s q f).base = s.base := rfl
@[simp] theorem modMemUnit_shut (s : State) (q : Nat) (f : MemUnit → MemUnit) : (modMemUnit s q f).shut = s.shut := rfl
@[simp] theorem modMemUnit_panels (s : State) (q : Nat) (f : MemUnit → MemUnit) : (modMemUnit s q f).panels = s.panels := rfl
@[simp] theorem modMemUnit_hubs (s : State) (q : Nat) (f : MemUnit → MemUnit) : (modMemUnit s q f).hubs = s.hubs := rfl
@[simp] theorem modMemUnit_fence (s : State) (q : Nat) (f : MemUnit → MemUnit) : (modMemUnit s q f).fence = s.fence := rfl
@[simp] theorem modMemUnit_ports (s : State) (q : Nat) (f : MemUnit → MemUnit) : (modMemUnit s q f).ports = s.ports := rfl
@[simp] theorem modMemUnit_coll (s : State) (q : Nat) (f : MemUnit → MemUnit) : (modMemUnit s q f).coll = s.coll := rfl
@[simp] theorem modMemUnit_host (s : State) (q : Nat) (f : MemUnit → MemUnit) : (modMemUnit s q f).host = s.host := rfl
@[simp] theorem modMemUnit_mgmt (s : State) (q : Nat) (f : MemUnit → MemUnit) : (modMemUnit s q f).mgmt = s.mgmt := rfl
@[simp] theorem modMemUnit_power (s : State) (q : Nat) (f : MemUnit → MemUnit) : (modMemUnit s q f).power = s.power := rfl
@[simp] theorem modMemUnit_therm (s : State) (q : Nat) (f : MemUnit → MemUnit) : (modMemUnit s q f).therm = s.therm := rfl
@[simp] theorem modMemUnit_snap (s : State) (q : Nat) (f : MemUnit → MemUnit) : (modMemUnit s q f).snap = s.snap := rfl

@[simp] theorem modShut_pending (s : State) (f : Shuttle → Shuttle) : (modShut s f).pending = s.pending := rfl
@[simp] theorem modShut_free (s : State) (f : Shuttle → Shuttle) : (modShut s f).free = s.free := rfl
@[simp] theorem modShut_nowUs (s : State) (f : Shuttle → Shuttle) : (modShut s f).nowUs = s.nowUs := rfl
@[simp] theorem modShut_mem (s : State) (f : Shuttle → Shuttle) : (modShut s f).mem = s.mem := rfl
@[simp] theorem modShut_health (s : State) (f : Shuttle → Shuttle) : (modShut s f).health = s.health := rfl
@[simp] theorem modShut_dev (s : State) (f : Shuttle → Shuttle) : (modShut s f).dev = s.dev := rfl
@[simp] theorem modShut_pins (s : State) (f : Shuttle → Shuttle) : (modShut s f).pins = s.pins := rfl
@[simp] theorem modShut_fw (s : State) (f : Shuttle → Shuttle) : (modShut s f).fw = s.fw := rfl
@[simp] theorem modShut_job (s : State) (f : Shuttle → Shuttle) : (modShut s f).job = s.job := rfl
@[simp] theorem modShut_load (s : State) (f : Shuttle → Shuttle) : (modShut s f).load = s.load := rfl
@[simp] theorem modShut_base (s : State) (f : Shuttle → Shuttle) : (modShut s f).base = s.base := rfl
@[simp] theorem modShut_panels (s : State) (f : Shuttle → Shuttle) : (modShut s f).panels = s.panels := rfl
@[simp] theorem modShut_hubs (s : State) (f : Shuttle → Shuttle) : (modShut s f).hubs = s.hubs := rfl
@[simp] theorem modShut_fence (s : State) (f : Shuttle → Shuttle) : (modShut s f).fence = s.fence := rfl
@[simp] theorem modShut_ports (s : State) (f : Shuttle → Shuttle) : (modShut s f).ports = s.ports := rfl
@[simp] theorem modShut_coll (s : State) (f : Shuttle → Shuttle) : (modShut s f).coll = s.coll := rfl
@[simp] theorem modShut_host (s : State) (f : Shuttle → Shuttle) : (modShut s f).host = s.host := rfl
@[simp] theorem modShut_mgmt (s : State) (f : Shuttle → Shuttle) : (modShut s f).mgmt = s.mgmt := rfl
@[simp] theorem modShut_power (s : State) (f : Shuttle → Shuttle) : (modShut s f).power = s.power := rfl
@[simp] theorem modShut_therm (s : State) (f : Shuttle → Shuttle) : (modShut s f).therm = s.therm := rfl
@[simp] theorem modShut_snap (s : State) (f : Shuttle → Shuttle) : (modShut s f).snap = s.snap := rfl

@[simp] theorem modJob_pending (s : State) (f : Job → Job) : (modJob s f).pending = s.pending := rfl
@[simp] theorem modJob_free (s : State) (f : Job → Job) : (modJob s f).free = s.free := rfl
@[simp] theorem modJob_nowUs (s : State) (f : Job → Job) : (modJob s f).nowUs = s.nowUs := rfl
@[simp] theorem modJob_mem (s : State) (f : Job → Job) : (modJob s f).mem = s.mem := rfl
@[simp] theorem modJob_health (s : State) (f : Job → Job) : (modJob s f).health = s.health := rfl
@[simp] theorem modJob_dev (s : State) (f : Job → Job) : (modJob s f).dev = s.dev := rfl
@[simp] theorem modJob_pins (s : State) (f : Job → Job) : (modJob s f).pins = s.pins := rfl
@[simp] theorem modJob_fw (s : State) (f : Job → Job) : (modJob s f).fw = s.fw := rfl
@[simp] theorem modJob_load (s : State) (f : Job → Job) : (modJob s f).load = s.load := rfl
@[simp] theorem modJob_base (s : State) (f : Job → Job) : (modJob s f).base = s.base := rfl
@[simp] theorem modJob_shut (s : State) (f : Job → Job) : (modJob s f).shut = s.shut := rfl
@[simp] theorem modJob_panels (s : State) (f : Job → Job) : (modJob s f).panels = s.panels := rfl
@[simp] theorem modJob_hubs (s : State) (f : Job → Job) : (modJob s f).hubs = s.hubs := rfl
@[simp] theorem modJob_fence (s : State) (f : Job → Job) : (modJob s f).fence = s.fence := rfl
@[simp] theorem modJob_ports (s : State) (f : Job → Job) : (modJob s f).ports = s.ports := rfl
@[simp] theorem modJob_coll (s : State) (f : Job → Job) : (modJob s f).coll = s.coll := rfl
@[simp] theorem modJob_host (s : State) (f : Job → Job) : (modJob s f).host = s.host := rfl
@[simp] theorem modJob_mgmt (s : State) (f : Job → Job) : (modJob s f).mgmt = s.mgmt := rfl
@[simp] theorem modJob_power (s : State) (f : Job → Job) : (modJob s f).power = s.power := rfl
@[simp] theorem modJob_therm (s : State) (f : Job → Job) : (modJob s f).therm = s.therm := rfl
@[simp] theorem modJob_snap (s : State) (f : Job → Job) : (modJob s f).snap = s.snap := rfl

@[simp] theorem raiseEv_pending (s : State) (q : Nat) (c : Ev) (l : List Nat) : (raiseEv s q c l).pending = s.pending := rfl
@[simp] theorem raiseEv_free (s : State) (q : Nat) (c : Ev) (l : List Nat) : (raiseEv s q c l).free = s.free := rfl
@[simp] theorem raiseEv_nowUs (s : State) (q : Nat) (c : Ev) (l : List Nat) : (raiseEv s q c l).nowUs = s.nowUs := rfl
@[simp] theorem raiseEv_mem (s : State) (q : Nat) (c : Ev) (l : List Nat) : (raiseEv s q c l).mem = s.mem := rfl
@[simp] theorem raiseEv_health (s : State) (q : Nat) (c : Ev) (l : List Nat) : (raiseEv s q c l).health = s.health := rfl
@[simp] theorem raiseEv_dev (s : State) (q : Nat) (c : Ev) (l : List Nat) : (raiseEv s q c l).dev = s.dev := rfl
@[simp] theorem raiseEv_pins (s : State) (q : Nat) (c : Ev) (l : List Nat) : (raiseEv s q c l).pins = s.pins := rfl
@[simp] theorem raiseEv_fw (s : State) (q : Nat) (c : Ev) (l : List Nat) : (raiseEv s q c l).fw = s.fw := rfl
@[simp] theorem raiseEv_job (s : State) (q : Nat) (c : Ev) (l : List Nat) : (raiseEv s q c l).job = s.job := rfl
@[simp] theorem raiseEv_load (s : State) (q : Nat) (c : Ev) (l : List Nat) : (raiseEv s q c l).load = s.load := rfl
@[simp] theorem raiseEv_base (s : State) (q : Nat) (c : Ev) (l : List Nat) : (raiseEv s q c l).base = s.base := rfl
@[simp] theorem raiseEv_shut (s : State) (q : Nat) (c : Ev) (l : List Nat) : (raiseEv s q c l).shut = s.shut := rfl
@[simp] theorem raiseEv_panels (s : State) (q : Nat) (c : Ev) (l : List Nat) : (raiseEv s q c l).panels = s.panels := rfl
@[simp] theorem raiseEv_hubs (s : State) (q : Nat) (c : Ev) (l : List Nat) : (raiseEv s q c l).hubs = s.hubs := rfl
@[simp] theorem raiseEv_fence (s : State) (q : Nat) (c : Ev) (l : List Nat) : (raiseEv s q c l).fence = s.fence := rfl
@[simp] theorem raiseEv_ports (s : State) (q : Nat) (c : Ev) (l : List Nat) : (raiseEv s q c l).ports = s.ports := rfl
@[simp] theorem raiseEv_coll (s : State) (q : Nat) (c : Ev) (l : List Nat) : (raiseEv s q c l).coll = s.coll := rfl
@[simp] theorem raiseEv_host (s : State) (q : Nat) (c : Ev) (l : List Nat) : (raiseEv s q c l).host = s.host := rfl
@[simp] theorem raiseEv_power (s : State) (q : Nat) (c : Ev) (l : List Nat) : (raiseEv s q c l).power = s.power := rfl
@[simp] theorem raiseEv_therm (s : State) (q : Nat) (c : Ev) (l : List Nat) : (raiseEv s q c l).therm = s.therm := rfl
@[simp] theorem raiseEv_snap (s : State) (q : Nat) (c : Ev) (l : List Nat) : (raiseEv s q c l).snap = s.snap := rfl

@[simp] theorem panelOf_setPanel_self (s : State) (q : Nat) (v : Panel) : panelOf (setPanel s q v) q = v := by
  simp [panelOf, setPanel]
theorem panelOf_setPanel_ne (s : State) (q r : Nat) (v : Panel) (h : q ≠ r) : panelOf (setPanel s q v) r = panelOf s r := by
  simp [panelOf, setPanel, tabGet_tabPut, h]
@[simp] theorem panelOf_modPanel_self (s : State) (q : Nat) (f : Panel → Panel) : panelOf (modPanel s q f) q = f (panelOf s q) := by
  simp [modPanel]
theorem panelOf_modPanel_ne (s : State) (q r : Nat) (f : Panel → Panel) (h : q ≠ r) : panelOf (modPanel s q f) r = panelOf s r :=
  panelOf_setPanel_ne s q r _ h

@[simp] theorem hubOf_setHub_self (s : State) (q : Nat) (v : Hub) : hubOf (setHub s q v) q = v := by
  simp [hubOf, setHub]
theorem hubOf_setHub_ne (s : State) (q r : Nat) (v : Hub) (h : q ≠ r) : hubOf (setHub s q v) r = hubOf s r := by
  simp [hubOf, setHub, tabGet_tabPut, h]
@[simp] theorem hubOf_modHub_self (s : State) (q : Nat) (f : Hub → Hub) : hubOf (modHub s q f) q = f (hubOf s q) := by
  simp [modHub]
theorem hubOf_modHub_ne (s : State) (q r : Nat) (f : Hub → Hub) (h : q ≠ r) : hubOf (modHub s q f) r = hubOf s r :=
  hubOf_setHub_ne s q r _ h

@[simp] theorem portOf_setPort_self (s : State) (q : Nat) (v : SeamPort) : portOf (setPort s q v) q = v := by
  simp [portOf, setPort]
theorem portOf_setPort_ne (s : State) (q r : Nat) (v : SeamPort) (h : q ≠ r) : portOf (setPort s q v) r = portOf s r := by
  simp [portOf, setPort, tabGet_tabPut, h]
@[simp] theorem portOf_modPort_self (s : State) (q : Nat) (f : SeamPort → SeamPort) : portOf (modPort s q f) q = f (portOf s q) := by
  simp [modPort]
theorem portOf_modPort_ne (s : State) (q r : Nat) (f : SeamPort → SeamPort) (h : q ≠ r) : portOf (modPort s q f) r = portOf s r :=
  portOf_setPort_ne s q r _ h

@[simp] theorem boxOf_setBox_self (s : State) (q : Nat) (v : Mailbox) : boxOf (setBox s q v) q = v := by
  simp [boxOf, setBox]
theorem boxOf_setBox_ne (s : State) (q r : Nat) (v : Mailbox) (h : q ≠ r) : boxOf (setBox s q v) r = boxOf s r := by
  simp [boxOf, setBox, tabGet_tabPut, h]
@[simp] theorem boxOf_modBox_self (s : State) (q : Nat) (f : Mailbox → Mailbox) : boxOf (modBox s q f) q = f (boxOf s q) := by
  simp [modBox]
theorem boxOf_modBox_ne (s : State) (q r : Nat) (f : Mailbox → Mailbox) (h : q ≠ r) : boxOf (modBox s q f) r = boxOf s r :=
  boxOf_setBox_ne s q r _ h

theorem flowOf_setFlow (s : State) (f g : Nat) (v : Flow) :
    flowOf (setFlow s f v) g = if f = g then some v else flowOf s g := by
  simp [flowOf, setFlow, tabFind_tabPut]

theorem hostPortOf_modHostPort (s : State) (e g : Nat) (f : HostPort → HostPort) :
    hostPortOf (modHostPort s e f) g = if e = g then f (hostPortOf s e) else hostPortOf s g := by
  simp [hostPortOf, modHostPort, tabGet_tabPut]

theorem memUnitOf_modMemUnit (s : State) (u g : Nat) (f : MemUnit → MemUnit) :
    memUnitOf (modMemUnit s u f) g = if u = g then f (memUnitOf s u) else memUnitOf s g := by
  simp [memUnitOf, modMemUnit, tabGet_tabPut]

/-- An event changes no mailbox. -/
@[simp] theorem boxOf_raiseEv (s : State) (q m : Nat) (c : Ev) (l : List Nat) : boxOf (raiseEv s q c l) m = boxOf s m := by
  simp only [boxOf, raiseEv, pushLog]; split <;> rfl

@[simp] theorem modPower_pending (s : State) (f : Power → Power) : (modPower s f).pending = s.pending := rfl
@[simp] theorem modPower_free (s : State) (f : Power → Power) : (modPower s f).free = s.free := rfl
@[simp] theorem modPower_nowUs (s : State) (f : Power → Power) : (modPower s f).nowUs = s.nowUs := rfl
@[simp] theorem modPower_mem (s : State) (f : Power → Power) : (modPower s f).mem = s.mem := rfl
@[simp] theorem modPower_health (s : State) (f : Power → Power) : (modPower s f).health = s.health := rfl
@[simp] theorem modPower_dev (s : State) (f : Power → Power) : (modPower s f).dev = s.dev := rfl
@[simp] theorem modPower_pins (s : State) (f : Power → Power) : (modPower s f).pins = s.pins := rfl
@[simp] theorem modPower_fw (s : State) (f : Power → Power) : (modPower s f).fw = s.fw := rfl
@[simp] theorem modPower_job (s : State) (f : Power → Power) : (modPower s f).job = s.job := rfl
@[simp] theorem modPower_load (s : State) (f : Power → Power) : (modPower s f).load = s.load := rfl
@[simp] theorem modPower_base (s : State) (f : Power → Power) : (modPower s f).base = s.base := rfl
@[simp] theorem modPower_shut (s : State) (f : Power → Power) : (modPower s f).shut = s.shut := rfl
@[simp] theorem modPower_panels (s : State) (f : Power → Power) : (modPower s f).panels = s.panels := rfl
@[simp] theorem modPower_hubs (s : State) (f : Power → Power) : (modPower s f).hubs = s.hubs := rfl
@[simp] theorem modPower_fence (s : State) (f : Power → Power) : (modPower s f).fence = s.fence := rfl
@[simp] theorem modPower_ports (s : State) (f : Power → Power) : (modPower s f).ports = s.ports := rfl
@[simp] theorem modPower_coll (s : State) (f : Power → Power) : (modPower s f).coll = s.coll := rfl
@[simp] theorem modPower_host (s : State) (f : Power → Power) : (modPower s f).host = s.host := rfl
@[simp] theorem modPower_mgmt (s : State) (f : Power → Power) : (modPower s f).mgmt = s.mgmt := rfl
@[simp] theorem modPower_power (s : State) (f : Power → Power) : (modPower s f).power = f s.power := rfl
@[simp] theorem modPower_therm (s : State) (f : Power → Power) : (modPower s f).therm = s.therm := rfl
@[simp] theorem modPower_snap (s : State) (f : Power → Power) : (modPower s f).snap = s.snap := rfl

@[simp] theorem modTherm_pending (s : State) (f : Thermal → Thermal) : (modTherm s f).pending = s.pending := rfl
@[simp] theorem modTherm_free (s : State) (f : Thermal → Thermal) : (modTherm s f).free = s.free := rfl
@[simp] theorem modTherm_nowUs (s : State) (f : Thermal → Thermal) : (modTherm s f).nowUs = s.nowUs := rfl
@[simp] theorem modTherm_mem (s : State) (f : Thermal → Thermal) : (modTherm s f).mem = s.mem := rfl
@[simp] theorem modTherm_health (s : State) (f : Thermal → Thermal) : (modTherm s f).health = s.health := rfl
@[simp] theorem modTherm_dev (s : State) (f : Thermal → Thermal) : (modTherm s f).dev = s.dev := rfl
@[simp] theorem modTherm_pins (s : State) (f : Thermal → Thermal) : (modTherm s f).pins = s.pins := rfl
@[simp] theorem modTherm_fw (s : State) (f : Thermal → Thermal) : (modTherm s f).fw = s.fw := rfl
@[simp] theorem modTherm_job (s : State) (f : Thermal → Thermal) : (modTherm s f).job = s.job := rfl
@[simp] theorem modTherm_load (s : State) (f : Thermal → Thermal) : (modTherm s f).load = s.load := rfl
@[simp] theorem modTherm_base (s : State) (f : Thermal → Thermal) : (modTherm s f).base = s.base := rfl
@[simp] theorem modTherm_shut (s : State) (f : Thermal → Thermal) : (modTherm s f).shut = s.shut := rfl
@[simp] theorem modTherm_panels (s : State) (f : Thermal → Thermal) : (modTherm s f).panels = s.panels := rfl
@[simp] theorem modTherm_hubs (s : State) (f : Thermal → Thermal) : (modTherm s f).hubs = s.hubs := rfl
@[simp] theorem modTherm_fence (s : State) (f : Thermal → Thermal) : (modTherm s f).fence = s.fence := rfl
@[simp] theorem modTherm_ports (s : State) (f : Thermal → Thermal) : (modTherm s f).ports = s.ports := rfl
@[simp] theorem modTherm_coll (s : State) (f : Thermal → Thermal) : (modTherm s f).coll = s.coll := rfl
@[simp] theorem modTherm_host (s : State) (f : Thermal → Thermal) : (modTherm s f).host = s.host := rfl
@[simp] theorem modTherm_mgmt (s : State) (f : Thermal → Thermal) : (modTherm s f).mgmt = s.mgmt := rfl
@[simp] theorem modTherm_power (s : State) (f : Thermal → Thermal) : (modTherm s f).power = s.power := rfl
@[simp] theorem modTherm_therm (s : State) (f : Thermal → Thermal) : (modTherm s f).therm = f s.therm := rfl
@[simp] theorem modTherm_snap (s : State) (f : Thermal → Thermal) : (modTherm s f).snap = s.snap := rfl

@[simp] theorem modPins_pending (s : State) (f : Pins → Pins) : (modPins s f).pending = s.pending := rfl
@[simp] theorem modPins_free (s : State) (f : Pins → Pins) : (modPins s f).free = s.free := rfl
@[simp] theorem modPins_nowUs (s : State) (f : Pins → Pins) : (modPins s f).nowUs = s.nowUs := rfl
@[simp] theorem modPins_mem (s : State) (f : Pins → Pins) : (modPins s f).mem = s.mem := rfl
@[simp] theorem modPins_health (s : State) (f : Pins → Pins) : (modPins s f).health = s.health := rfl
@[simp] theorem modPins_dev (s : State) (f : Pins → Pins) : (modPins s f).dev = s.dev := rfl
@[simp] theorem modPins_pins (s : State) (f : Pins → Pins) : (modPins s f).pins = f s.pins := rfl
@[simp] theorem modPins_fw (s : State) (f : Pins → Pins) : (modPins s f).fw = s.fw := rfl
@[simp] theorem modPins_job (s : State) (f : Pins → Pins) : (modPins s f).job = s.job := rfl
@[simp] theorem modPins_load (s : State) (f : Pins → Pins) : (modPins s f).load = s.load := rfl
@[simp] theorem modPins_base (s : State) (f : Pins → Pins) : (modPins s f).base = s.base := rfl
@[simp] theorem modPins_shut (s : State) (f : Pins → Pins) : (modPins s f).shut = s.shut := rfl
@[simp] theorem modPins_panels (s : State) (f : Pins → Pins) : (modPins s f).panels = s.panels := rfl
@[simp] theorem modPins_hubs (s : State) (f : Pins → Pins) : (modPins s f).hubs = s.hubs := rfl
@[simp] theorem modPins_fence (s : State) (f : Pins → Pins) : (modPins s f).fence = s.fence := rfl
@[simp] theorem modPins_ports (s : State) (f : Pins → Pins) : (modPins s f).ports = s.ports := rfl
@[simp] theorem modPins_coll (s : State) (f : Pins → Pins) : (modPins s f).coll = s.coll := rfl
@[simp] theorem modPins_host (s : State) (f : Pins → Pins) : (modPins s f).host = s.host := rfl
@[simp] theorem modPins_mgmt (s : State) (f : Pins → Pins) : (modPins s f).mgmt = s.mgmt := rfl
@[simp] theorem modPins_power (s : State) (f : Pins → Pins) : (modPins s f).power = s.power := rfl
@[simp] theorem modPins_therm (s : State) (f : Pins → Pins) : (modPins s f).therm = s.therm := rfl
@[simp] theorem modPins_snap (s : State) (f : Pins → Pins) : (modPins s f).snap = s.snap := rfl

@[simp] theorem modSnap_pending (s : State) (f : Snap → Snap) : (modSnap s f).pending = s.pending := rfl
@[simp] theorem modSnap_free (s : State) (f : Snap → Snap) : (modSnap s f).free = s.free := rfl
@[simp] theorem modSnap_nowUs (s : State) (f : Snap → Snap) : (modSnap s f).nowUs = s.nowUs := rfl
@[simp] theorem modSnap_mem (s : State) (f : Snap → Snap) : (modSnap s f).mem = s.mem := rfl
@[simp] theorem modSnap_health (s : State) (f : Snap → Snap) : (modSnap s f).health = s.health := rfl
@[simp] theorem modSnap_dev (s : State) (f : Snap → Snap) : (modSnap s f).dev = s.dev := rfl
@[simp] theorem modSnap_pins (s : State) (f : Snap → Snap) : (modSnap s f).pins = s.pins := rfl
@[simp] theorem modSnap_fw (s : State) (f : Snap → Snap) : (modSnap s f).fw = s.fw := rfl
@[simp] theorem modSnap_job (s : State) (f : Snap → Snap) : (modSnap s f).job = s.job := rfl
@[simp] theorem modSnap_load (s : State) (f : Snap → Snap) : (modSnap s f).load = s.load := rfl
@[simp] theorem modSnap_base (s : State) (f : Snap → Snap) : (modSnap s f).base = s.base := rfl
@[simp] theorem modSnap_shut (s : State) (f : Snap → Snap) : (modSnap s f).shut = s.shut := rfl
@[simp] theorem modSnap_panels (s : State) (f : Snap → Snap) : (modSnap s f).panels = s.panels := rfl
@[simp] theorem modSnap_hubs (s : State) (f : Snap → Snap) : (modSnap s f).hubs = s.hubs := rfl
@[simp] theorem modSnap_fence (s : State) (f : Snap → Snap) : (modSnap s f).fence = s.fence := rfl
@[simp] theorem modSnap_ports (s : State) (f : Snap → Snap) : (modSnap s f).ports = s.ports := rfl
@[simp] theorem modSnap_coll (s : State) (f : Snap → Snap) : (modSnap s f).coll = s.coll := rfl
@[simp] theorem modSnap_host (s : State) (f : Snap → Snap) : (modSnap s f).host = s.host := rfl
@[simp] theorem modSnap_mgmt (s : State) (f : Snap → Snap) : (modSnap s f).mgmt = s.mgmt := rfl
@[simp] theorem modSnap_power (s : State) (f : Snap → Snap) : (modSnap s f).power = s.power := rfl
@[simp] theorem modSnap_therm (s : State) (f : Snap → Snap) : (modSnap s f).therm = s.therm := rfl
@[simp] theorem modSnap_snap (s : State) (f : Snap → Snap) :
    (modSnap s f).snap = { s.snap with snap := s.snap.snap.map f } := rfl

@[simp] theorem modRest_pending (s : State) (f : RestoreRun → RestoreRun) : (modRest s f).pending = s.pending := rfl
@[simp] theorem modRest_free (s : State) (f : RestoreRun → RestoreRun) : (modRest s f).free = s.free := rfl
@[simp] theorem modRest_nowUs (s : State) (f : RestoreRun → RestoreRun) : (modRest s f).nowUs = s.nowUs := rfl
@[simp] theorem modRest_mem (s : State) (f : RestoreRun → RestoreRun) : (modRest s f).mem = s.mem := rfl
@[simp] theorem modRest_health (s : State) (f : RestoreRun → RestoreRun) : (modRest s f).health = s.health := rfl
@[simp] theorem modRest_dev (s : State) (f : RestoreRun → RestoreRun) : (modRest s f).dev = s.dev := rfl
@[simp] theorem modRest_pins (s : State) (f : RestoreRun → RestoreRun) : (modRest s f).pins = s.pins := rfl
@[simp] theorem modRest_fw (s : State) (f : RestoreRun → RestoreRun) : (modRest s f).fw = s.fw := rfl
@[simp] theorem modRest_job (s : State) (f : RestoreRun → RestoreRun) : (modRest s f).job = s.job := rfl
@[simp] theorem modRest_load (s : State) (f : RestoreRun → RestoreRun) : (modRest s f).load = s.load := rfl
@[simp] theorem modRest_base (s : State) (f : RestoreRun → RestoreRun) : (modRest s f).base = s.base := rfl
@[simp] theorem modRest_shut (s : State) (f : RestoreRun → RestoreRun) : (modRest s f).shut = s.shut := rfl
@[simp] theorem modRest_panels (s : State) (f : RestoreRun → RestoreRun) : (modRest s f).panels = s.panels := rfl
@[simp] theorem modRest_hubs (s : State) (f : RestoreRun → RestoreRun) : (modRest s f).hubs = s.hubs := rfl
@[simp] theorem modRest_fence (s : State) (f : RestoreRun → RestoreRun) : (modRest s f).fence = s.fence := rfl
@[simp] theorem modRest_ports (s : State) (f : RestoreRun → RestoreRun) : (modRest s f).ports = s.ports := rfl
@[simp] theorem modRest_coll (s : State) (f : RestoreRun → RestoreRun) : (modRest s f).coll = s.coll := rfl
@[simp] theorem modRest_host (s : State) (f : RestoreRun → RestoreRun) : (modRest s f).host = s.host := rfl
@[simp] theorem modRest_mgmt (s : State) (f : RestoreRun → RestoreRun) : (modRest s f).mgmt = s.mgmt := rfl
@[simp] theorem modRest_power (s : State) (f : RestoreRun → RestoreRun) : (modRest s f).power = s.power := rfl
@[simp] theorem modRest_therm (s : State) (f : RestoreRun → RestoreRun) : (modRest s f).therm = s.therm := rfl
@[simp] theorem modRest_snap (s : State) (f : RestoreRun → RestoreRun) :
    (modRest s f).snap = { s.snap with rest := s.snap.rest.map f } := rfl

end Sys2Proof.Machine
end

