-- ==== Sys2Proof/Laws/Keeps.lean ====
section
/-! SUPPORT. What every operation of the machine keeps: the queue of waiting commands, and the canonical form of
memory. One lemma for each operation follows in the files Laws/Keep*.lean; each says that the operation may be added
at the end of a chain of operations that keeps both. -/

namespace Sys2Proof.Machine

/-- From `s` to `t`: the queue is untouched, and memory stays canonical. -/
def Keeps (s t : State) : Prop :=
  t.pending = s.pending ∧ (Memory.wf s.mem = true → Memory.wf t.mem = true)

/-- Every next state that an outcome gives keeps both. -/
def KeepsOut (s : State) (o : Out) : Prop := ∀ t, o = .next t → Keeps s t

theorem Keeps.refl (s : State) : Keeps s s := ⟨rfl, id⟩

theorem Keeps.trans {a b c : State} (h : Keeps a b) (k : Keeps b c) : Keeps a c :=
  ⟨k.1.trans h.1, fun w => k.2 (h.2 w)⟩

theorem keepsOut_next {s t : State} (h : Keeps s t) : KeepsOut s (.next t) := by
  intro u e; cases e; exact h

theorem keepsOut_fault {s : State} {f : Fault} : KeepsOut s (.fault f) := by intro u e; cases e
theorem keepsOut_refused {s : State} {r : Refusal} : KeepsOut s (.refused r) := by intro u e; cases e

/-- An update of fields other than the queue and memory. -/
theorem keeps_upd {s0 s : State} {free nowUs health dev pins fw job load base shut panels hubs fence ports coll host mgmt
    power therm snap} (h : Keeps s0 s) : Keeps s0 ⟨s.pending, free, nowUs, s.mem, health, dev, pins, fw, job, load, base,
      shut, panels, hubs, fence, ports, coll, host, mgmt, power, therm, snap⟩ := h

/-- An update of memory that keeps its form, with other fields. -/
theorem keeps_mem {s0 s : State} {mem free nowUs health dev pins fw job load base shut panels hubs fence ports coll host mgmt
    power therm snap} (h : Keeps s0 s) (hm : Memory.wf s.mem = true → Memory.wf mem = true) :
    Keeps s0 ⟨s.pending, free, nowUs, mem, health, dev, pins, fw, job, load, base,
      shut, panels, hubs, fence, ports, coll, host, mgmt, power, therm, snap⟩ := ⟨h.1, fun w => hm (h.2 w)⟩

theorem foldl_keeps {α : Type} {s0 : State} {f : State → α → State} (hf : ∀ t a, Keeps s0 t → Keeps s0 (f t a)) :
    ∀ {l : List α} {s : State}, Keeps s0 s → Keeps s0 (l.foldl f s)
  | [], _, h => h
  | a :: l, s, h => foldl_keeps (l := l) (s := f s a) hf (hf s a h)

/-- A fold that carries a state beside other data. -/
theorem foldl_fst_keeps {α β : Type} {s0 : State} {f : State × β → α → State × β}
    (hf : ∀ t a, Keeps s0 t.1 → Keeps s0 (f t a).1) :
    ∀ {l : List α} {s : State × β}, Keeps s0 s.1 → Keeps s0 (l.foldl f s).1
  | [], _, h => h
  | a :: l, s, h => foldl_fst_keeps (l := l) (s := f s a) hf (hf s a h)

theorem foldl_snd_keeps {α β : Type} {s0 : State} {f : β × State → α → β × State}
    (hf : ∀ t a, Keeps s0 t.2 → Keeps s0 (f t a).2) :
    ∀ {l : List α} {s : β × State}, Keeps s0 s.2 → Keeps s0 (l.foldl f s).2
  | [], _, h => h
  | a :: l, s, h => foldl_snd_keeps (l := l) (s := f s a) hf (hf s a h)

theorem foldl_wf {α : Type} {f : Mem → α → Mem} (hf : ∀ m a, Memory.wf m = true → Memory.wf (f m a) = true) :
    ∀ {l : List α} {m : Mem}, Memory.wf m = true → Memory.wf (l.foldl f m) = true
  | [], _, h => h
  | a :: l, m, h => foldl_wf (l := l) (m := f m a) hf (hf m a h)

theorem ite_keeps {c : Prop} [Decidable c] {s0 a b : State} (ha : Keeps s0 a) (hb : Keeps s0 b) :
    Keeps s0 (if c then a else b) := by split <;> assumption

theorem whenRunning_keeps {s0 s : State} {k : Package → Out} (h : ∀ p, KeepsOut s0 (k p)) :
    KeepsOut s0 (whenRunning s k) := by
  simp only [whenRunning]
  split
  · exact keepsOut_fault
  · split
    · exact h _
    · exact keepsOut_fault

theorem whenIssuing_keeps {s0 s : State} {k : Package → Out} (h : ∀ p, KeepsOut s0 (k p)) :
    KeepsOut s0 (whenIssuing s k) := by
  refine whenRunning_keeps (fun p => ?_)
  split
  · exact h p
  · exact keepsOut_fault

/-- The state that an operation answers, if it answers one, keeps both. -/
def KeepsOpt (s : State) (o : Option State) : Prop := ∀ t, o = some t → Keeps s t

theorem keepsOpt_none {s : State} : KeepsOpt s none := by intro t e; cases e

theorem keepsOpt_some {s t : State} (h : Keeps s t) : KeepsOpt s (some t) := by intro u e; cases e; exact h

theorem eachDo_keeps {α : Type} {s0 : State} {f : State → α → Out} (hf : ∀ t a, Keeps s0 t → KeepsOut s0 (f t a)) :
    ∀ {l : List α} {s : State}, Keeps s0 s → KeepsOut s0 (eachDo f l s)
  | [], _, h => keepsOut_next h
  | a :: l, s, h => by
    simp only [eachDo]
    split
    · rename_i u hu; exact eachDo_keeps (l := l) (s := u) hf (hf s a h u hu)
    · exact keepsOut_fault
    · exact keepsOut_refused

theorem outThen_keeps {s0 : State} {o : Out} {k : State → Out} (ho : KeepsOut s0 o)
    (hk : ∀ t, Keeps s0 t → KeepsOut s0 (k t)) : KeepsOut s0 (outThen o k) := by
  simp only [outThen]
  split
  · exact hk _ (ho _ rfl)
  · exact keepsOut_fault
  · exact keepsOut_refused

end Sys2Proof.Machine
end

