-- ==== Sys2Proof/Laws/KeepOps.lean ====
section
/-! SUPPORT. The operations of Machine/Ops.lean keep the queue and the canonical form of memory. -/

namespace Sys2Proof.Machine

open Sys2Proof.Config

theorem setPanel_keeps {s0 : State} {s : State} {p : Nat} {v : Panel} (h : Keeps s0 s) :
    Keeps s0 (setPanel s p v) := by
  unfold setPanel
  try dsimp only
  repeat' first
    | (with_reducible assumption) | (with_reducible intro _) | split | (with_reducible apply keeps_upd)

theorem modPanel_keeps {s0 : State} {s : State} {p : Nat} {f : Panel → Panel} (h : Keeps s0 s) :
    Keeps s0 (modPanel s p f) := by
  unfold modPanel
  try dsimp only
  repeat' first
    | (with_reducible assumption) | (with_reducible intro _) | (with_reducible apply setPanel_keeps) | split
    | (with_reducible apply keeps_upd)

theorem setHub_keeps {s0 : State} {s : State} {hh : Nat} {v : Hub} (h : Keeps s0 s) :
    Keeps s0 (setHub s hh v) := by
  unfold setHub
  try dsimp only
  repeat' first
    | (with_reducible assumption) | (with_reducible intro _) | split | (with_reducible apply keeps_upd)

theorem modHub_keeps {s0 : State} {s : State} {hh : Nat} {f : Hub → Hub} (h : Keeps s0 s) :
    Keeps s0 (modHub s hh f) := by
  unfold modHub
  try dsimp only
  repeat' first
    | (with_reducible assumption) | (with_reducible intro _) | (with_reducible apply setHub_keeps) | split
    | (with_reducible apply keeps_upd)

theorem setPort_keeps {s0 : State} {s : State} {p : Nat} {v : SeamPort} (h : Keeps s0 s) :
    Keeps s0 (setPort s p v) := by
  unfold setPort
  try dsimp only
  repeat' first
    | (with_reducible assumption) | (with_reducible intro _) | split | (with_reducible apply keeps_upd)

theorem modPort_keeps {s0 : State} {s : State} {p : Nat} {f : SeamPort → SeamPort} (h : Keeps s0 s) :
    Keeps s0 (modPort s p f) := by
  unfold modPort
  try dsimp only
  repeat' first
    | (with_reducible assumption) | (with_reducible intro _) | (with_reducible apply setPort_keeps) | split
    | (with_reducible apply keeps_upd)

theorem modHostPort_keeps {s0 : State} {s : State} {e : Nat} {f : HostPort → HostPort} (h : Keeps s0 s) :
    Keeps s0 (modHostPort s e f) := by
  unfold modHostPort
  try dsimp only
  repeat' first
    | (with_reducible assumption) | (with_reducible intro _) | split | (with_reducible apply keeps_upd)

theorem setFlow_keeps {s0 : State} {s : State} {f : Nat} {v : Flow} (h : Keeps s0 s) :
    Keeps s0 (setFlow s f v) := by
  unfold setFlow
  try dsimp only
  repeat' first
    | (with_reducible assumption) | (with_reducible intro _) | split | (with_reducible apply keeps_upd)

theorem freeFlow_keeps {s0 : State} {s : State} {f : Nat} (h : Keeps s0 s) :
    Keeps s0 (freeFlow s f) := by
  unfold freeFlow
  try dsimp only
  repeat' first
    | (with_reducible assumption) | (with_reducible intro _) | split | (with_reducible apply keeps_upd)

theorem modFlow_keeps {s0 : State} {s : State} {f : Nat} {g : Flow → Flow} (h : Keeps s0 s) :
    Keeps s0 (modFlow s f g) := by
  unfold modFlow
  try dsimp only
  repeat' first
    | (with_reducible assumption) | (with_reducible intro _) | (with_reducible apply setFlow_keeps) | split
    | (with_reducible apply keeps_upd)

theorem setBox_keeps {s0 : State} {s : State} {m : Nat} {v : Mailbox} (h : Keeps s0 s) :
    Keeps s0 (setBox s m v) := by
  unfold setBox
  try dsimp only
  repeat' first
    | (with_reducible assumption) | (with_reducible intro _) | split | (with_reducible apply keeps_upd)

theorem modBox_keeps {s0 : State} {s : State} {m : Nat} {f : Mailbox → Mailbox} (h : Keeps s0 s) :
    Keeps s0 (modBox s m f) := by
  unfold modBox
  try dsimp only
  repeat' first
    | (with_reducible assumption) | (with_reducible intro _) | (with_reducible apply setBox_keeps) | split
    | (with_reducible apply keeps_upd)

theorem modMemUnit_keeps {s0 : State} {s : State} {u : Nat} {f : MemUnit → MemUnit} (h : Keeps s0 s) :
    Keeps s0 (modMemUnit s u f) := by
  unfold modMemUnit
  try dsimp only
  repeat' first
    | (with_reducible assumption) | (with_reducible intro _) | split | (with_reducible apply keeps_upd)

theorem modJob_keeps {s0 : State} {s : State} {f : Job → Job} (h : Keeps s0 s) :
    Keeps s0 (modJob s f) := by
  unfold modJob
  try dsimp only
  repeat' first
    | (with_reducible assumption) | (with_reducible intro _) | split | (with_reducible apply keeps_upd)

theorem takeFree_keeps {s0 : State} {s : State} (h : Keeps s0 s) :
    Keeps s0 (takeFree s).2 := by
  unfold takeFree
  try dsimp only
  repeat' first
    | (with_reducible assumption) | (with_reducible intro _) | split | (with_reducible apply keeps_upd)

theorem raiseEv_keeps {s0 : State} {s : State} {src : Nat} {c : Ev} {args : List Nat} (h : Keeps s0 s) :
    Keeps s0 (raiseEv s src c args) := by
  unfold raiseEv
  try dsimp only
  repeat' first
    | (with_reducible assumption) | (with_reducible intro _) | split | (with_reducible apply keeps_upd)

theorem driveAlert_keeps {s0 : State} {s : State} (h : Keeps s0 s) :
    Keeps s0 (driveAlert s) := by
  unfold driveAlert
  try dsimp only
  repeat' first
    | (with_reducible assumption) | (with_reducible intro _) | split | (with_reducible apply keeps_upd)

theorem setCause_keeps {s0 : State} {s : State} {c : Cause} (h : Keeps s0 s) :
    Keeps s0 (setCause s c) := by
  unfold setCause
  try dsimp only
  repeat' first
    | (with_reducible assumption) | (with_reducible intro _) | (with_reducible apply driveAlert_keeps) | split
    | (with_reducible apply keeps_upd)

theorem clearCause_keeps {s0 : State} {s : State} {c : Cause} (h : Keeps s0 s) :
    Keeps s0 (clearCause s c) := by
  unfold clearCause
  try dsimp only
  repeat' first
    | (with_reducible assumption) | (with_reducible intro _) | (with_reducible apply driveAlert_keeps) | split
    | (with_reducible apply keeps_upd)

theorem dropExtest_keeps {s0 : State} {s : State} (h : Keeps s0 s) :
    Keeps s0 (dropExtest s) := by
  unfold dropExtest
  try dsimp only
  repeat' first
    | (with_reducible assumption) | (with_reducible intro _) | (with_reducible apply driveAlert_keeps) | split
    | (with_reducible apply keeps_upd)

theorem goState_keeps {s0 : State} {s : State} {st : DevState} (h : Keeps s0 s) :
    Keeps s0 (goState s st) := by
  unfold goState
  try dsimp only
  repeat' first
    | (with_reducible assumption) | (with_reducible intro _) | (with_reducible apply dropExtest_keeps) | split
    | (with_reducible apply keeps_upd)

theorem noEvent_keeps {s0 : State} {s : State} (h : Keeps s0 s) :
    KeepsOut s0 (noEvent s) := by
  unfold noEvent
  try dsimp only
  repeat' first
    | (with_reducible assumption) | (with_reducible intro _) | (with_reducible exact keepsOut_fault)
    | (with_reducible exact keepsOut_refused) | (with_reducible apply keepsOut_next) | split
    | (with_reducible apply keeps_upd)

end Sys2Proof.Machine
end

