-- ==== Sys2Proof/Laws/KeepLinks.lean ====
section
/-! SUPPORT. The operations of Machine/Links.lean keep the queue and the canonical form of memory. -/

namespace Sys2Proof.Machine

open Sys2Proof.Config

theorem seamSend_keeps {s0 : State} {s : State} {port : Nat} {b : FlitBody} (h : Keeps s0 s) :
    Keeps s0 (seamSend s port b) := by
  unfold seamSend
  try dsimp only
  repeat' first
    | (with_reducible assumption) | (with_reducible intro _) | (with_reducible apply modPort_keeps) | split
    | (with_reducible apply keeps_upd)

theorem returnCredits_keeps {s0 : State} {s : State} (h : Keeps s0 s) :
    Keeps s0 (returnCredits s) := by
  unfold returnCredits
  try dsimp only
  repeat' first
    | (with_reducible assumption) | (with_reducible intro _) | split | (with_reducible apply keeps_upd)

theorem sendFrame_keeps {s0 : State} {s : State} {e : Nat} {f : Frame} (h : Keeps s0 s) :
    Keeps s0 (sendFrame s e f) := by
  unfold sendFrame
  try dsimp only
  repeat' first
    | (with_reducible assumption) | (with_reducible intro _) | (with_reducible apply modHostPort_keeps) | split
    | (with_reducible apply keeps_upd)

theorem answer_keeps {s0 : State} {s : State} {e : Nat} {dst : Nat} {b : FrameBody} (h : Keeps s0 s) :
    Keeps s0 (answer s e dst b) := by
  unfold answer
  try dsimp only
  repeat' first
    | (with_reducible assumption) | (with_reducible intro _) | (with_reducible apply sendFrame_keeps) | split
    | (with_reducible apply keeps_upd)

theorem setPaused_keeps {s0 : State} {s : State} {e : Nat} {mask : Nat} (h : Keeps s0 s) :
    Keeps s0 (setPaused s e mask) := by
  unfold setPaused
  try dsimp only
  repeat' first
    | (with_reducible assumption) | (with_reducible intro _) | (with_reducible apply sendFrame_keeps)
    | (with_reducible apply modHostPort_keeps) | (with_reducible apply foldl_keeps) | split
    | (with_reducible apply keeps_upd)

theorem obeyPfc_keeps {s0 : State} {s : State} {e : Nat} (h : Keeps s0 s) :
    Keeps s0 (obeyPfc s e) := by
  unfold obeyPfc
  try dsimp only
  repeat' first
    | (with_reducible assumption) | (with_reducible intro _) | (with_reducible apply setPaused_keeps) | split
    | (with_reducible apply keeps_upd)

theorem sendHemline_keeps {s0 : State} {s : State} {e : Nat} {ctrl : Bool} {ip : Nat} {flow : Nat} {b : FrameBody} (h : Keeps s0 s) :
    Keeps s0 (sendHemline s e ctrl ip flow b) := by
  unfold sendHemline
  try dsimp only
  repeat' first
    | (with_reducible assumption) | (with_reducible intro _) | (with_reducible apply sendFrame_keeps) | split
    | (with_reducible apply keeps_upd)

theorem sendPkt_keeps {s0 : State} {s : State} {f : Nat} {v : Flow} {hh : HemHdr} {bs : List Byte} {r : Option CloseReason} (h : Keeps s0 s) :
    Keeps s0 (sendPkt s f v hh bs r) := by
  unfold sendPkt
  try dsimp only
  repeat' first
    | (with_reducible assumption) | (with_reducible intro _) | (with_reducible apply sendHemline_keeps) | split
    | (with_reducible apply keeps_upd)

theorem closeFlow_keeps {s0 : State} {s : State} {f : Nat} (h : Keeps s0 s) :
    Keeps s0 (closeFlow s f) := by
  unfold closeFlow
  try dsimp only
  repeat' first
    | (with_reducible assumption) | (with_reducible intro _) | (with_reducible apply freeFlow_keeps)
    | (with_reducible apply sendPkt_keeps) | split | (with_reducible apply keeps_upd)

theorem closeIfDone_keeps {s0 : State} {s : State} {f : Nat} (h : Keeps s0 s) :
    Keeps s0 (closeIfDone s f) := by
  unfold closeIfDone
  try dsimp only
  repeat' first
    | (with_reducible assumption) | (with_reducible intro _) | (with_reducible apply closeFlow_keeps) | split
    | (with_reducible apply keeps_upd)

theorem sendOn_keeps {s0 : State} {s : State} {f : Nat} {k : TxKind} {w : Send} (h : Keeps s0 s) :
    Keeps s0 (sendOn s f k w) := by
  unfold sendOn
  try dsimp only
  repeat' first
    | (with_reducible assumption) | (with_reducible intro _) | (with_reducible apply sendPkt_keeps)
    | (with_reducible apply setFlow_keeps) | split | (with_reducible apply keeps_upd)

theorem resend_keeps {s0 : State} {s : State} {f : Nat} {t : TxPkt} (h : Keeps s0 s) :
    Keeps s0 (resend s f t) := by
  unfold resend
  try dsimp only
  repeat' first
    | (with_reducible assumption) | (with_reducible intro _) | (with_reducible apply sendPkt_keeps) | split
    | (with_reducible apply keeps_upd)

theorem nextEpoch_keeps {s0 : State} {s : State} {sid : Nat} (h : Keeps s0 s) :
    Keeps s0 (nextEpoch s sid) := by
  unfold nextEpoch
  try dsimp only
  repeat' first
    | (with_reducible assumption) | (with_reducible intro _) | (with_reducible apply raiseEv_keeps) | split
    | (with_reducible apply keeps_upd)

theorem sendKeyUpdate_keeps {s0 : State} {s : State} {sid : Nat} (h : Keeps s0 s) :
    Keeps s0 (sendKeyUpdate s sid) := by
  unfold sendKeyUpdate
  try dsimp only
  repeat' first
    | (with_reducible assumption) | (with_reducible intro _) | (with_reducible apply nextEpoch_keeps)
    | (with_reducible apply sendOn_keeps) | split | (with_reducible apply keeps_upd)

theorem hostSend_keeps {s0 : State} {s : State} {f : Nat} {k : TxKind} {w : Send} (h : Keeps s0 s) :
    Keeps s0 (hostSend s f k w) := by
  unfold hostSend
  try dsimp only
  repeat' first
    | (with_reducible assumption) | (with_reducible intro _) | (with_reducible apply sendOn_keeps)
    | (with_reducible apply sendKeyUpdate_keeps) | split | (with_reducible apply keeps_upd)

theorem sendAck_keeps {s0 : State} {s : State} {f : Nat} {nak : Option (Nat × Nat)} (h : Keeps s0 s) :
    Keeps s0 (sendAck s f nak) := by
  unfold sendAck
  try dsimp only
  repeat' first
    | (with_reducible assumption) | (with_reducible intro _) | (with_reducible apply closeIfDone_keeps)
    | (with_reducible apply setFlow_keeps) | (with_reducible apply sendPkt_keeps) | split
    | (with_reducible apply keeps_upd)

theorem refuseHeld_keeps {s0 : State} {s : State} {f : Nat} (h : Keeps s0 s) : Keeps s0 (refuseHeld s f) := by
  unfold refuseHeld
  try dsimp only
  repeat' first
    | (with_reducible assumption) | (with_reducible intro _) | (with_reducible apply sendAck_keeps)
    | (with_reducible apply foldl_keeps) | split | (with_reducible apply keeps_upd)

theorem closeFlows_keeps {s0 : State} {s : State} {p : Nat → Flow → Bool} (h : Keeps s0 s) :
    Keeps s0 (closeFlows s p) := by
  unfold closeFlows
  try dsimp only
  repeat' first
    | (with_reducible assumption) | (with_reducible intro _) | (with_reducible apply closeFlow_keeps)
    | (with_reducible apply refuseHeld_keeps)
    | (with_reducible apply modFlow_keeps) | (with_reducible apply foldl_keeps) | split
    | (with_reducible apply keeps_upd)

theorem spread_keeps {s0 : State} {flows : State → List Nat} {mk : Nat → List Byte → TxKind × Send} :
    ∀ {n turn off : Nat} {bs : List Byte} {s : State}, Keeps s0 s → Keeps s0 (spread flows mk n turn off bs s).1
  | 0, _, _, _, _, h => h
  | n + 1, turn, off, bs, s, h => by
    unfold spread
    split
    · exact h
    · dsimp only
      split
      · exact h
      · exact spread_keeps (n := n) (hostSend_keeps h)

theorem hostPoison_keeps {s0 : State} {s : State} {p : Poison} (h : Keeps s0 s) :
    Keeps s0 (hostPoison s p) := by
  unfold hostPoison
  try dsimp only
  repeat' first
    | (with_reducible assumption) | (with_reducible intro _) | (with_reducible apply hostSend_keeps)
    | (with_reducible apply foldl_keeps) | split | (with_reducible apply keeps_upd)

end Sys2Proof.Machine
end

