-- ==== Sys2Proof/Laws/KeepReplies.lean ====
section
/-! SUPPORT. The operations of Machine/Replies.lean keep the queue and the canonical form of memory. -/

namespace Sys2Proof.Machine

open Sys2Proof.Config

theorem freeBox_keeps {s0 : State} {s : State} {m : Nat} (h : Keeps s0 s) :
    Keeps s0 (freeBox s m) := by
  unfold freeBox
  try dsimp only
  repeat' first
    | (with_reducible assumption) | (with_reducible intro _) | (with_reducible apply setBox_keeps)
    | (with_reducible apply reply_keeps) | split | (with_reducible apply keeps_upd)

theorem sendReplyPkts_keeps {s0 : State} {m flow p : Nat} : ∀ {n off : Nat} {bs : List Byte} {s : State}, Keeps s0 s →
    Keeps s0 (sendReplyPkts m flow p n off bs s)
  | 0, _, _, _, h => h
  | n + 1, off, bs, s, h => by
    unfold sendReplyPkts
    exact sendReplyPkts_keeps (n := n) (hostSend_keeps h)

theorem reply_keeps {s0 : State} {s : State} {m : Nat} {st : Status} {body : List Byte} (h : Keeps s0 s) :
    Keeps s0 (reply s m st body) := by
  unfold reply
  try dsimp only
  repeat' first
    | (with_reducible assumption) | (with_reducible intro _) | (with_reducible apply freeBox_keeps)
    | (with_reducible apply setBox_keeps) | (with_reducible apply sendReplyPkts_keeps) | split
    | (with_reducible apply keeps_upd)

theorem replyOk_keeps {s0 : State} {s : State} {m : Nat} {body : List Byte} (h : Keeps s0 s) :
    Keeps s0 (replyOk s m body) := by
  unfold replyOk
  try dsimp only
  repeat' first
    | (with_reducible assumption) | (with_reducible intro _) | (with_reducible apply reply_keeps) | split
    | (with_reducible apply keeps_upd)

theorem replyBad_keeps {s0 : State} {s : State} {m : Nat} {st : Status} {a : Nat} {b : Nat} (h : Keeps s0 s) :
    Keeps s0 (replyBad s m st a b) := by
  unfold replyBad
  try dsimp only
  repeat' first
    | (with_reducible assumption) | (with_reducible intro _) | (with_reducible apply reply_keeps) | split
    | (with_reducible apply keeps_upd)

theorem releaseAt_keeps {s0 : State} {s : State} {w : WaitPoint} {body : Mailbox → List Byte} (h : Keeps s0 s) :
    Keeps s0 (releaseAt s w body) := by
  unfold releaseAt
  try dsimp only
  repeat' first
    | (with_reducible assumption) | (with_reducible intro _) | (with_reducible apply replyOk_keeps)
    | (with_reducible apply foldl_keeps) | split | (with_reducible apply keeps_upd)

theorem abortAt_keeps {s0 : State} {s : State} {w : WaitPoint} {st : Status} (h : Keeps s0 s) :
    Keeps s0 (abortAt s w st) := by
  unfold abortAt
  try dsimp only
  repeat' first
    | (with_reducible assumption) | (with_reducible intro _) | (with_reducible apply replyBad_keeps)
    | (with_reducible apply foldl_keeps) | split | (with_reducible apply keeps_upd)

end Sys2Proof.Machine
end

