-- ==== Sys2Proof/Laws/KeepLines.lean ====
section
/-! SUPPORT. The operations of Machine/Lines.lean keep the queue and the canonical form of memory. -/

namespace Sys2Proof.Machine

open Sys2Proof.Config

theorem storeLines_wf {a : Nat} {bs : List Byte} {bad : List Nat} {m : Mem} (h : Memory.wf m = true) :
    Memory.wf (storeLines a bs bad m) = true := by
  unfold storeLines
  split
  · exact memPut_wf _ _ h
  · refine foldl_wf (fun t e w => ?_) h
    dsimp only
    split
    · exact w
    · exact memSet_wf _ _ w

theorem putLines_keeps {s0 : State} {s : State} {a : Nat} {bs : List Byte} (h : Keeps s0 s) :
    Keeps s0 (putLines s a bs) := by
  unfold putLines
  split
  · exact keeps_mem h (memPut_wf _ _)
  · exact keeps_mem h (fun w => storeLines_wf (foldl_wf (fun _ _ => memPut_wf _ _) w))

theorem heldIn_keeps {s0 : State} {s : State} (h : Keeps s0 s) :
    Keeps s0 (heldIn s) := by
  unfold heldIn
  try dsimp only
  repeat' first
    | (with_reducible assumption) | (with_reducible intro _) | (with_reducible apply putLines_keeps)
    | (with_reducible apply foldl_keeps) | split | (with_reducible apply keeps_upd)

theorem endHold_keeps {s0 : State} {s : State} {rest : List HeldWrite} (h : Keeps s0 s) :
    Keeps s0 (endHold s rest) := by
  unfold endHold
  try dsimp only
  repeat' first
    | (with_reducible assumption) | (with_reducible intro _) | split | (with_reducible apply keeps_upd)

theorem holdWrite_keeps {s0 : State} {s : State} {w : HeldWrite} (h : Keeps s0 s) :
    Keeps s0 (holdWrite s w) := by
  unfold holdWrite
  try dsimp only
  repeat' first
    | (with_reducible assumption) | (with_reducible intro _) | split | (with_reducible apply keeps_upd)

theorem countCorrected_keeps {s0 : State} {s : State} {u : Nat} {n : Nat} (h : Keeps s0 s) :
    Keeps s0 (countCorrected s u n) := by
  unfold countCorrected
  try dsimp only
  repeat' first
    | (with_reducible assumption) | (with_reducible intro _) | (with_reducible apply modMemUnit_keeps) | split
    | (with_reducible apply keeps_upd)

theorem noteUncorrectable_keeps {s0 : State} {s : State} {l : Nat} (h : Keeps s0 s) :
    Keeps s0 (noteUncorrectable s l) := by
  unfold noteUncorrectable
  try dsimp only
  repeat' first
    | (with_reducible assumption) | (with_reducible intro _) | (with_reducible apply modMemUnit_keeps)
    | (with_reducible apply uncorrectable_keeps) | (with_reducible apply raiseEv_keeps) | split
    | (with_reducible apply keeps_upd)

end Sys2Proof.Machine
end

