-- ==== Sys2Proof/Laws/KeepImage.lean ====
section
/-! SUPPORT. The operations of Machine/Image.lean keep the queue and the canonical form of memory. -/

namespace Sys2Proof.Machine

open Sys2Proof.Config

theorem modSnap_keeps {s0 : State} {s : State} {f : Snap → Snap} (h : Keeps s0 s) :
    Keeps s0 (modSnap s f) := by
  unfold modSnap
  try dsimp only
  repeat' first
    | (with_reducible assumption) | (with_reducible intro _) | split | (with_reducible apply keeps_upd)

theorem pumpSnap_keeps {s0 : State} {s : State} (h : Keeps s0 s) : Keeps s0 (pumpSnap s) := by
  unfold pumpSnap
  split
  · refine modSnap_keeps (foldl_fst_keeps (fun t u ht => ?_) h)
    exact spread_keeps ht
  · exact h

theorem sendReady_keeps {s0 : State} {s : State} (h : Keeps s0 s) :
    Keeps s0 (sendReady s) := by
  unfold sendReady
  try dsimp only
  repeat' first
    | (with_reducible assumption) | (with_reducible intro _) | (with_reducible apply pumpSnap_keeps)
    | (with_reducible apply modSnap_keeps) | (with_reducible apply foldl_keeps) | split
    | (with_reducible apply keeps_upd)

theorem latchBlock_keeps {s0 : State} {s : State} {mark : Nat} {cls : Nat} {u : Nat} (h : Keeps s0 s) :
    Keeps s0 (latchBlock s mark cls u) := by
  unfold latchBlock
  try dsimp only
  repeat' first
    | (with_reducible assumption) | (with_reducible intro _) | split | (with_reducible apply keeps_upd)

theorem captureAt_keeps {s0 : State} {s : State} {mark : Option Nat} (h : Keeps s0 s) :
    Keeps s0 (captureAt s mark) := by
  unfold captureAt
  try dsimp only
  repeat' first
    | (with_reducible assumption) | (with_reducible intro _) | (with_reducible apply sendReady_keeps)
    | (with_reducible apply replyOk_keeps) | split | (with_reducible apply keeps_upd)

theorem stopSnapshot_keeps {s0 : State} {s : State} {cause : Nat} (h : Keeps s0 s) :
    Keeps s0 (stopSnapshot s cause) := by
  unfold stopSnapshot
  try dsimp only
  repeat' first
    | (with_reducible assumption) | (with_reducible intro _) | (with_reducible apply abortAt_keeps)
    | (with_reducible apply raiseEv_keeps) | split | (with_reducible apply keeps_upd)

theorem captureMark_keeps {s0 : State} {s : State} (h : Keeps s0 s) :
    Keeps s0 (captureMark s) := by
  unfold captureMark
  try dsimp only
  repeat' first
    | (with_reducible assumption) | (with_reducible intro _) | (with_reducible apply captureAt_keeps) | split
    | (with_reducible apply keeps_upd)

theorem captureHeld_keeps {s0 : State} {s : State} (h : Keeps s0 s) :
    Keeps s0 (captureHeld s) := by
  unfold captureHeld
  try dsimp only
  repeat' first
    | (with_reducible assumption) | (with_reducible intro _) | (with_reducible apply stopSnapshot_keeps)
    | (with_reducible apply captureAt_keeps) | split | (with_reducible apply keeps_upd)

end Sys2Proof.Machine
end

