-- ==== Sys2Proof/Laws/KeepFaults.lean ====
section
/-! SUPPORT. The operations of Machine/Faults.lean keep the queue and the canonical form of memory. -/

namespace Sys2Proof.Machine

open Sys2Proof.Config

theorem abandonWork_keeps {s0 : State} {s : State} (h : Keeps s0 s) :
    Keeps s0 (abandonWork s) := by
  unfold abandonWork
  try dsimp only
  repeat' first
    | (with_reducible assumption) | (with_reducible intro _) | split | (with_reducible apply keeps_upd)

theorem holdJob_keeps {s0 : State} {s : State} (h : Keeps s0 s) :
    Keeps s0 (holdJob s) := by
  unfold holdJob
  try dsimp only
  repeat' first
    | (with_reducible assumption) | (with_reducible intro _) | (with_reducible apply captureHeld_keeps) | split
    | (with_reducible apply keeps_upd)

theorem stopJob_keeps {s0 : State} {s : State} {st : Status} {e : Ev} {args : List Nat} (h : Keeps s0 s) :
    Keeps s0 (stopJob s st e args) := by
  unfold stopJob
  try dsimp only
  repeat' first
    | (with_reducible assumption) | (with_reducible intro _) | (with_reducible apply holdJob_keeps)
    | (with_reducible apply raiseEv_keeps) | split | (with_reducible apply keeps_upd)

theorem jobFault_keeps {s0 : State} {s : State} {st : Status} {e : Ev} {args : List Nat} (h : Keeps s0 s) :
    Keeps s0 (jobFault s st e args) := by
  unfold jobFault
  try dsimp only
  repeat' first
    | (with_reducible assumption) | (with_reducible intro _) | (with_reducible apply stopJob_keeps)
    | (with_reducible apply abandonWork_keeps) | split | (with_reducible apply keeps_upd)

theorem overrideStop_keeps {s0 : State} {s : State} {cause : Nat} (h : Keeps s0 s) :
    Keeps s0 (overrideStop s cause) := by
  unfold overrideStop
  try dsimp only
  repeat' first
    | (with_reducible assumption) | (with_reducible intro _) | split | (with_reducible apply keeps_upd)

theorem actOn_keeps {s0 : State} {s : State} {p : Package} {cause : Nat} (h : Keeps s0 s) :
    Keeps s0 (actOn s p cause) := by
  unfold actOn
  try dsimp only
  repeat' first
    | (with_reducible assumption) | (with_reducible intro _) | (with_reducible apply stopJob_keeps)
    | (with_reducible apply holdJob_keeps) | split | (with_reducible apply keeps_upd)

theorem poisonAction_keeps {s0 : State} {s : State} (h : Keeps s0 s) :
    Keeps s0 (poisonAction s) := by
  unfold poisonAction
  try dsimp only
  repeat' first
    | (with_reducible assumption) | (with_reducible intro _) | (with_reducible apply actOn_keeps)
    | (with_reducible apply overrideStop_keeps) | split | (with_reducible apply keeps_upd)

theorem spreadPoison_keeps {s0 : State} {s : State} {p : Poison} {but : Option Nat} (h : Keeps s0 s) :
    Keeps s0 (spreadPoison s p but) := by
  unfold spreadPoison
  try dsimp only
  repeat' first
    | (with_reducible assumption) | (with_reducible intro _) | (with_reducible apply hostPoison_keeps)
    | (with_reducible apply seamSend_keeps) | (with_reducible apply foldl_keeps) | split
    | (with_reducible apply keeps_upd)

theorem takePoison_keeps {s0 : State} {s : State} {p : Poison} (h : Keeps s0 s) :
    Keeps s0 (takePoison s p) := by
  unfold takePoison
  try dsimp only
  repeat' first
    | (with_reducible assumption) | (with_reducible intro _) | (with_reducible apply poisonAction_keeps)
    | (with_reducible apply abandonWork_keeps) | split | (with_reducible apply keeps_upd)

theorem sendPoisonFrom_keeps {s0 : State} {s : State} {cause : Nat} {origin : Nat} (h : Keeps s0 s) :
    Keeps s0 (sendPoisonFrom s cause origin) := by
  unfold sendPoisonFrom
  try dsimp only
  repeat' first
    | (with_reducible assumption) | (with_reducible intro _) | (with_reducible apply raiseEv_keeps)
    | (with_reducible apply spreadPoison_keeps) | (with_reducible apply takePoison_keeps) | split
    | (with_reducible apply keeps_upd)

theorem sendPoison_keeps {s0 : State} {s : State} {cause : Nat} (h : Keeps s0 s) :
    Keeps s0 (sendPoison s cause) := by
  unfold sendPoison
  try dsimp only
  repeat' first
    | (with_reducible assumption) | (with_reducible intro _) | (with_reducible apply sendPoisonFrom_keeps)
    | split | (with_reducible apply keeps_upd)

theorem failRestore_keeps {s0 : State} {s : State} {st : Status} {chunk : List Nat} (h : Keeps s0 s) :
    Keeps s0 (failRestore s st chunk) := by
  unfold failRestore
  try dsimp only
  repeat' first
    | (with_reducible assumption) | (with_reducible intro _) | (with_reducible apply raiseEv_keeps) | split
    | (with_reducible apply keeps_upd)

theorem endJobNow_keeps {s0 : State} {s : State} {retain : Bool} {w : Work} (h : Keeps s0 s) :
    Keeps s0 (endJobNow s retain w) := by
  unfold endJobNow
  try dsimp only
  repeat' first
    | (with_reducible assumption) | (with_reducible intro _) | (with_reducible apply raiseEv_keeps)
    | (with_reducible apply closeFlows_keeps) | split | (with_reducible apply keeps_upd)

theorem tryEndJob_keeps {s0 : State} {s : State} (h : Keeps s0 s) :
    Keeps s0 (tryEndJob s) := by
  unfold tryEndJob
  try dsimp only
  repeat' first
    | (with_reducible assumption) | (with_reducible intro _) | (with_reducible apply endJobNow_keeps) | split
    | (with_reducible apply keeps_upd)

theorem dueEndJob_keeps {s0 : State} {s : State} (h : Keeps s0 s) :
    Keeps s0 (dueEndJob s) := by
  unfold dueEndJob
  try dsimp only
  repeat' first
    | (with_reducible assumption) | (with_reducible intro _) | (with_reducible apply tryEndJob_keeps)
    | (with_reducible apply holdJob_keeps) | split | (with_reducible apply keeps_upd)

theorem closeWindow_keeps {s0 : State} {s : State} (h : Keeps s0 s) :
    Keeps s0 (closeWindow s) := by
  unfold closeWindow
  try dsimp only
  repeat' first
    | (with_reducible assumption) | (with_reducible intro _) | (with_reducible apply closeFlows_keeps) | split
    | (with_reducible apply keeps_upd)

theorem dropBase_keeps {s0 : State} {s : State} (h : Keeps s0 s) :
    Keeps s0 (dropBase s) := by
  unfold dropBase
  split
  · exact h
  · exact keeps_mem h (memErase_wf _ _)

theorem drainWork_keeps {s0 : State} {s : State} (h : Keeps s0 s) :
    Keeps s0 (drainWork s) := by
  unfold drainWork
  try dsimp only
  repeat' first
    | (with_reducible assumption) | (with_reducible intro _) | (with_reducible apply dropBase_keeps) | split
    | (with_reducible apply keeps_upd)

theorem nameVerdict_keeps {s0 : State} {s : State} {verdict : Nat} (h : Keeps s0 s) :
    Keeps s0 (nameVerdict s verdict) := by
  unfold nameVerdict
  try dsimp only
  repeat' first
    | (with_reducible assumption) | (with_reducible intro _) | split | (with_reducible apply keeps_upd)

theorem recordSuspect_keeps {s0 : State} {s : State} {code : Nat} {unit : Nat} {verdict : Nat} (h : Keeps s0 s) :
    Keeps s0 (recordSuspect s code unit verdict) := by
  unfold recordSuspect
  try dsimp only
  repeat' first
    | (with_reducible assumption) | (with_reducible intro _) | (with_reducible apply nameVerdict_keeps)
    | (with_reducible apply raiseEv_keeps) | split | (with_reducible apply keeps_upd)

theorem fatalLine_keeps {s0 : State} {s : State} {l : Nat} (h : Keeps s0 s) :
    Keeps s0 (fatalLine s l) := by
  unfold fatalLine
  try dsimp only
  repeat' first
    | (with_reducible assumption) | (with_reducible intro _) | (with_reducible apply noteUncorrectable_keeps)
    | (with_reducible apply recordSuspect_keeps) | (with_reducible apply sendPoison_keeps) | split
    | (with_reducible apply keeps_upd)

theorem drainHeld_keeps {s0 : State} {s : State} {w : HeldWrite} (h : Keeps s0 s) :
    Keeps s0 (drainHeld s w) := by
  unfold drainHeld
  try dsimp only
  repeat' first
    | (with_reducible assumption) | (with_reducible intro _) | (with_reducible apply putLines_keeps)
    | (with_reducible apply fatalLine_keeps) | (with_reducible apply countCorrected_keeps)
    | (with_reducible apply foldl_keeps) | split | (refine foldl_snd_keeps ?_ ?_)
    | (with_reducible apply keeps_upd)

theorem dropHeld_keeps {s0 : State} {s : State} (h : Keeps s0 s) :
    Keeps s0 (dropHeld s) := by
  unfold dropHeld
  exact foldl_keeps (fun _ _ ht => drainHeld_keeps ht) (endHold_keeps h)

theorem startDrain_keeps {s0 : State} {s : State} {code : Nat} {unit : Nat} (h : Keeps s0 s) :
    Keeps s0 (startDrain s code unit) := by
  unfold startDrain
  try dsimp only
  repeat' first
    | (with_reducible assumption) | (with_reducible intro _) | (with_reducible apply abortAt_keeps)
    | (with_reducible apply raiseEv_keeps) | (with_reducible apply setCause_keeps)
    | (with_reducible apply closeWindow_keeps) | (with_reducible apply failRestore_keeps)
    | (with_reducible apply dropHeld_keeps) | (with_reducible apply stopSnapshot_keeps)
    | (with_reducible apply endJobNow_keeps) | (with_reducible apply drainWork_keeps)
    | (with_reducible apply goState_keeps) | split | (with_reducible apply keeps_upd)

theorem drainIfDue_keeps {s0 : State} {s : State} (h : Keeps s0 s) :
    Keeps s0 (drainIfDue s) := by
  unfold drainIfDue
  try dsimp only
  repeat' first
    | (with_reducible assumption) | (with_reducible intro _) | (with_reducible apply startDrain_keeps) | split
    | (with_reducible apply keeps_upd)

theorem makeSuspect_keeps {s0 : State} {s : State} {code : Nat} {unit : Nat} {verdict : Nat} (h : Keeps s0 s) :
    Keeps s0 (makeSuspect s code unit verdict) := by
  unfold makeSuspect
  try dsimp only
  repeat' first
    | (with_reducible assumption) | (with_reducible intro _) | (with_reducible apply recordSuspect_keeps)
    | (with_reducible apply sendPoison_keeps) | (with_reducible apply drainIfDue_keeps) | split
    | (with_reducible apply keeps_upd)

end Sys2Proof.Machine
end

