-- ==== Sys2Proof/Laws/KeepMemory.lean ====
section
/-! SUPPORT. The operations of Machine/Memory.lean keep the queue and the canonical form of memory. -/

namespace Sys2Proof.Machine

open Sys2Proof.Config

theorem uncorrectable_keeps {s0 : State} {s : State} {l : Nat} (h : Keeps s0 s) :
    Keeps s0 (uncorrectable s l) := by
  unfold uncorrectable
  try dsimp only
  repeat' first
    | (with_reducible assumption) | (with_reducible intro _) | (with_reducible apply noteUncorrectable_keeps)
    | (with_reducible apply makeSuspect_keeps) | (with_reducible apply dropBase_keeps) | split
    | (with_reducible apply keeps_upd)

theorem noteRead_keeps {s0 : State} {s : State} {l : Nat} {x2 : Option Nat} (h : Keeps s0 s) :
    Keeps s0 (noteRead s l x2) := by
  unfold noteRead
  try dsimp only
  repeat' first
    | (with_reducible assumption) | (with_reducible intro _) | (with_reducible apply uncorrectable_keeps)
    | (with_reducible apply countCorrected_keeps) | split | (with_reducible apply keeps_upd)

theorem readLine_keeps {s0 : State} {s : State} {l : Nat} (h : Keeps s0 s) :
    Keeps s0 (readLine s l).2 := by
  unfold readLine
  try dsimp only
  repeat' first
    | (with_reducible assumption) | (with_reducible intro _) | (with_reducible apply heldIn_keeps)
    | (with_reducible apply noteRead_keeps) | split | (with_reducible apply keeps_upd)

theorem touchRange_keeps {s0 : State} {s : State} {a : Nat} {n : Nat} (h : Keeps s0 s) :
    Keeps s0 (touchRange s a n) := by
  unfold touchRange
  try dsimp only
  repeat' first
    | (with_reducible assumption) | (with_reducible intro _) | (with_reducible apply readLine_keeps)
    | (with_reducible apply foldl_keeps) | split | (refine foldl_snd_keeps ?_ ?_)
    | (with_reducible apply keeps_upd)

theorem touchStored_keeps {s0 : State} {s : State} {a : Nat} {n : Nat} (h : Keeps s0 s) :
    Keeps s0 (touchStored s a n) := by
  unfold touchStored
  try dsimp only
  repeat' first
    | (with_reducible assumption) | (with_reducible intro _) | (with_reducible apply noteRead_keeps)
    | (with_reducible apply foldl_keeps) | split | (refine foldl_snd_keeps ?_ ?_)
    | (with_reducible apply keeps_upd)

theorem readBytes_keeps {s0 : State} {s : State} {a : Nat} {n : Nat} (h : Keeps s0 s) :
    Keeps s0 (readBytes s a n).2 := by
  unfold readBytes
  try dsimp only
  repeat' first
    | (with_reducible assumption) | (with_reducible intro _) | (with_reducible apply touchRange_keeps) | split
    | (with_reducible apply keeps_upd)

theorem rawWrite_keeps {s0 : State} {s : State} {a : Nat} {bs : List Byte} (h : Keeps s0 s) :
    Keeps s0 (rawWrite s a bs) := by
  unfold rawWrite
  split
  · exact keeps_mem h (memPut_wf _ _)
  · exact putLines_keeps (foldl_keeps (fun _ _ ht => noteRead_keeps ht) h)

theorem guardedPiece_keeps {s0 : State} {s : State} {e : Nat × List Byte} (h : Keeps s0 s) :
    Keeps s0 (guardedPiece s e) := by
  unfold guardedPiece
  try dsimp only
  repeat' first
    | (with_reducible assumption) | (with_reducible intro _) | (with_reducible apply holdWrite_keeps)
    | (with_reducible apply rawWrite_keeps) | split | (with_reducible apply keeps_upd)

theorem guardedWrite_keeps {s0 : State} {s : State} {a : Nat} {bs : List Byte} (h : Keeps s0 s) :
    Keeps s0 (guardedWrite s a bs) := by
  unfold guardedWrite
  try dsimp only
  repeat' first
    | (with_reducible assumption) | (with_reducible intro _) | (with_reducible apply guardedPiece_keeps)
    | (with_reducible apply rawWrite_keeps) | (with_reducible apply foldl_keeps) | split
    | (with_reducible apply keeps_upd)

theorem releaseAll_keeps {s0 : State} {s : State} (h : Keeps s0 s) :
    Keeps s0 (releaseAll s) := by
  unfold releaseAll
  try dsimp only
  repeat' first
    | (with_reducible assumption) | (with_reducible intro _) | (with_reducible apply rawWrite_keeps)
    | (with_reducible apply endHold_keeps) | (with_reducible apply foldl_keeps) | split
    | (with_reducible apply keeps_upd)

theorem failSnapshot_keeps {s0 : State} {s : State} {cause : Nat} (h : Keeps s0 s) :
    Keeps s0 (failSnapshot s cause) := by
  unfold failSnapshot
  try dsimp only
  repeat' first
    | (with_reducible assumption) | (with_reducible intro _) | (with_reducible apply releaseAll_keeps)
    | (with_reducible apply stopSnapshot_keeps) | split | (with_reducible apply keeps_upd)

theorem storeBytes_keeps {s0 : State} {s : State} {a : Nat} {bs : List Byte} (h : Keeps s0 s) :
    Keeps s0 (storeBytes s a bs) := by
  unfold storeBytes
  try dsimp only
  repeat' first
    | (with_reducible assumption) | (with_reducible intro _) | (with_reducible apply jobFault_keeps)
    | (with_reducible apply guardedWrite_keeps) | split | (with_reducible apply keeps_upd)

theorem stepWrite_keeps {s0 : State} {s : State} {a : Nat} {bs : List Byte} (h : Keeps s0 s) :
    Keeps s0 (stepWrite s a bs) := by
  unfold stepWrite
  try dsimp only
  repeat' first
    | (with_reducible assumption) | (with_reducible intro _) | (with_reducible apply storeBytes_keeps) | split
    | (with_reducible apply keeps_upd)

end Sys2Proof.Machine
end

