-- ==== Sys2Proof/Laws/KeepOperands.lean ====
section
/-! SUPPORT. The operations of Machine/Operands.lean keep the queue and the canonical form of memory. -/

namespace Sys2Proof.Machine

open Sys2Proof.Config

theorem placePut_keeps {s0 : State} {s : State} {pl : Place} {o : Nat} {bs : List Byte} (h : Keeps s0 s) :
    Keeps s0 (placePut s pl o bs) := by
  unfold placePut
  exact foldl_fst_keeps (fun t q ht => stepWrite_keeps ht) h

theorem placeTouch_keeps {s0 : State} {s : State} {pl : Place} {o : Nat} {n : Nat} (h : Keeps s0 s) :
    Keeps s0 (placeTouch s pl o n) := by
  unfold placeTouch
  try dsimp only
  repeat' first
    | (with_reducible assumption) | (with_reducible intro _) | (with_reducible apply touchRange_keeps)
    | (with_reducible apply foldl_keeps) | split | (with_reducible apply keeps_upd)

theorem waitExt_keeps {s0 : State} {s : State} {q : Nat} {b : Bool} (h : Keeps s0 s) :
    Keeps s0 (waitExt s q b) := by
  unfold waitExt
  try dsimp only
  repeat' first
    | (with_reducible assumption) | (with_reducible intro _) | (with_reducible apply takeFree_keeps)
    | (with_reducible apply modPanel_keeps) | split | (with_reducible apply keeps_upd)

theorem touchElems_keeps {s0 : State} {s : State} {t : TensorDesc} {pl : Planes} {xs : List Nat} (h : Keeps s0 s) :
    Keeps s0 (touchElems s t pl xs) := by
  unfold touchElems
  try dsimp only
  repeat' first
    | (with_reducible assumption) | (with_reducible intro _) | (with_reducible apply readLine_keeps)
    | (with_reducible apply foldl_keeps) | split | (refine foldl_snd_keeps ?_ ?_)
    | (with_reducible apply keeps_upd)

theorem countFray_keeps {s0 : State} {s : State} {tag : Nat} {slot : Nat} {f : Fray} (h : Keeps s0 s) :
    Keeps s0 (countFray s tag slot f) := by
  unfold countFray
  try dsimp only
  repeat' first
    | (with_reducible assumption) | (with_reducible intro _) | split | (with_reducible apply keeps_upd)

end Sys2Proof.Machine
end

