-- ==== Sys2Proof/Laws/KeepFlags.lean ====
section
/-! SUPPORT. The operations of Machine/Flags.lean keep the queue and the canonical form of memory. -/

namespace Sys2Proof.Machine

open Sys2Proof.Config

theorem setFlag_keeps {s0 : State} {s : State} {q : Nat} {f : Flag} {tag : Nat} (h : Keeps s0 s) :
    Keeps s0 (setFlag s q f tag) := by
  unfold setFlag
  try dsimp only
  repeat' first
    | (with_reducible assumption) | (with_reducible intro _) | (with_reducible apply setPanel_keeps)
    | (with_reducible apply raiseEv_keeps) | split | (with_reducible apply keeps_upd)

theorem setFlagIf_keeps {s0 : State} {s : State} {b : Bool} {q : Nat} {f : Flag} {tag : Nat} (h : Keeps s0 s) :
    Keeps s0 (setFlagIf s b q f tag) := by
  unfold setFlagIf
  try dsimp only
  repeat' first
    | (with_reducible assumption) | (with_reducible intro _) | (with_reducible apply setFlag_keeps) | split
    | (with_reducible apply keeps_upd)

theorem enqueueSlot_keeps {s0 : State} {s : State} {q : Nat} {f : FifoSlot} (h : Keeps s0 s) :
    Keeps s0 (enqueueSlot s q f) := by
  unfold enqueueSlot
  try dsimp only
  repeat' first
    | (with_reducible assumption) | (with_reducible intro _) | (with_reducible apply modPanel_keeps) | split
    | (with_reducible apply keeps_upd)

theorem onPanels_keeps {s0 : State} {s : State} {ps : List Nat} {mk : Nat → FifoSlot} {held : Panel → Bool}
    {act : State → Nat → Out} (ha : ∀ t j, Keeps s0 t → KeepsOut s0 (act t j)) (h : Keeps s0 s) :
    KeepsOut s0 (onPanels s ps mk held act) := by
  unfold onPanels
  split
  · refine eachDo_keeps (fun t j ht => ?_) h
    dsimp only
    split
    · exact keepsOut_next ht
    · split
      · exact keepsOut_next (enqueueSlot_keeps ht)
      · exact ha t j ht
  · exact keepsOut_fault

theorem traceAt_keeps {s0 : State} {s : State} {q : Nat} {kind : Nat} (h : Keeps s0 s) :
    Keeps s0 (traceAt s q kind) := by
  unfold traceAt
  try dsimp only
  repeat' first
    | (with_reducible assumption) | (with_reducible intro _) | (with_reducible apply modPanel_keeps) | split
    | (with_reducible apply keeps_upd)

theorem gatedTime_keeps {s0 : State} {s : State} {port : Nat} (h : Keeps s0 s) :
    Keeps s0 (gatedTime s port) := by
  unfold gatedTime
  try dsimp only
  repeat' first
    | (with_reducible assumption) | (with_reducible intro _) | (with_reducible apply takeFree_keeps)
    | (with_reducible apply modPort_keeps) | split | (with_reducible apply keeps_upd)

theorem injectMark_keeps {s0 : State} {s : State} {kind : Nat} (h : Keeps s0 s) :
    Keeps s0 (injectMark s kind) := by
  unfold injectMark
  try dsimp only
  repeat' first
    | (with_reducible assumption) | (with_reducible intro _) | (with_reducible apply abortAt_keeps)
    | (with_reducible apply foldl_keeps) | split | (with_reducible apply keeps_upd)

end Sys2Proof.Machine
end

