-- ==== Sys2Proof/Laws/KeepFold.lean ====
section
/-! SUPPORT. The operations of Machine/Fold.lean keep the queue and the canonical form of memory. -/

namespace Sys2Proof.Machine

open Sys2Proof.Config

theorem putBlock_keeps {s0 : State} {s : State} {t : TensorDesc} {pl : Planes} {b : Nat} {fb : FoldedBlock} (h : Keeps s0 s) :
    Keeps s0 (putBlock s t pl b fb) := by
  unfold putBlock
  try dsimp only
  repeat' first
    | (with_reducible assumption) | (with_reducible intro _) | (with_reducible apply placePut_keeps)
    | (with_reducible apply foldl_keeps) | split | (with_reducible apply keeps_upd)

theorem putGroup_keeps {s0 : State} {s : State} {t : TensorDesc} {ow : Owner} {b : Nat} {g : Byte × List FoldedBlock} (h : Keeps s0 s) :
    Keeps s0 (putGroup s t ow b g) := by
  unfold putGroup
  try dsimp only
  repeat' first
    | (with_reducible assumption) | (with_reducible intro _) | (with_reducible apply placePut_keeps)
    | (with_reducible apply putBlock_keeps) | (with_reducible apply modPanel_keeps)
    | (with_reducible apply countFray_keeps) | (with_reducible apply foldl_keeps) | split
    | (refine foldl_snd_keeps ?_ ?_) | (with_reducible apply keeps_upd)

theorem putGroups_keeps {s0 : State} {t : TensorDesc} {ow : Owner} : ∀ {l : List (Byte × List FoldedBlock)} {b : Nat}
    {s : State}, Keeps s0 s → Keeps s0 (putGroups t ow l b s)
  | [], _, _, h => h
  | g :: gs, b, s, h => by
    unfold putGroups
    split
    · exact h
    · exact putGroups_keeps (l := gs) (putGroup_keeps h)

theorem putStore_keeps {s0 : State} {s : State} {t : TensorDesc} {pl : Planes} {c : Claim} (h : Keeps s0 s) :
    Keeps s0 (putStore s t pl c) := by
  unfold putStore
  try dsimp only
  repeat' first
    | (with_reducible assumption) | (with_reducible intro _) | (with_reducible apply placePut_keeps) | split
    | (with_reducible apply keeps_upd)

theorem flagReplaced_keeps {s0 : State} {t : TensorDesc} {ow : Owner} : ∀ {l : List (List SrcElem)} {b : Nat}
    {s : State}, Keeps s0 s → Keeps s0 (flagReplaced t ow l b s)
  | [], _, _, h => h
  | g :: gs, b, s, h => by
    unfold flagReplaced
    exact flagReplaced_keeps (l := gs) (setFlagIf_keeps h)

theorem foldInto_keeps {s0 : State} {s : State} {t : TensorDesc} {ow : Owner} {pieces : List (Nat × List (List SrcElem))} {c : Claim} (h : Keeps s0 s) :
    Keeps s0 (foldInto s t ow pieces c).1 := by
  unfold foldInto
  try dsimp only
  repeat' first
    | (with_reducible assumption) | (with_reducible intro _) | (with_reducible apply putGroups_keeps)
    | (with_reducible apply flagReplaced_keeps) | (with_reducible apply setFlagIf_keeps)
    | (with_reducible apply foldl_keeps) | split | (refine foldl_fst_keeps ?_ ?_)
    | (with_reducible apply keeps_upd)

theorem putL16_keeps {s0 : State} {s : State} {p : Package} {step : Nat} {micro : Nat} {t : TensorDesc} {pl : Planes} {sr : Bool} {x : Nat} {v : F32} (h : Keeps s0 s) :
    Keeps s0 (putL16 s p step micro t pl sr x v) := by
  unfold putL16
  try dsimp only
  repeat' first
    | (with_reducible assumption) | (with_reducible intro _) | (with_reducible apply placePut_keeps)
    | (with_reducible apply countFray_keeps) | split | (with_reducible apply keeps_upd)

theorem putWord_keeps {s0 : State} {s : State} {pl : Planes} {x : Nat} {v : F32} (h : Keeps s0 s) :
    Keeps s0 (putWord s pl x v) := by
  unfold putWord
  try dsimp only
  repeat' first
    | (with_reducible assumption) | (with_reducible intro _) | (with_reducible apply placePut_keeps) | split
    | (with_reducible apply keeps_upd)

end Sys2Proof.Machine
end

