-- ==== Sys2Proof/Laws/KeepMatrix.lean ====
section
/-! SUPPORT. The operations of Machine/Matrix.lean keep the queue and the canonical form of memory. -/

namespace Sys2Proof.Machine

open Sys2Proof.Config

theorem runBlock_keeps {s0 : State} {v : ProdView} {d : Nat} {ps : List Nat} {j : Nat} {t : Part} {rp : Planes} {cp : Planes} {s : State} {ru : Nat} {cu : Nat} (h : Keeps s0 s) :
    Keeps s0 (runBlock v d ps j t rp cp s ru cu) := by
  unfold runBlock
  try dsimp only
  repeat' first
    | (with_reducible assumption) | (with_reducible intro _) | (with_reducible apply modPanel_keeps)
    | (with_reducible apply countFray_keeps) | split | (with_reducible apply keeps_upd)

theorem touchPart_keeps {s0 : State} {v : ProdView} {t : Part} {rp : Planes} {cp : Planes} {s : State} (h : Keeps s0 s) :
    Keeps s0 (touchPart v t rp cp s) := by
  unfold touchPart
  try dsimp only
  repeat' first
    | (with_reducible assumption) | (with_reducible intro _) | (with_reducible apply touchElems_keeps) | split
    | (with_reducible apply keeps_upd)

theorem runPart_keeps {s0 : State} {p : Package} {v : ProdView} {d : Nat} {ps : List Nat} {j : Nat} {s : State} (h : Keeps s0 s) :
    Keeps s0 (runPart p v d ps j s) := by
  unfold runPart
  try dsimp only
  repeat' first
    | (with_reducible assumption) | (with_reducible intro _) | (with_reducible apply touchPart_keeps)
    | (with_reducible apply runBlock_keeps) | (with_reducible apply foldl_keeps) | split
    | (with_reducible apply keeps_upd)

theorem prodOn_keeps {s0 : State} {p : Package} {v : ProdView} {d : Nat} {ps : List Nat} {s : State} {j : Nat} (h : Keeps s0 s) :
    KeepsOut s0 (prodOn p v d ps s j) := by
  unfold prodOn
  try dsimp only
  repeat' first
    | (with_reducible assumption) | (with_reducible intro _) | (with_reducible exact keepsOut_fault)
    | (with_reducible exact keepsOut_refused) | (with_reducible apply keepsOut_next)
    | (with_reducible apply runPart_keeps) | (with_reducible apply waitExt_keeps) | split
    | (with_reducible apply keeps_upd)

theorem execProd_keeps {s0 : State} {x : SlotRef} {s : State} (h : Keeps s0 s) :
    KeepsOut s0 (execProd x s) := by
  unfold execProd
  try dsimp only
  repeat' first
    | (with_reducible assumption) | (with_reducible intro _) | (with_reducible exact keepsOut_fault)
    | (with_reducible exact keepsOut_refused) | (with_reducible apply keepsOut_next)
    | (with_reducible apply whenIssuing_keeps) | (with_reducible apply onPanels_keeps)
    | (with_reducible apply prodOn_keeps) | split | (with_reducible apply keeps_upd)

theorem execBankEmit_keeps {s0 : State} {p : Nat} {s : State} (h : Keeps s0 s) :
    KeepsOut s0 (execBankEmit p s) := by
  unfold execBankEmit
  try dsimp only
  repeat' first
    | (with_reducible assumption) | (with_reducible intro _) | (with_reducible exact keepsOut_fault)
    | (with_reducible exact keepsOut_refused) | (with_reducible apply keepsOut_next)
    | (with_reducible apply keepsOut_next) | (with_reducible apply noEvent_keeps)
    | (with_reducible apply modPanel_keeps) | (with_reducible apply setPanel_keeps) | split
    | (with_reducible apply keeps_upd)

theorem execChainHopArrival_keeps {s0 : State} {e : PanelWait} {s : State} (h : Keeps s0 s) :
    KeepsOut s0 (execChainHopArrival e s) := by
  unfold execChainHopArrival
  try dsimp only
  repeat' first
    | (with_reducible assumption) | (with_reducible intro _) | (with_reducible exact keepsOut_fault)
    | (with_reducible exact keepsOut_refused) | (with_reducible apply keepsOut_next)
    | (with_reducible apply keepsOut_next) | (with_reducible apply noEvent_keeps)
    | (with_reducible apply modPanel_keeps) | (with_reducible apply setPanel_keeps) | split
    | (with_reducible apply keeps_upd)

theorem skipSelection_keeps {s0 : State} {s : State} {q : Nat} {inel : Bool} (h : Keeps s0 s) :
    Keeps s0 (skipSelection s q inel) := by
  unfold skipSelection
  try dsimp only
  repeat' first
    | (with_reducible assumption) | (with_reducible intro _) | (with_reducible apply modPanel_keeps)
    | (with_reducible apply modHub_keeps) | split | (with_reducible apply keeps_upd)

theorem basteSelect_keeps {s0 : State} {s : State} {p : Package} {q : Nat} {draw : Nat} {t : Tile} (h : Keeps s0 s) :
    Keeps s0 (basteSelect s p q draw t).2 := by
  unfold basteSelect
  try dsimp only
  repeat' first
    | (with_reducible assumption) | (with_reducible intro _) | (with_reducible apply modHub_keeps)
    | (with_reducible apply skipSelection_keeps) | split | (with_reducible apply keeps_upd)

theorem execTilePush_keeps {s0 : State} {e : PanelWait} {draw : Nat} {flt : List (Nat × W32)} {s : State} (h : Keeps s0 s) :
    KeepsOut s0 (execTilePush e draw flt s) := by
  unfold execTilePush
  try dsimp only
  repeat' first
    | (with_reducible assumption) | (with_reducible intro _) | (with_reducible exact keepsOut_fault)
    | (with_reducible exact keepsOut_refused) | (with_reducible apply keepsOut_next)
    | (with_reducible apply whenRunning_keeps) | (with_reducible apply keepsOut_next)
    | (with_reducible apply noEvent_keeps) | (with_reducible apply traceAt_keeps)
    | (with_reducible apply modPanel_keeps) | (with_reducible apply setFlag_keeps)
    | (with_reducible apply basteSelect_keeps) | (with_reducible apply setFlagIf_keeps) | split
    | (with_reducible apply keeps_upd)

theorem foldNarrow_keeps {s0 : State} {s : State} {p : Package} {fd : FoldDesc} {ts : TensorDesc} {td : TensorDesc} {ps : List Nat} (h : Keeps s0 s) :
    Keeps s0 (foldNarrow s p fd ts td ps) := by
  unfold foldNarrow
  try dsimp only
  repeat' first
    | (with_reducible assumption) | (with_reducible intro _) | (with_reducible apply foldInto_keeps)
    | (with_reducible apply putStore_keeps) | split | (with_reducible apply keeps_upd)

theorem foldL16_keeps {s0 : State} {s : State} {p : Package} {fd : FoldDesc} {ts : TensorDesc} {td : TensorDesc} {ps : List Nat} (h : Keeps s0 s) :
    Keeps s0 (foldL16 s p fd ts td ps) := by
  unfold foldL16
  try dsimp only
  repeat' first
    | (with_reducible assumption) | (with_reducible intro _) | (with_reducible apply putL16_keeps)
    | (with_reducible apply foldl_keeps) | split | (with_reducible apply keeps_upd)

theorem foldTouch_keeps {s0 : State} {s : State} {p : Package} {fd : FoldDesc} {ts : TensorDesc} {td : TensorDesc} {ps : List Nat} (h : Keeps s0 s) :
    Keeps s0 (foldTouch s p fd ts td ps) := by
  unfold foldTouch
  try dsimp only
  repeat' first
    | (with_reducible assumption) | (with_reducible intro _) | (with_reducible apply waitExt_keeps)
    | (with_reducible apply touchElems_keeps) | (with_reducible apply foldl_keeps) | split
    | (with_reducible apply keeps_upd)

theorem foldOn_keeps {s0 : State} {p : Package} {fd : FoldDesc} {ps : List Nat} {s : State} (h : Keeps s0 s) :
    KeepsOut s0 (foldOn p fd ps s) := by
  unfold foldOn
  try dsimp only
  repeat' first
    | (with_reducible assumption) | (with_reducible intro _) | (with_reducible exact keepsOut_fault)
    | (with_reducible exact keepsOut_refused) | (with_reducible apply keepsOut_next)
    | (with_reducible apply foldTouch_keeps) | (with_reducible apply foldNarrow_keeps)
    | (with_reducible apply foldL16_keeps) | split | (with_reducible apply keeps_upd)

theorem execFold_keeps {s0 : State} {x : SlotRef} {s : State} (h : Keeps s0 s) :
    KeepsOut s0 (execFold x s) := by
  unfold execFold
  try dsimp only
  repeat' first
    | (with_reducible assumption) | (with_reducible intro _) | (with_reducible exact keepsOut_fault)
    | (with_reducible exact keepsOut_refused) | (with_reducible apply keepsOut_next)
    | (with_reducible apply whenIssuing_keeps) | (with_reducible apply onPanels_keeps)
    | (with_reducible apply foldOn_keeps) | split | (with_reducible apply keeps_upd)

end Sys2Proof.Machine
end

