-- ==== Sys2Proof/Laws/KeepSpool.lean ====
section
/-! SUPPORT. The operations of Machine/Spool.lean keep the queue and the canonical form of memory. -/

namespace Sys2Proof.Machine

open Sys2Proof.Config

theorem startOp_keeps {s0 : State} {s : State} {queue : Nat} {k : MovKind} (h : Keeps s0 s) :
    Keeps s0 (startOp s queue k) := by
  unfold startOp
  try dsimp only
  repeat' first
    | (with_reducible assumption) | (with_reducible intro _) | split | (with_reducible apply keeps_upd)

theorem modSpool_keeps {s0 : State} {s : State} {q : Nat} {f : Spool → Spool} (h : Keeps s0 s) :
    Keeps s0 (modSpool s q f) := by
  unfold modSpool
  try dsimp only
  repeat' first
    | (with_reducible assumption) | (with_reducible intro _) | (with_reducible apply modPanel_keeps) | split
    | (with_reducible apply keeps_upd)

theorem modSpoolStat_keeps {s0 : State} {s : State} {q : Nat} {f : SpoolStat → SpoolStat} (h : Keeps s0 s) :
    Keeps s0 (modSpoolStat s q f) := by
  unfold modSpoolStat
  try dsimp only
  repeat' first
    | (with_reducible assumption) | (with_reducible intro _) | (with_reducible apply modSpool_keeps) | split
    | (with_reducible apply keeps_upd)

theorem raiseWater_keeps {s0 : State} {s : State} {q : Nat} (h : Keeps s0 s) :
    Keeps s0 (raiseWater s q) := by
  unfold raiseWater
  try dsimp only
  repeat' first
    | (with_reducible assumption) | (with_reducible intro _) | (with_reducible apply modSpool_keeps) | split
    | (with_reducible apply keeps_upd)

theorem allocPush_keeps {s0 : State} {p : Package} {s : State} {q : Nat} {d : Nat} {micro : Nat} {t : TensorDesc} (h : Keeps s0 s) :
    Keeps s0 (allocPush p s q d micro t) := by
  unfold allocPush
  try dsimp only
  repeat' first
    | (with_reducible assumption) | (with_reducible intro _) | (with_reducible apply modSpool_keeps)
    | (with_reducible apply raiseWater_keeps) | (with_reducible apply placePut_keeps) | split
    | (with_reducible apply keeps_upd)

theorem voidPush_keeps {s0 : State} {s : State} {q : Nat} {d : Nat} {micro : Nat} {t : TensorDesc} (h : Keeps s0 s) :
    Keeps s0 (voidPush s q d micro t) := by
  unfold voidPush
  try dsimp only
  repeat' first
    | (with_reducible assumption) | (with_reducible intro _) | (with_reducible apply modSpool_keeps)
    | (with_reducible apply raiseEv_keeps) | (with_reducible apply setFlag_keeps) | split
    | (with_reducible apply keeps_upd)

theorem startReturn_keeps {s0 : State} {p : Package} {s : State} {q : Nat} (h : Keeps s0 s) :
    Keeps s0 (startReturn p s q) := by
  unfold startReturn
  try dsimp only
  repeat' first
    | (with_reducible assumption) | (with_reducible intro _) | (with_reducible apply modSpool_keeps) | split
    | (with_reducible apply keeps_upd)

theorem releaseTop_keeps {s0 : State} {p : Package} {s : State} {q : Nat} (h : Keeps s0 s) :
    Keeps s0 (releaseTop p s q) := by
  unfold releaseTop
  try dsimp only
  repeat' first
    | (with_reducible assumption) | (with_reducible intro _) | (with_reducible apply startReturn_keeps)
    | (with_reducible apply modSpool_keeps) | split | (with_reducible apply keeps_upd)

theorem tryPush_keeps {s0 : State} {p : Package} {s : State} {q : Nat} {d : Nat} {micro : Nat} {t : TensorDesc} (h : Keeps s0 s) :
    KeepsOpt s0 (tryPush p s q d micro t) := by
  unfold tryPush
  try dsimp only
  repeat' first
    | (with_reducible assumption) | (with_reducible intro _) | (with_reducible exact keepsOpt_none)
    | (with_reducible apply keepsOpt_some) | (with_reducible apply voidPush_keeps)
    | (with_reducible apply allocPush_keeps) | split | (with_reducible apply keeps_upd)

theorem tryPop_keeps {s0 : State} {p : Package} {s : State} {q : Nat} (h : Keeps s0 s) :
    KeepsOpt s0 (tryPop p s q) := by
  unfold tryPop
  try dsimp only
  repeat' first
    | (with_reducible assumption) | (with_reducible intro _) | (with_reducible exact keepsOpt_none)
    | (with_reducible apply keepsOpt_some) | (with_reducible apply releaseTop_keeps) | split
    | (with_reducible apply keeps_upd)

theorem tryOp_keeps {s0 : State} {p : Package} {s : State} {q : Nat} {o : SpoolOp} (h : Keeps s0 s) :
    KeepsOpt s0 (tryOp p s q o) := by
  unfold tryOp
  split
  · intro t e
    obtain ⟨d, -, hd⟩ := Option.bind_eq_some_iff.mp e
    exact tryPush_keeps h t hd
  · exact tryPop_keeps h

theorem spoolDo_keeps {s0 : State} {p : Package} {o : SpoolOp} {s : State} {q : Nat} (h : Keeps s0 s) :
    Keeps s0 (spoolDo p o s q) := by
  unfold spoolDo
  dsimp only
  split
  · exact modSpool_keeps h
  · split
    · rename_i t ht
      exact tryOp_keeps h t ht
    · exact startReturn_keeps (modSpool_keeps h)

theorem drainWaits_keeps {s0 : State} {p : Package} {q : Nat} : ∀ {n : Nat} {s : State}, Keeps s0 s →
    Keeps s0 (drainWaits p q n s)
  | 0, _, h => h
  | n + 1, s, h => by
    unfold drainWaits
    split
    · exact h
    · split
      · exact h
      · rename_i t ht
        exact drainWaits_keeps (n := n) (modSpool_keeps (tryOp_keeps h t ht))

theorem afterMove_keeps {s0 : State} {p : Package} {q : Nat} {s : State} (h : Keeps s0 s) :
    Keeps s0 (afterMove p q s) := by
  unfold afterMove
  try dsimp only
  repeat' first
    | (with_reducible assumption) | (with_reducible intro _) | (with_reducible apply startReturn_keeps)
    | (with_reducible apply drainWaits_keeps) | split | (with_reducible apply keeps_upd)

theorem execSpush_keeps {s0 : State} {x : MovRef} {s : State} (h : Keeps s0 s) :
    KeepsOut s0 (execSpush x s) := by
  unfold execSpush
  refine whenIssuing_keeps (fun p => ?_)
  split
  · exact keepsOut_fault
  · split
    · exact onPanels_keeps (fun _ _ ht => keepsOut_next (spoolDo_keeps ht)) (startOp_keeps h)
    · exact keepsOut_fault

theorem spillBottom_keeps {s0 : State} {p : Package} {s : State} {q : Nat} {e : SpoolEntry} {rest : List SpoolEntry} (h : Keeps s0 s) :
    Keeps s0 (spillBottom p s q e rest) := by
  unfold spillBottom
  try dsimp only
  repeat' first
    | (with_reducible assumption) | (with_reducible intro _) | (with_reducible apply placeTouch_keeps)
    | (with_reducible apply stepWrite_keeps) | (with_reducible apply modSpool_keeps)
    | (with_reducible apply raiseWater_keeps) | (with_reducible apply setFlag_keeps) | split
    | (with_reducible apply keeps_upd)

theorem execSpop_keeps {s0 : State} {x : MovRef} {s : State} (h : Keeps s0 s) :
    KeepsOut s0 (execSpop x s) := by
  unfold execSpop
  refine whenIssuing_keeps (fun p => ?_)
  split
  · exact keepsOut_fault
  · split
    · exact onPanels_keeps (fun _ _ ht => keepsOut_next (spoolDo_keeps ht)) (startOp_keeps h)
    · exact keepsOut_fault

theorem returnTop_keeps {s0 : State} {p : Package} {s : State} {q : Nat} {e : SpoolEntry} (h : Keeps s0 s) :
    Keeps s0 (returnTop p s q e) := by
  unfold returnTop
  try dsimp only
  repeat' first
    | (with_reducible assumption) | (with_reducible intro _) | (with_reducible apply readBytes_keeps)
    | (with_reducible apply placePut_keeps) | (with_reducible apply raiseWater_keeps)
    | (with_reducible apply modSpool_keeps) | split | (with_reducible apply keeps_upd)

end Sys2Proof.Machine
end

