-- ==== Sys2Proof/Laws/KeepMover.lean ====
section
/-! SUPPORT. The operations of Machine/Mover.lean keep the queue and the canonical form of memory. -/

namespace Sys2Proof.Machine

open Sys2Proof.Config

theorem copyOn_keeps {s0 : State} {p : Package} {m : MoveDesc} {d : Nat} {ps : List Nat} {s : State} {j : Nat} (h : Keeps s0 s) :
    KeepsOut s0 (copyOn p m d ps s j) := by
  unfold copyOn
  try dsimp only
  repeat' first
    | (with_reducible assumption) | (with_reducible intro _) | (with_reducible exact keepsOut_fault)
    | (with_reducible exact keepsOut_refused) | (with_reducible apply keepsOut_next)
    | (with_reducible apply waitExt_keeps) | (with_reducible apply placePut_keeps)
    | (with_reducible apply placeTouch_keeps) | split | (with_reducible apply keeps_upd)

theorem unlessAbandoned_keeps {s0 : State} {s : State} {f : State → State} (hf : ∀ t, Keeps s0 t → Keeps s0 (f t))
    (h : Keeps s0 s) : Keeps s0 (unlessAbandoned s f) := by
  unfold unlessAbandoned
  split
  · exact h
  · exact hf _ h

theorem tagHeld_keeps {s0 : State} {id : Nat} {n : Nat} {s : State} (h : Keeps s0 s) :
    Keeps s0 (tagHeld id n s) := by
  unfold tagHeld
  try dsimp only
  repeat' first
    | (with_reducible assumption) | (with_reducible intro _) | split | exact id
    | (with_reducible apply keeps_upd)

theorem moverDo_keeps {s0 : State} {s : State} {queue : Nat} {k : MovKind} {f : State → Out}
    (hf : ∀ t, Keeps s0 t → KeepsOut s0 (f t)) (h : Keeps s0 s) : KeepsOut s0 (moverDo s queue k f) := by
  unfold moverDo
  exact outThen_keeps (hf _ (startOp_keeps h)) (fun _ ht => keepsOut_next (tagHeld_keeps ht))

theorem execCopy_keeps {s0 : State} {x : MovRef} {s : State} (h : Keeps s0 s) :
    KeepsOut s0 (execCopy x s) := by
  unfold execCopy
  try dsimp only
  repeat' first
    | (with_reducible assumption) | (with_reducible intro _) | (with_reducible exact keepsOut_fault)
    | (with_reducible exact keepsOut_refused) | (with_reducible apply keepsOut_next)
    | (with_reducible apply whenIssuing_keeps) | (with_reducible apply moverDo_keeps)
    | (with_reducible apply onPanels_keeps) | (with_reducible apply copyOn_keeps) | split
    | (with_reducible apply keeps_upd)

theorem applyElem_keeps {s0 : State} {td : TensorDesc} {tw : TensorDesc} {tr : TensorDesc} {pd : Planes} {pw : Planes} {pr : Planes} {q : Nat} {s : State} {x : Nat} (h : Keeps s0 s) :
    Keeps s0 (applyElem td tw tr pd pw pr q s x) := by
  unfold applyElem
  try dsimp only
  repeat' first
    | (with_reducible assumption) | (with_reducible intro _) | (with_reducible apply placePut_keeps)
    | (with_reducible apply modSpoolStat_keeps) | (with_reducible apply setFlagIf_keeps)
    | (with_reducible apply countFray_keeps) | split | (with_reducible apply keeps_upd)

theorem applyOn_keeps {s0 : State} {p : Package} {dd : Nat} {dw : Nat} {dr : Nat} {td : TensorDesc} {tw : TensorDesc} {tr : TensorDesc} {ps : List Nat} {s : State} {j : Nat} (h : Keeps s0 s) :
    KeepsOut s0 (applyOn p dd dw dr td tw tr ps s j) := by
  unfold applyOn
  try dsimp only
  repeat' first
    | (with_reducible assumption) | (with_reducible intro _) | (with_reducible exact keepsOut_fault)
    | (with_reducible exact keepsOut_refused) | (with_reducible apply keepsOut_next)
    | (with_reducible apply waitExt_keeps) | (with_reducible apply unlessAbandoned_keeps)
    | (with_reducible apply touchElems_keeps) | (with_reducible apply applyElem_keeps)
    | (with_reducible apply foldl_keeps) | split | (with_reducible apply keeps_upd)

theorem execApply_keeps {s0 : State} {x : MovRef} {s : State} (h : Keeps s0 s) :
    KeepsOut s0 (execApply x s) := by
  unfold execApply
  try dsimp only
  repeat' first
    | (with_reducible assumption) | (with_reducible intro _) | (with_reducible exact keepsOut_fault)
    | (with_reducible exact keepsOut_refused) | (with_reducible apply keepsOut_next)
    | (with_reducible apply whenIssuing_keeps) | (with_reducible apply moverDo_keeps)
    | (with_reducible apply onPanels_keeps) | (with_reducible apply applyOn_keeps) | split
    | (with_reducible apply keeps_upd)

theorem ingestData_keeps {s0 : State} {s : State} {d : StreamDesc} {micro : Nat} {ps : List Nat} (h : Keeps s0 s) :
    KeepsOut s0 (ingestData s d micro ps) := by
  unfold ingestData
  try dsimp only
  repeat' first
    | (with_reducible assumption) | (with_reducible intro _) | (with_reducible exact keepsOut_fault)
    | (with_reducible exact keepsOut_refused) | (with_reducible apply keepsOut_next)
    | (with_reducible apply readBytes_keeps) | (with_reducible apply stepWrite_keeps)
    | (with_reducible apply foldl_keeps) | split | (with_reducible apply keeps_upd)

theorem setOp_keeps {s0 : State} {s : State} {id : Nat} {k : MovKind} (h : Keeps s0 s) :
    Keeps s0 (setOp s id k) := by
  unfold setOp
  try dsimp only
  repeat' first
    | (with_reducible assumption) | (with_reducible intro _) | split | exact id
    | (with_reducible apply keeps_upd)

theorem execIngest_keeps {s0 : State} {x : MovRef} {s : State} (h : Keeps s0 s) :
    KeepsOut s0 (execIngest x s) := by
  unfold execIngest
  try dsimp only
  repeat' first
    | (with_reducible assumption) | (with_reducible intro _) | (with_reducible exact keepsOut_fault)
    | (with_reducible exact keepsOut_refused) | (with_reducible apply keepsOut_next)
    | (with_reducible apply whenIssuing_keeps) | (with_reducible apply moverDo_keeps)
    | (with_reducible apply ingestData_keeps) | (with_reducible apply startOp_keeps) | split
    | (with_reducible apply keeps_upd)

theorem execIngestCopy_keeps {s0 : State} {op : Nat} {s : State} (h : Keeps s0 s) :
    KeepsOut s0 (execIngestCopy op s) := by
  unfold execIngestCopy
  try dsimp only
  repeat' first
    | (with_reducible assumption) | (with_reducible intro _) | (with_reducible exact keepsOut_fault)
    | (with_reducible exact keepsOut_refused) | (with_reducible apply keepsOut_next)
    | (with_reducible apply whenRunning_keeps) | (with_reducible apply outThen_keeps)
    | (with_reducible apply keepsOut_next) | (with_reducible apply ingestData_keeps)
    | (with_reducible apply setOp_keeps) | (with_reducible apply tagHeld_keeps)
    | (with_reducible apply noEvent_keeps) | split | (with_reducible apply keeps_upd)

theorem emitPump_keeps {s0 : State} {s : State} {o : MovOp} (h : Keeps s0 s) : Keeps s0 (emitPump s o) := by
  unfold emitPump
  split
  · refine setOp_keeps (foldl_fst_keeps (fun t u ht => ?_) h)
    exact spread_keeps ht
  · exact h

theorem pumpEmits_keeps {s0 : State} {s : State} (h : Keeps s0 s) :
    Keeps s0 (pumpEmits s) := by
  unfold pumpEmits
  try dsimp only
  repeat' first
    | (with_reducible assumption) | (with_reducible intro _) | (with_reducible apply emitPump_keeps)
    | (with_reducible apply foldl_keeps) | split | (with_reducible apply keeps_upd)

theorem execEmit_keeps {s0 : State} {x : MovRef} {s : State} (h : Keeps s0 s) :
    KeepsOut s0 (execEmit x s) := by
  unfold execEmit
  try dsimp only
  repeat' first
    | (with_reducible assumption) | (with_reducible intro _) | (with_reducible exact keepsOut_fault)
    | (with_reducible exact keepsOut_refused) | (with_reducible apply keepsOut_next)
    | (with_reducible apply whenIssuing_keeps) | (with_reducible apply readBytes_keeps)
    | (with_reducible apply unlessAbandoned_keeps) | (with_reducible apply pumpEmits_keeps)
    | (with_reducible apply startOp_keeps) | split | (with_reducible apply keeps_upd)

theorem setNoteQueue_keeps {s0 : State} {s : State} {m : Nat} {v : NoteQueue} (h : Keeps s0 s) :
    Keeps s0 (setNoteQueue s m v) := by
  unfold setNoteQueue
  try dsimp only
  repeat' first
    | (with_reducible assumption) | (with_reducible intro _) | split | (with_reducible apply keeps_upd)

theorem pushNote_keeps {s0 : State} {s : State} {m : Nat} {n : NoteRec} (h : Keeps s0 s) :
    Keeps s0 (pushNote s m n) := by
  unfold pushNote
  try dsimp only
  repeat' first
    | (with_reducible assumption) | (with_reducible intro _) | (with_reducible apply hostSend_keeps) | split
    | (with_reducible apply keeps_upd)

theorem postNote_keeps {s0 : State} {s : State} {m : Nat} {n : NoteRec} (h : Keeps s0 s) :
    Keeps s0 (postNote s m n) := by
  unfold postNote
  try dsimp only
  repeat' first
    | (with_reducible assumption) | (with_reducible intro _) | (with_reducible apply setNoteQueue_keeps)
    | (with_reducible apply pushNote_keeps) | (with_reducible apply raiseEv_keeps) | split
    | (with_reducible apply keeps_upd)

theorem execNote_keeps {s0 : State} {x : MovRef} {s : State} (h : Keeps s0 s) :
    KeepsOut s0 (execNote x s) := by
  unfold execNote
  try dsimp only
  repeat' first
    | (with_reducible assumption) | (with_reducible intro _) | (with_reducible exact keepsOut_fault)
    | (with_reducible exact keepsOut_refused) | (with_reducible apply keepsOut_next)
    | (with_reducible apply whenIssuing_keeps) | (with_reducible apply readBytes_keeps)
    | (with_reducible apply unlessAbandoned_keeps) | (with_reducible apply postNote_keeps)
    | (with_reducible apply startOp_keeps) | split | (with_reducible apply keeps_upd)

theorem execMoverCompletion_keeps {s0 : State} {queue : Nat} {op : Nat} {s : State} (h : Keeps s0 s) :
    KeepsOut s0 (execMoverCompletion queue op s) := by
  unfold execMoverCompletion
  try dsimp only
  repeat' first
    | (with_reducible assumption) | (with_reducible intro _) | (with_reducible exact keepsOut_fault)
    | (with_reducible exact keepsOut_refused) | (with_reducible apply keepsOut_next)
    | (with_reducible apply keepsOut_next) | (with_reducible apply noEvent_keeps)
    | (with_reducible apply tryEndJob_keeps) | split | exact id | (with_reducible apply keeps_upd)

end Sys2Proof.Machine
end

