-- ==== Sys2Proof/Laws/KeepPower.lean ====
section
/-! SUPPORT. The operations of Machine/Power.lean keep the queue and the canonical form of memory. -/

namespace Sys2Proof.Machine

open Sys2Proof.Config

theorem modPower_keeps {s0 : State} {s : State} {f : Power → Power} (h : Keeps s0 s) :
    Keeps s0 (modPower s f) := by
  unfold modPower
  try dsimp only
  repeat' first
    | (with_reducible assumption) | (with_reducible intro _) | split | (with_reducible apply keeps_upd)

theorem exitFixed_keeps {s0 : State} {s : State} {cause : Nat} (h : Keeps s0 s) :
    Keeps s0 (exitFixed s cause) := by
  unfold exitFixed
  try dsimp only
  repeat' first
    | (with_reducible assumption) | (with_reducible intro _) | (with_reducible apply raiseEv_keeps)
    | (with_reducible apply modPower_keeps) | split | (with_reducible apply keeps_upd)

theorem fixedCheck_keeps {s0 : State} {s : State} (h : Keeps s0 s) :
    Keeps s0 (fixedCheck s) := by
  unfold fixedCheck
  try dsimp only
  repeat' first
    | (with_reducible assumption) | (with_reducible intro _) | (with_reducible apply exitFixed_keeps) | split
    | (with_reducible apply keeps_upd)

theorem fixedAtPoint_keeps {s0 : State} {s : State} (h : Keeps s0 s) :
    Keeps s0 (fixedAtPoint s) := by
  unfold fixedAtPoint
  try dsimp only
  repeat' first
    | (with_reducible assumption) | (with_reducible intro _) | (with_reducible apply modPower_keeps)
    | (with_reducible apply exitFixed_keeps) | split | (with_reducible apply keeps_upd)

theorem switchClock_keeps {s0 : State} {s : State} {g : Nat} (h : Keeps s0 s) :
    Keeps s0 (switchClock s g) := by
  unfold switchClock
  try dsimp only
  repeat' first
    | (with_reducible assumption) | (with_reducible intro _) | split | (with_reducible apply keeps_upd)

theorem changeGrade_keeps {s0 : State} {s : State} {g : Nat} (h : Keeps s0 s) :
    Keeps s0 (changeGrade s g) := by
  unfold changeGrade
  try dsimp only
  repeat' first
    | (with_reducible assumption) | (with_reducible intro _) | (with_reducible apply modPower_keeps)
    | (with_reducible apply switchClock_keeps) | split | (with_reducible apply keeps_upd)

theorem execClockSwitch_keeps {s0 : State} {s : State} (h : Keeps s0 s) :
    KeepsOut s0 (execClockSwitch s) := by
  unfold execClockSwitch
  try dsimp only
  repeat' first
    | (with_reducible assumption) | (with_reducible intro _) | (with_reducible exact keepsOut_fault)
    | (with_reducible exact keepsOut_refused) | (with_reducible apply keepsOut_next)
    | (with_reducible apply keepsOut_next) | (with_reducible apply noEvent_keeps)
    | (with_reducible apply modPower_keeps) | (with_reducible apply switchClock_keeps) | split
    | (with_reducible apply keeps_upd)

theorem execGradeDeferred_keeps {s0 : State} {s : State} (h : Keeps s0 s) :
    KeepsOut s0 (execGradeDeferred s) := by
  unfold execGradeDeferred
  try dsimp only
  repeat' first
    | (with_reducible assumption) | (with_reducible intro _) | (with_reducible exact keepsOut_fault)
    | (with_reducible exact keepsOut_refused) | (with_reducible apply keepsOut_next)
    | (with_reducible apply keepsOut_next) | (with_reducible apply noEvent_keeps)
    | (with_reducible apply raiseEv_keeps) | (with_reducible apply modPower_keeps) | split
    | (with_reducible apply keeps_upd)

theorem execClockTrim_keeps {s0 : State} {island : Nat} {s : State} (h : Keeps s0 s) :
    KeepsOut s0 (execClockTrim island s) := by
  unfold execClockTrim
  try dsimp only
  repeat' first
    | (with_reducible assumption) | (with_reducible intro _) | (with_reducible exact keepsOut_fault)
    | (with_reducible exact keepsOut_refused) | (with_reducible apply keepsOut_next)
    | (with_reducible apply raiseEv_keeps) | split | (with_reducible apply keeps_upd)

theorem beginPinch_keeps {s0 : State} {s : State} {sleeve : Nat} (h : Keeps s0 s) :
    Keeps s0 (beginPinch s sleeve) := by
  unfold beginPinch
  try dsimp only
  repeat' first
    | (with_reducible assumption) | (with_reducible intro _) | (with_reducible apply modPower_keeps)
    | (with_reducible apply modHub_keeps) | split | (with_reducible apply keeps_upd)

theorem execPinch_keeps {s0 : State} {sleeve : Nat} {s : State} (h : Keeps s0 s) :
    KeepsOut s0 (execPinch sleeve s) := by
  unfold execPinch
  try dsimp only
  repeat' first
    | (with_reducible assumption) | (with_reducible intro _) | (with_reducible exact keepsOut_fault)
    | (with_reducible exact keepsOut_refused) | (with_reducible apply keepsOut_next)
    | (with_reducible apply keepsOut_next) | (with_reducible apply noEvent_keeps)
    | (with_reducible apply beginPinch_keeps) | split | (with_reducible apply keeps_upd)

theorem lateSwitch_keeps {s0 : State} {s : State} (h : Keeps s0 s) :
    Keeps s0 (lateSwitch s) := by
  unfold lateSwitch
  try dsimp only
  repeat' first
    | (with_reducible assumption) | (with_reducible intro _) | (with_reducible apply switchClock_keeps) | split
    | (with_reducible apply keeps_upd)

theorem execPinchEnd_keeps {s0 : State} {sleeve : Nat} {stillLow : Bool} {s : State} (h : Keeps s0 s) :
    KeepsOut s0 (execPinchEnd sleeve stillLow s) := by
  unfold execPinchEnd
  try dsimp only
  repeat' first
    | (with_reducible assumption) | (with_reducible intro _) | (with_reducible exact keepsOut_fault)
    | (with_reducible exact keepsOut_refused) | (with_reducible apply keepsOut_next)
    | (with_reducible apply keepsOut_next) | (with_reducible apply lateSwitch_keeps)
    | (with_reducible apply beginPinch_keeps) | (with_reducible apply modHub_keeps)
    | (with_reducible apply noEvent_keeps) | split | (with_reducible apply keeps_upd)

theorem execPinchRate_keeps {s0 : State} {sleeve : Nat} {_count : Nat} {s : State} (h : Keeps s0 s) :
    KeepsOut s0 (execPinchRate sleeve _count s) := by
  unfold execPinchRate
  try dsimp only
  repeat' first
    | (with_reducible assumption) | (with_reducible intro _) | (with_reducible exact keepsOut_fault)
    | (with_reducible exact keepsOut_refused) | (with_reducible apply keepsOut_next)
    | (with_reducible apply keepsOut_next) | (with_reducible apply noEvent_keeps)
    | (with_reducible apply raiseEv_keeps) | (with_reducible apply setCause_keeps)
    | (with_reducible apply modPower_keeps) | split | (with_reducible apply keeps_upd)

theorem execBudgetExpired_keeps {s0 : State} {s : State} (h : Keeps s0 s) :
    KeepsOut s0 (execBudgetExpired s) := by
  unfold execBudgetExpired
  try dsimp only
  repeat' first
    | (with_reducible assumption) | (with_reducible intro _) | (with_reducible exact keepsOut_fault)
    | (with_reducible exact keepsOut_refused) | (with_reducible apply keepsOut_next)
    | (with_reducible apply keepsOut_next) | (with_reducible apply noEvent_keeps)
    | (with_reducible apply fixedCheck_keeps) | (with_reducible apply raiseEv_keeps)
    | (with_reducible apply modPower_keeps) | split | (with_reducible apply keeps_upd)

theorem openWindow_keeps {s0 : State} {s : State} (h : Keeps s0 s) :
    Keeps s0 (openWindow s) := by
  unfold openWindow
  try dsimp only
  repeat' first
    | (with_reducible assumption) | (with_reducible intro _) | (with_reducible apply fixedCheck_keeps)
    | (with_reducible apply modPower_keeps) | split | (with_reducible apply keeps_upd)

theorem heatWatch_keeps {s0 : State} {s : State} (h : Keeps s0 s) :
    Keeps s0 (heatWatch s) := by
  unfold heatWatch
  try dsimp only
  repeat' first
    | (with_reducible assumption) | (with_reducible intro _) | split | (with_reducible apply keeps_upd)

theorem releasePower_keeps {s0 : State} {s : State} (h : Keeps s0 s) :
    Keeps s0 (releasePower s) := by
  unfold releasePower
  try dsimp only
  repeat' first
    | (with_reducible assumption) | (with_reducible intro _) | (with_reducible apply modPower_keeps)
    | (with_reducible apply clearCause_keeps) | split | (with_reducible apply keeps_upd)

theorem snapWatch_keeps {s0 : State} {s : State} (h : Keeps s0 s) :
    Keeps s0 (snapWatch s) := by
  unfold snapWatch
  try dsimp only
  repeat' first
    | (with_reducible assumption) | (with_reducible intro _) | (with_reducible apply tryEndJob_keeps)
    | (with_reducible apply failSnapshot_keeps) | split | (with_reducible apply keeps_upd)

theorem powerWindow_keeps {s0 : State} {p : Nat} {pCore : Nat} {vIn : Nat} {vCore : Nat} {s : State} (h : Keeps s0 s) :
    KeepsOut s0 (powerWindow p pCore vIn vCore s) := by
  unfold powerWindow
  try dsimp only
  repeat' first
    | (with_reducible assumption) | (with_reducible intro _) | (with_reducible exact keepsOut_fault)
    | (with_reducible exact keepsOut_refused) | (with_reducible apply keepsOut_next)
    | (with_reducible apply keepsOut_next) | (with_reducible apply snapWatch_keeps)
    | (with_reducible apply openWindow_keeps) | (with_reducible apply releasePower_keeps)
    | (with_reducible apply heatWatch_keeps) | (with_reducible apply noEvent_keeps) | split
    | (with_reducible apply keeps_upd)

theorem execCapUnmet_keeps {s0 : State} {s : State} (h : Keeps s0 s) :
    KeepsOut s0 (execCapUnmet s) := by
  unfold execCapUnmet
  try dsimp only
  repeat' first
    | (with_reducible assumption) | (with_reducible intro _) | (with_reducible exact keepsOut_fault)
    | (with_reducible exact keepsOut_refused) | (with_reducible apply keepsOut_next)
    | (with_reducible apply keepsOut_next) | (with_reducible apply setCause_keeps)
    | (with_reducible apply raiseEv_keeps) | (with_reducible apply modPower_keeps)
    | (with_reducible apply noEvent_keeps) | split | (with_reducible apply keeps_upd)

end Sys2Proof.Machine
end

