-- ==== Sys2Proof/Laws/KeepRails.lean ====
section
/-! SUPPORT. The operations of Machine/Rails.lean keep the queue and the canonical form of memory. -/

namespace Sys2Proof.Machine

open Sys2Proof.Config

theorem computeOff_keeps {s0 : State} {s : State} (h : Keeps s0 s) :
    Keeps s0 (computeOff s) := by
  unfold computeOff
  exact keeps_mem h (fun _ => rfl)

theorem coresReset_keeps {s0 : State} {s : State} (h : Keeps s0 s) :
    Keeps s0 (coresReset s) := by
  unfold coresReset
  try dsimp only
  repeat' first
    | (with_reducible assumption) | (with_reducible intro _) | split | (with_reducible apply keeps_upd)

theorem thimbleReset_keeps {s0 : State} {s : State} (h : Keeps s0 s) :
    Keeps s0 (thimbleReset s) := by
  unfold thimbleReset
  try dsimp only
  repeat' first
    | (with_reducible assumption) | (with_reducible intro _) | (with_reducible apply coresReset_keeps) | split
    | (with_reducible apply keeps_upd)

theorem powerLost_keeps {s0 : State} {s : State} (h : Keeps s0 s) :
    Keeps s0 (powerLost s) := by
  unfold powerLost
  exact keeps_mem h (fun _ => rfl)

end Sys2Proof.Machine
end

