-- ==== Sys2Proof/Laws/KeepThermal.lean ====
section
/-! SUPPORT. The operations of Machine/Thermal.lean keep the queue and the canonical form of memory. -/

namespace Sys2Proof.Machine

open Sys2Proof.Config

theorem modTherm_keeps {s0 : State} {s : State} {f : Thermal → Thermal} (h : Keeps s0 s) :
    Keeps s0 (modTherm s f) := by
  unfold modTherm
  try dsimp only
  repeat' first
    | (with_reducible assumption) | (with_reducible intro _) | split | (with_reducible apply keeps_upd)

theorem forceG1_keeps {s0 : State} {s : State} (h : Keeps s0 s) :
    Keeps s0 (forceG1 s) := by
  unfold forceG1
  try dsimp only
  repeat' first
    | (with_reducible assumption) | (with_reducible intro _) | (with_reducible apply modPower_keeps)
    | (with_reducible apply switchClock_keeps) | split | (with_reducible apply keeps_upd)

theorem enterForced_keeps {s0 : State} {s : State} {e : Option Ev} (h : Keeps s0 s) :
    Keeps s0 (enterForced s e) := by
  unfold enterForced
  try dsimp only
  repeat' first
    | (with_reducible assumption) | (with_reducible intro _) | (with_reducible apply raiseEv_keeps)
    | (with_reducible apply forceG1_keeps) | (with_reducible apply exitFixed_keeps)
    | (with_reducible apply modPower_keeps) | (with_reducible apply setCause_keeps) | split
    | (with_reducible apply keeps_upd)

theorem failFill_keeps {s0 : State} {s : State} {cause : Nat} (h : Keeps s0 s) :
    Keeps s0 (failFill s cause) := by
  unfold failFill
  try dsimp only
  repeat' first
    | (with_reducible assumption) | (with_reducible intro _) | (with_reducible apply raiseEv_keeps) | split
    | (with_reducible apply keeps_upd)

theorem tripDevice_keeps {s0 : State} {s : State} {cause5 : Bool} {panel : Nat} {reading : Int} (h : Keeps s0 s) :
    Keeps s0 (tripDevice s cause5 panel reading) := by
  unfold tripDevice
  try dsimp only
  repeat' first
    | (with_reducible assumption) | (with_reducible intro _) | (with_reducible apply failFill_keeps)
    | (with_reducible apply failSnapshot_keeps) | (with_reducible apply setCause_keeps)
    | (with_reducible apply goState_keeps) | (with_reducible apply recordSuspect_keeps)
    | (with_reducible apply sendPoison_keeps) | (with_reducible apply raiseEv_keeps)
    | (with_reducible apply computeOff_keeps) | (with_reducible apply modTherm_keeps) | split
    | (with_reducible apply keeps_upd)

theorem throttle_keeps {s0 : State} {s : State} {tj : Int} (h : Keeps s0 s) :
    Keeps s0 (throttle s tj) := by
  unfold throttle
  try dsimp only
  repeat' first
    | (with_reducible assumption) | (with_reducible intro _) | (with_reducible apply raiseEv_keeps)
    | (with_reducible apply modTherm_keeps) | (with_reducible apply setCause_keeps)
    | (with_reducible apply clearCause_keeps) | split | (with_reducible apply keeps_upd)

theorem maximum_keeps {s0 : State} {s : State} {before : Int} {tj : Int} (h : Keeps s0 s) :
    Keeps s0 (maximum s before tj) := by
  unfold maximum
  try dsimp only
  repeat' first
    | (with_reducible assumption) | (with_reducible intro _) | (with_reducible apply modTherm_keeps)
    | (with_reducible apply raiseEv_keeps) | (with_reducible apply enterForced_keeps) | split
    | (with_reducible apply keeps_upd)

theorem sampleActs_keeps {s0 : State} {s : State} {before : Int} {tj : Int} (h : Keeps s0 s) :
    Keeps s0 (sampleActs s before tj) := by
  unfold sampleActs
  try dsimp only
  repeat' first
    | (with_reducible assumption) | (with_reducible intro _) | (with_reducible apply maximum_keeps)
    | (with_reducible apply throttle_keeps) | (with_reducible apply enterForced_keeps)
    | (with_reducible apply modTherm_keeps) | split | (with_reducible apply keeps_upd)

theorem watchPairs_keeps {s0 : State} {s : State} {rs : List SensorRead} (h : Keeps s0 s) :
    Keeps s0 (watchPairs s rs) := by
  unfold watchPairs
  try dsimp only
  repeat' first
    | (with_reducible assumption) | (with_reducible intro _) | (with_reducible apply modTherm_keeps)
    | (with_reducible apply foldl_keeps) | split | (with_reducible apply keeps_upd)

theorem execSensorSample_keeps {s0 : State} {rs : List SensorRead} {s : State} (h : Keeps s0 s) :
    KeepsOut s0 (execSensorSample rs s) := by
  unfold execSensorSample
  try dsimp only
  repeat' first
    | (with_reducible assumption) | (with_reducible intro _) | (with_reducible exact keepsOut_fault)
    | (with_reducible exact keepsOut_refused) | (with_reducible apply keepsOut_next)
    | (with_reducible apply keepsOut_next) | (with_reducible apply watchPairs_keeps)
    | (with_reducible apply modTherm_keeps) | (with_reducible apply sampleActs_keeps)
    | (with_reducible apply tripDevice_keeps) | (with_reducible apply noEvent_keeps) | split
    | (with_reducible apply keeps_upd)

theorem execSensorSkew_keeps {s0 : State} {panel : Nat} {s : State} (h : Keeps s0 s) :
    KeepsOut s0 (execSensorSkew panel s) := by
  unfold execSensorSkew
  try dsimp only
  repeat' first
    | (with_reducible assumption) | (with_reducible intro _) | (with_reducible exact keepsOut_fault)
    | (with_reducible exact keepsOut_refused) | (with_reducible apply keepsOut_next)
    | (with_reducible apply keepsOut_next) | (with_reducible apply modTherm_keeps)
    | (with_reducible apply raiseEv_keeps) | (with_reducible apply noEvent_keeps) | split
    | (with_reducible apply keeps_upd)

theorem execSensorSuspect_keeps {s0 : State} {panel : Nat} {s : State} (h : Keeps s0 s) :
    KeepsOut s0 (execSensorSuspect panel s) := by
  unfold execSensorSuspect
  try dsimp only
  repeat' first
    | (with_reducible assumption) | (with_reducible intro _) | (with_reducible exact keepsOut_fault)
    | (with_reducible exact keepsOut_refused) | (with_reducible apply keepsOut_next)
    | (with_reducible apply keepsOut_next) | (with_reducible apply setCause_keeps)
    | (with_reducible apply raiseEv_keeps) | (with_reducible apply noEvent_keeps) | split
    | (with_reducible apply keeps_upd)

theorem execForcedStateEnd_keeps {s0 : State} {s : State} (h : Keeps s0 s) :
    KeepsOut s0 (execForcedStateEnd s) := by
  unfold execForcedStateEnd
  try dsimp only
  repeat' first
    | (with_reducible assumption) | (with_reducible intro _) | (with_reducible exact keepsOut_fault)
    | (with_reducible exact keepsOut_refused) | (with_reducible apply keepsOut_next)
    | (with_reducible apply keepsOut_next) | (with_reducible apply modTherm_keeps)
    | (with_reducible apply clearCause_keeps) | (with_reducible apply noEvent_keeps) | split
    | (with_reducible apply keeps_upd)

theorem coolWatch_keeps {s0 : State} {s : State} (h : Keeps s0 s) :
    Keeps s0 (coolWatch s) := by
  unfold coolWatch
  try dsimp only
  repeat' first
    | (with_reducible assumption) | (with_reducible intro _) | (with_reducible apply raiseEv_keeps)
    | (with_reducible apply setCause_keeps) | (with_reducible apply modTherm_keeps) | split
    | (with_reducible apply keeps_upd)

theorem execThetaUpdate_keeps {s0 : State} {_pMean : Nat} {_tjMean : Int} {_steady : Bool} {s : State} (h : Keeps s0 s) :
    KeepsOut s0 (execThetaUpdate _pMean _tjMean _steady s) := by
  unfold execThetaUpdate
  try dsimp only
  repeat' first
    | (with_reducible assumption) | (with_reducible intro _) | (with_reducible exact keepsOut_fault)
    | (with_reducible exact keepsOut_refused) | (with_reducible apply keepsOut_next)
    | (with_reducible apply keepsOut_next) | (with_reducible apply coolWatch_keeps)
    | (with_reducible apply modTherm_keeps) | (with_reducible apply noEvent_keeps) | split
    | (with_reducible apply keeps_upd)

theorem execCoolStale_keeps {s0 : State} {s : State} (h : Keeps s0 s) :
    KeepsOut s0 (execCoolStale s) := by
  unfold execCoolStale
  try dsimp only
  repeat' first
    | (with_reducible assumption) | (with_reducible intro _) | (with_reducible exact keepsOut_fault)
    | (with_reducible exact keepsOut_refused) | (with_reducible apply keepsOut_next)
    | (with_reducible apply keepsOut_next) | (with_reducible apply setCause_keeps)
    | (with_reducible apply raiseEv_keeps) | (with_reducible apply modTherm_keeps)
    | (with_reducible apply noEvent_keeps) | split | (with_reducible apply keeps_upd)

theorem execCoolReportSkew_keeps {s0 : State} {s : State} (h : Keeps s0 s) :
    KeepsOut s0 (execCoolReportSkew s) := by
  unfold execCoolReportSkew
  try dsimp only
  repeat' first
    | (with_reducible assumption) | (with_reducible intro _) | (with_reducible exact keepsOut_fault)
    | (with_reducible exact keepsOut_refused) | (with_reducible apply keepsOut_next)
    | (with_reducible apply keepsOut_next) | (with_reducible apply raiseEv_keeps)
    | (with_reducible apply modTherm_keeps) | (with_reducible apply noEvent_keeps) | split
    | (with_reducible apply keeps_upd)

end Sys2Proof.Machine
end

