-- ==== Sys2Proof/Laws/KeepSnap.lean ====
section
/-! SUPPORT. The operations of Machine/Snap.lean keep the queue and the canonical form of memory. -/

namespace Sys2Proof.Machine

open Sys2Proof.Config

theorem ackChunks_keeps {s0 : State} {s : State} (h : Keeps s0 s) :
    Keeps s0 (ackChunks s) := by
  unfold ackChunks
  try dsimp only
  repeat' first
    | (with_reducible assumption) | (with_reducible intro _) | (with_reducible apply modSnap_keeps)
    | (with_reducible apply foldl_keeps) | split | (with_reducible apply keeps_upd)

theorem finishSnap_keeps {s0 : State} {s : State} (h : Keeps s0 s) :
    Keeps s0 (finishSnap s) := by
  unfold finishSnap
  try dsimp only
  repeat' first
    | (with_reducible assumption) | (with_reducible intro _) | (with_reducible apply pumpSnap_keeps)
    | (with_reducible apply modSnap_keeps) | (with_reducible apply tryEndJob_keeps)
    | (with_reducible apply raiseEv_keeps) | (with_reducible apply releaseAll_keeps) | split | exact id
    | (with_reducible apply keeps_upd)

theorem snapAcks_keeps {s0 : State} {s : State} (h : Keeps s0 s) :
    Keeps s0 (snapAcks s) := by
  unfold snapAcks
  try dsimp only
  repeat' first
    | (with_reducible assumption) | (with_reducible intro _) | (with_reducible apply finishSnap_keeps)
    | (with_reducible apply ackChunks_keeps) | split | (with_reducible apply keeps_upd)

theorem releaseWrites_keeps {s0 : State} {s : State} (h : Keeps s0 s) :
    Keeps s0 (releaseWrites s) := by
  unfold releaseWrites
  try dsimp only
  repeat' first
    | (with_reducible assumption) | (with_reducible intro _) | (with_reducible apply rawWrite_keeps)
    | (with_reducible apply endHold_keeps) | (with_reducible apply foldl_keeps) | split
    | (with_reducible apply keeps_upd)

theorem stagePage_keeps {s0 : State} {s : State} {g : Nat} {a : Nat} (h : Keeps s0 s) :
    Keeps s0 (stagePage s g a) := by
  unfold stagePage
  exact keeps_mem h (fun w => foldl_wf (fun _ _ hm => memSet_wf _ _ hm) (memErase_wf _ _ w))

theorem sendStaged_keeps {s0 : State} {s : State} (h : Keeps s0 s) :
    Keeps s0 (sendStaged s) := by
  unfold sendStaged
  try dsimp only
  repeat' first
    | (with_reducible assumption) | (with_reducible intro _) | (with_reducible apply touchStored_keeps)
    | (with_reducible apply failSnapshot_keeps) | (with_reducible apply sendReady_keeps)
    | (with_reducible apply foldl_keeps) | split | (with_reducible apply keeps_upd)

theorem execSnapshotPageCopy_keeps {s0 : State} {page : Nat} {s : State} (h : Keeps s0 s) :
    KeepsOut s0 (execSnapshotPageCopy page s) := by
  unfold execSnapshotPageCopy
  try dsimp only
  repeat' first
    | (with_reducible assumption) | (with_reducible intro _) | (with_reducible exact keepsOut_fault)
    | (with_reducible exact keepsOut_refused) | (with_reducible apply keepsOut_next)
    | (with_reducible apply keepsOut_next) | (with_reducible apply noEvent_keeps)
    | (with_reducible apply touchStored_keeps) | (with_reducible apply failSnapshot_keeps)
    | (with_reducible apply inOrder_keeps) | (with_reducible apply modSnap_keeps)
    | (with_reducible apply stagePage_keeps) | (with_reducible apply returnCredits_keeps)
    | (with_reducible apply sendStaged_keeps) | (with_reducible apply releaseWrites_keeps) | split
    | (with_reducible apply keeps_upd)

end Sys2Proof.Machine
end

