-- ==== Sys2Proof/Laws/KeepSettings.lean ====
section
/-! SUPPORT. The operations of Machine/Settings.lean keep the queue and the canonical form of memory. -/

namespace Sys2Proof.Machine

open Sys2Proof.Config

theorem spoolShort_keeps {s0 : State} {s : State} {before : Nat} (h : Keeps s0 s) :
    Keeps s0 (spoolShort s before) := by
  unfold spoolShort
  try dsimp only
  repeat' first
    | (with_reducible assumption) | (with_reducible intro _) | (with_reducible apply raiseEv_keeps) | split
    | (with_reducible apply keeps_upd)

theorem voltsCommitted_keeps {s0 : State} {s : State} {es : List TxnEntry} (h : Keeps s0 s) :
    Keeps s0 (voltsCommitted s es) := by
  unfold voltsCommitted
  try dsimp only
  repeat' first
    | (with_reducible assumption) | (with_reducible intro _) | (with_reducible apply modPower_keeps) | split
    | (with_reducible apply keeps_upd)

theorem fixedCommitted_keeps {s0 : State} {s : State} {es : List TxnEntry} (h : Keeps s0 s) :
    Keeps s0 (fixedCommitted s es) := by
  unfold fixedCommitted
  try dsimp only
  repeat' first
    | (with_reducible assumption) | (with_reducible intro _) | (with_reducible apply modPower_keeps) | split
    | exact id | (with_reducible apply keeps_upd)

theorem windowCommitted_keeps {s0 : State} {s : State} {moved : Bool} (h : Keeps s0 s) :
    Keeps s0 (windowCommitted s moved) := by
  unfold windowCommitted
  try dsimp only
  repeat' first
    | (with_reducible assumption) | (with_reducible intro _) | split | (with_reducible apply keeps_upd)

theorem coolCommitted_keeps {s0 : State} {s : State} {es : List TxnEntry} (h : Keeps s0 s) :
    Keeps s0 (coolCommitted s es) := by
  unfold coolCommitted
  try dsimp only
  repeat' first
    | (with_reducible assumption) | (with_reducible intro _) | (with_reducible apply coolWatch_keeps) | split
    | (with_reducible apply keeps_upd)

theorem pfcCommitted_keeps {s0 : State} {s : State} {es : List TxnEntry} (h : Keeps s0 s) :
    Keeps s0 (pfcCommitted s es) := by
  unfold pfcCommitted
  try dsimp only
  repeat' first
    | (with_reducible assumption) | (with_reducible intro _) | (with_reducible apply obeyPfc_keeps) | split
    | (with_reducible apply keeps_upd)

theorem settingEffects_keeps {s0 : State} {s : State} {es : List TxnEntry} {moved : Bool} (h : Keeps s0 s) :
    Keeps s0 (settingEffects s es moved) := by
  unfold settingEffects
  try dsimp only
  repeat' first
    | (with_reducible assumption) | (with_reducible intro _) | (with_reducible apply pfcCommitted_keeps)
    | (with_reducible apply coolCommitted_keeps) | (with_reducible apply windowCommitted_keeps)
    | (with_reducible apply fixedCommitted_keeps) | (with_reducible apply voltsCommitted_keeps)
    | (with_reducible apply driveAlert_keeps) | split | (with_reducible apply keeps_upd)

theorem applyCommit_keeps {s0 : State} {s : State} (h : Keeps s0 s) :
    Keeps s0 (applyCommit s) := by
  unfold applyCommit
  try dsimp only
  repeat' first
    | (with_reducible assumption) | (with_reducible intro _) | (with_reducible apply spoolShort_keeps)
    | (with_reducible apply settingEffects_keeps) | (with_reducible apply replyOk_keeps) | split | exact id
    | (with_reducible apply keeps_upd)

theorem execTxnCommitPoint_keeps {s0 : State} {s : State} (h : Keeps s0 s) :
    KeepsOut s0 (execTxnCommitPoint s) := by
  unfold execTxnCommitPoint
  try dsimp only
  repeat' first
    | (with_reducible assumption) | (with_reducible intro _) | (with_reducible exact keepsOut_fault)
    | (with_reducible exact keepsOut_refused) | (with_reducible apply keepsOut_next)
    | (with_reducible apply keepsOut_next) | (with_reducible apply applyCommit_keeps)
    | (with_reducible apply noEvent_keeps) | split | (with_reducible apply keeps_upd)

end Sys2Proof.Machine
end

