-- ==== Sys2Proof/Laws/KeepShuttle.lean ====
section
/-! SUPPORT. The operations of Machine/Shuttle.lean keep the queue and the canonical form of memory. -/

namespace Sys2Proof.Machine

open Sys2Proof.Config

theorem modShut_keeps {s0 : State} {s : State} {f : Shuttle → Shuttle} (h : Keeps s0 s) :
    Keeps s0 (modShut s f) := by
  unfold modShut
  try dsimp only
  repeat' first
    | (with_reducible assumption) | (with_reducible intro _) | split | (with_reducible apply keeps_upd)

theorem flowTo_keeps {s0 : State} {s : State} {gap : Nat} {f : Shuttle → Shuttle} (h : Keeps s0 s) :
    KeepsOut s0 (flowTo s gap f) := by
  unfold flowTo
  try dsimp only
  repeat' first
    | (with_reducible assumption) | (with_reducible intro _) | (with_reducible exact keepsOut_fault)
    | (with_reducible exact keepsOut_refused) | (with_reducible apply keepsOut_next)
    | (with_reducible apply whenIssuing_keeps) | (with_reducible apply traceAt_keeps)
    | (with_reducible apply modJob_keeps) | (with_reducible apply modShut_keeps)
    | (with_reducible apply foldl_keeps) | split | (refine foldl_fst_keeps ?_ ?_)
    | (with_reducible apply keeps_upd)

theorem execNext_keeps {s0 : State} {gap : Nat} {s : State} (h : Keeps s0 s) :
    KeepsOut s0 (execNext gap s) := by
  unfold execNext
  try dsimp only
  repeat' first
    | (with_reducible assumption) | (with_reducible intro _) | (with_reducible exact keepsOut_fault)
    | (with_reducible exact keepsOut_refused) | (with_reducible apply keepsOut_next)
    | (with_reducible apply flowTo_keeps) | split | (with_reducible apply keeps_upd)

theorem execJump_keeps {s0 : State} {arg : Nat} {gap : Nat} {s : State} (h : Keeps s0 s) :
    KeepsOut s0 (execJump arg gap s) := by
  unfold execJump
  try dsimp only
  repeat' first
    | (with_reducible assumption) | (with_reducible intro _) | (with_reducible exact keepsOut_fault)
    | (with_reducible exact keepsOut_refused) | (with_reducible apply keepsOut_next)
    | (with_reducible apply flowTo_keeps) | split | (with_reducible apply keeps_upd)

theorem execLoop_keeps {s0 : State} {ctr : Nat} {arg : Nat} {gap : Nat} {s : State} (h : Keeps s0 s) :
    KeepsOut s0 (execLoop ctr arg gap s) := by
  unfold execLoop
  try dsimp only
  repeat' first
    | (with_reducible assumption) | (with_reducible intro _) | (with_reducible exact keepsOut_fault)
    | (with_reducible exact keepsOut_refused) | (with_reducible apply keepsOut_next)
    | (with_reducible apply flowTo_keeps) | split | (with_reducible apply keeps_upd)

theorem execSetc_keeps {s0 : State} {ctr : Nat} {arg : Nat} {gap : Nat} {s : State} (h : Keeps s0 s) :
    KeepsOut s0 (execSetc ctr arg gap s) := by
  unfold execSetc
  try dsimp only
  repeat' first
    | (with_reducible assumption) | (with_reducible intro _) | (with_reducible exact keepsOut_fault)
    | (with_reducible exact keepsOut_refused) | (with_reducible apply keepsOut_next)
    | (with_reducible apply flowTo_keeps) | split | (with_reducible apply keeps_upd)

theorem execHalt_keeps {s0 : State} {gap : Nat} {s : State} (h : Keeps s0 s) :
    KeepsOut s0 (execHalt gap s) := by
  unfold execHalt
  try dsimp only
  repeat' first
    | (with_reducible assumption) | (with_reducible intro _) | (with_reducible exact keepsOut_fault)
    | (with_reducible exact keepsOut_refused) | (with_reducible apply keepsOut_next)
    | (with_reducible apply outThen_keeps) | (with_reducible apply flowTo_keeps)
    | (with_reducible apply dueEndJob_keeps) | split | exact id | (with_reducible apply keeps_upd)

theorem execMicroSetZero_keeps {s0 : State} {s : State} (h : Keeps s0 s) :
    KeepsOut s0 (execMicroSetZero s) := by
  unfold execMicroSetZero
  try dsimp only
  repeat' first
    | (with_reducible assumption) | (with_reducible intro _) | (with_reducible exact keepsOut_fault)
    | (with_reducible exact keepsOut_refused) | (with_reducible apply keepsOut_next)
    | (with_reducible apply whenIssuing_keeps) | (with_reducible apply modShut_keeps) | split
    | (with_reducible apply keeps_upd)

theorem execMicroSetNone_keeps {s0 : State} {s : State} (h : Keeps s0 s) :
    KeepsOut s0 (execMicroSetNone s) := by
  unfold execMicroSetNone
  try dsimp only
  repeat' first
    | (with_reducible assumption) | (with_reducible intro _) | (with_reducible exact keepsOut_fault)
    | (with_reducible exact keepsOut_refused) | (with_reducible apply keepsOut_next)
    | (with_reducible apply whenIssuing_keeps) | (with_reducible apply modShut_keeps) | split
    | (with_reducible apply keeps_upd)

theorem execMicroAdd_keeps {s0 : State} {s : State} (h : Keeps s0 s) :
    KeepsOut s0 (execMicroAdd s) := by
  unfold execMicroAdd
  try dsimp only
  repeat' first
    | (with_reducible assumption) | (with_reducible intro _) | (with_reducible exact keepsOut_fault)
    | (with_reducible exact keepsOut_refused) | (with_reducible apply keepsOut_next)
    | (with_reducible apply whenIssuing_keeps) | (with_reducible apply jobFault_keeps)
    | (with_reducible apply modShut_keeps) | split | (with_reducible apply keeps_upd)

theorem execPmark_keeps {s0 : State} {s : State} (h : Keeps s0 s) :
    KeepsOut s0 (execPmark s) := by
  unfold execPmark
  try dsimp only
  repeat' first
    | (with_reducible assumption) | (with_reducible intro _) | (with_reducible exact keepsOut_fault)
    | (with_reducible exact keepsOut_refused) | (with_reducible apply keepsOut_next)
    | (with_reducible apply whenRunning_keeps) | (with_reducible apply injectMark_keeps) | split
    | (with_reducible apply keeps_upd)

theorem execIdleStitch_keeps {s0 : State} {s : State} (h : Keeps s0 s) :
    KeepsOut s0 (execIdleStitch s) := by
  unfold execIdleStitch
  try dsimp only
  repeat' first
    | (with_reducible assumption) | (with_reducible intro _) | (with_reducible exact keepsOut_fault)
    | (with_reducible exact keepsOut_refused) | (with_reducible apply keepsOut_next)
    | (with_reducible apply whenIssuing_keeps) | (with_reducible apply keepsOut_next)
    | (with_reducible apply modJob_keeps) | (with_reducible apply modShut_keeps)
    | (with_reducible apply noEvent_keeps) | split | (with_reducible apply keeps_upd)

theorem execSyncRelease_keeps {s0 : State} {mask : Nat} {phys : Nat} {s : State} (h : Keeps s0 s) :
    KeepsOut s0 (execSyncRelease mask phys s) := by
  unfold execSyncRelease
  try dsimp only
  repeat' first
    | (with_reducible assumption) | (with_reducible intro _) | (with_reducible exact keepsOut_fault)
    | (with_reducible exact keepsOut_refused) | (with_reducible apply keepsOut_next)
    | (with_reducible apply whenRunning_keeps) | (with_reducible apply modShut_keeps) | split
    | (with_reducible apply keeps_upd)

theorem execSyncLate_keeps {s0 : State} {queue : Nat} {op : Nat} {s : State} (h : Keeps s0 s) :
    KeepsOut s0 (execSyncLate queue op s) := by
  unfold execSyncLate
  try dsimp only
  repeat' first
    | (with_reducible assumption) | (with_reducible intro _) | (with_reducible exact keepsOut_fault)
    | (with_reducible exact keepsOut_refused) | (with_reducible apply keepsOut_next)
    | (with_reducible apply keepsOut_next) | (with_reducible apply raiseEv_keeps)
    | (with_reducible apply modShut_keeps) | (with_reducible apply noEvent_keeps) | split | exact id
    | (with_reducible apply keeps_upd)

theorem applyGate_keeps {s0 : State} {s : State} {ports : Nat} {wake : Bool} (h : Keeps s0 s) :
    Keeps s0 (applyGate s ports wake) := by
  unfold applyGate
  try dsimp only
  repeat' first
    | (with_reducible assumption) | (with_reducible intro _) | (with_reducible apply seamSend_keeps)
    | (with_reducible apply foldl_keeps) | split | (with_reducible apply keeps_upd)

theorem applyGates_keeps {s0 : State} {s : State} {p : Package} {gp : Nat} (h : Keeps s0 s) :
    Keeps s0 (applyGates s p gp) := by
  unfold applyGates
  try dsimp only
  repeat' first
    | (with_reducible assumption) | (with_reducible intro _) | (with_reducible apply applyGate_keeps)
    | (with_reducible apply foldl_keeps) | split | (with_reducible apply keeps_upd)

theorem takeVariant_keeps {s0 : State} {s : State} {cur : Variant} {gp : Nat} {e : Nat × Variant} (h : Keeps s0 s) :
    Keeps s0 (takeVariant s cur gp e) := by
  unfold takeVariant
  try dsimp only
  repeat' first
    | (with_reducible assumption) | (with_reducible intro _) | (with_reducible apply modJob_keeps)
    | (with_reducible apply modShut_keeps) | split | (with_reducible apply keeps_upd)

theorem fixedAfter_keeps {s0 : State} {s : State} {cur : Variant} {v : Variant} (h : Keeps s0 s) :
    Keeps s0 (fixedAfter s cur v) := by
  unfold fixedAfter
  try dsimp only
  repeat' first
    | (with_reducible assumption) | (with_reducible intro _) | (with_reducible apply exitFixed_keeps) | split
    | (with_reducible apply keeps_upd)

theorem selectAt_keeps {s0 : State} {s : State} {p : Package} {kind : Nat} {gp : Nat} (h : Keeps s0 s) :
    Keeps s0 (selectAt s p kind gp) := by
  unfold selectAt
  try dsimp only
  repeat' first
    | (with_reducible assumption) | (with_reducible intro _) | (with_reducible apply fixedAtPoint_keeps)
    | (with_reducible apply fixedAfter_keeps) | (with_reducible apply takeVariant_keeps)
    | (with_reducible apply changeGrade_keeps) | (with_reducible apply modPower_keeps) | split
    | (with_reducible apply keeps_upd)

theorem passPoint_keeps {s0 : State} {s : State} {kind : Nat} (h : Keeps s0 s) :
    Keeps s0 (passPoint s kind) := by
  unfold passPoint
  try dsimp only
  repeat' first
    | (with_reducible assumption) | (with_reducible intro _) | (with_reducible apply modShut_keeps) | split
    | (with_reducible apply keeps_upd)

theorem atPoint_keeps {s0 : State} {s : State} {k : Package → Out} (hk : ∀ p, KeepsOut s0 (k p)) (h : Keeps s0 s) :
    KeepsOut s0 (atPoint s k) := by
  unfold atPoint
  refine whenIssuing_keeps (fun p => ?_)
  split
  · exact keepsOut_next (sendPoison_keeps h)
  · exact hk p

theorem execGrade_keeps {s0 : State} {gp : Nat} {s : State} (h : Keeps s0 s) :
    KeepsOut s0 (execGrade gp s) := by
  unfold execGrade
  try dsimp only
  repeat' first
    | (with_reducible assumption) | (with_reducible intro _) | (with_reducible exact keepsOut_fault)
    | (with_reducible exact keepsOut_refused) | (with_reducible apply keepsOut_next)
    | (with_reducible apply atPoint_keeps) | (with_reducible apply applyGates_keeps)
    | (with_reducible apply selectAt_keeps) | (with_reducible apply passPoint_keeps) | split
    | (with_reducible apply keeps_upd)

theorem execGradeRecipe_keeps {s0 : State} {gp : Nat} {s : State} (h : Keeps s0 s) :
    KeepsOut s0 (execGradeRecipe gp s) := by
  unfold execGradeRecipe
  try dsimp only
  repeat' first
    | (with_reducible assumption) | (with_reducible intro _) | (with_reducible exact keepsOut_fault)
    | (with_reducible exact keepsOut_refused) | (with_reducible apply keepsOut_next)
    | (with_reducible apply atPoint_keeps) | (with_reducible apply applyGates_keeps)
    | (with_reducible apply selectAt_keeps) | (with_reducible apply passPoint_keeps) | split
    | (with_reducible apply keeps_upd)

theorem standAt_keeps {s0 : State} {s : State} {gp : Nat} (h : Keeps s0 s) :
    Keeps s0 (standAt s gp) := by
  unfold standAt
  try dsimp only
  repeat' first
    | (with_reducible assumption) | (with_reducible intro _) | (with_reducible apply modJob_keeps)
    | (with_reducible apply modShut_keeps) | split | (with_reducible apply keeps_upd)

theorem beginStep_keeps {s0 : State} {s : State} {gp : Nat} {entropy : Nat} (h : Keeps s0 s) :
    Keeps s0 (beginStep s gp entropy) := by
  unfold beginStep
  try dsimp only
  repeat' first
    | (with_reducible assumption) | (with_reducible intro _) | split | (with_reducible apply keeps_upd)

theorem clearSums_keeps {s0 : State} {p : Package} {s : State} (h : Keeps s0 s) :
    Keeps s0 (clearSums p s) := by
  unfold clearSums
  try dsimp only
  repeat' first
    | (with_reducible assumption) | (with_reducible intro _) | (with_reducible apply stepWrite_keeps)
    | (with_reducible apply foldl_keeps) | split | (with_reducible apply keeps_upd)

theorem commitPoisoned_keeps {s0 : State} {s : State} (h : Keeps s0 s) :
    Keeps s0 (commitPoisoned s) := by
  unfold commitPoisoned
  try dsimp only
  repeat' first
    | (with_reducible assumption) | (with_reducible intro _) | (with_reducible apply applyCommit_keeps) | split
    | (with_reducible apply keeps_upd)

theorem applyVolts_keeps {s0 : State} {s : State} (h : Keeps s0 s) :
    Keeps s0 (applyVolts s) := by
  unfold applyVolts
  try dsimp only
  repeat' first
    | (with_reducible assumption) | (with_reducible intro _) | (with_reducible apply modPower_keeps) | split
    | (with_reducible apply keeps_upd)

theorem execStepOpen_keeps {s0 : State} {gp : Nat} {entropy : Nat} {s : State} (h : Keeps s0 s) :
    KeepsOut s0 (execStepOpen gp entropy s) := by
  unfold execStepOpen
  try dsimp only
  repeat' first
    | (with_reducible assumption) | (with_reducible intro _) | (with_reducible exact keepsOut_fault)
    | (with_reducible exact keepsOut_refused) | (with_reducible apply keepsOut_next)
    | (with_reducible apply whenRunning_keeps) | (with_reducible apply keepsOut_next)
    | (with_reducible apply noEvent_keeps) | (with_reducible apply sendPoison_keeps)
    | (with_reducible apply jobFault_keeps) | (with_reducible apply standAt_keeps)
    | (with_reducible apply applyVolts_keeps) | (with_reducible apply captureMark_keeps)
    | (with_reducible apply injectMark_keeps) | (with_reducible apply commitPoisoned_keeps)
    | (with_reducible apply clearSums_keeps) | (with_reducible apply beginStep_keeps)
    | (with_reducible apply applyGates_keeps) | (with_reducible apply selectAt_keeps)
    | (with_reducible apply passPoint_keeps) | split | (with_reducible apply keeps_upd)

theorem closeReport_keeps {s0 : State} {s : State} {step : Nat} (h : Keeps s0 s) :
    Keeps s0 (closeReport s step) := by
  unfold closeReport
  try dsimp only
  repeat' first
    | (with_reducible assumption) | (with_reducible intro _) | (with_reducible apply raiseEv_keeps)
    | (with_reducible apply modJob_keeps) | (with_reducible apply foldl_keeps) | split
    | (with_reducible apply keeps_upd)

theorem closeStraggler_keeps {s0 : State} {s : State} {step : Nat} (h : Keeps s0 s) :
    Keeps s0 (closeStraggler s step) := by
  unfold closeStraggler
  try dsimp only
  repeat' first
    | (with_reducible assumption) | (with_reducible intro _) | (with_reducible apply raiseEv_keeps) | split
    | (with_reducible apply keeps_upd)

theorem closeSlip_keeps {s0 : State} {s : State} {step : Nat} (h : Keeps s0 s) :
    Keeps s0 (closeSlip s step) := by
  unfold closeSlip
  try dsimp only
  repeat' first
    | (with_reducible assumption) | (with_reducible intro _) | (with_reducible apply takeFree_keeps)
    | (with_reducible apply raiseEv_keeps) | split | (with_reducible apply keeps_upd)

theorem stepRatio_keeps {s0 : State} {s : State} {v : Variant} (h : Keeps s0 s) :
    Keeps s0 (stepRatio s v).2 := by
  unfold stepRatio
  try dsimp only
  repeat' first
    | (with_reducible assumption) | (with_reducible intro _) | (with_reducible apply takeFree_keeps) | split
    | (with_reducible apply keeps_upd)

theorem closeEnergy_keeps {s0 : State} {s : State} {p : Package} (h : Keeps s0 s) :
    Keeps s0 (closeEnergy s p) := by
  unfold closeEnergy
  try dsimp only
  repeat' first
    | (with_reducible assumption) | (with_reducible intro _) | (with_reducible apply stepRatio_keeps)
    | (with_reducible apply modPower_keeps) | (with_reducible apply raiseEv_keeps) | split
    | (with_reducible apply keeps_upd)

theorem freeSlots_keeps {s0 : State} {s : State} {step : Nat} (h : Keeps s0 s) :
    Keeps s0 (freeSlots s step) := by
  unfold freeSlots
  try dsimp only
  repeat' first
    | (with_reducible assumption) | (with_reducible intro _) | split | (with_reducible apply keeps_upd)

theorem endStep_keeps {s0 : State} {s : State} {step : Nat} (h : Keeps s0 s) :
    Keeps s0 (endStep s step) := by
  unfold endStep
  try dsimp only
  repeat' first
    | (with_reducible assumption) | (with_reducible intro _) | (with_reducible apply freeSlots_keeps) | split
    | (with_reducible apply keeps_upd)

theorem closePending_keeps {s0 : State} {s : State} (h : Keeps s0 s) :
    Keeps s0 (closePending s) := by
  unfold closePending
  try dsimp only
  repeat' first
    | (with_reducible assumption) | (with_reducible intro _) | (with_reducible apply applyCommit_keeps)
    | (with_reducible apply dueEndJob_keeps) | split | (with_reducible apply keeps_upd)

theorem execStepClose_keeps {s0 : State} {gp : Nat} {s : State} (h : Keeps s0 s) :
    KeepsOut s0 (execStepClose gp s) := by
  unfold execStepClose
  try dsimp only
  repeat' first
    | (with_reducible assumption) | (with_reducible intro _) | (with_reducible exact keepsOut_fault)
    | (with_reducible exact keepsOut_refused) | (with_reducible apply keepsOut_next)
    | (with_reducible apply keepsOut_next) | (with_reducible apply atPoint_keeps)
    | (with_reducible apply noEvent_keeps) | (with_reducible apply closeStraggler_keeps)
    | (with_reducible apply closeReport_keeps) | (with_reducible apply closeEnergy_keeps)
    | (with_reducible apply closeSlip_keeps) | (with_reducible apply applyGates_keeps)
    | (with_reducible apply selectAt_keeps) | (with_reducible apply passPoint_keeps)
    | (with_reducible apply closePending_keeps) | (with_reducible apply injectMark_keeps)
    | (with_reducible apply endStep_keeps) | split | (with_reducible apply keeps_upd)

end Sys2Proof.Machine
end

