-- ==== Sys2Proof/Laws/KeepBaste.lean ====
section
/-! SUPPORT. The operations of Machine/Baste.lean keep the queue and the canonical form of memory. -/

namespace Sys2Proof.Machine

open Sys2Proof.Config

theorem execBasteCaptureDone_keeps {s0 : State} {hub : Nat} {s : State} (h : Keeps s0 s) :
    KeepsOut s0 (execBasteCaptureDone hub s) := by
  unfold execBasteCaptureDone
  try dsimp only
  repeat' first
    | (with_reducible assumption) | (with_reducible intro _) | (with_reducible exact keepsOut_fault)
    | (with_reducible exact keepsOut_refused) | (with_reducible apply keepsOut_next)
    | (with_reducible apply keepsOut_next) | (with_reducible apply modHub_keeps)
    | (with_reducible apply noEvent_keeps) | split | (with_reducible apply keeps_upd)

theorem execBasteCaptureAbandon_keeps {s0 : State} {hub : Nat} {s : State} (h : Keeps s0 s) :
    KeepsOut s0 (execBasteCaptureAbandon hub s) := by
  unfold execBasteCaptureAbandon
  try dsimp only
  repeat' first
    | (with_reducible assumption) | (with_reducible intro _) | (with_reducible exact keepsOut_fault)
    | (with_reducible exact keepsOut_refused) | (with_reducible apply keepsOut_next)
    | (with_reducible apply keepsOut_next) | (with_reducible apply skipSelection_keeps)
    | (with_reducible apply modHub_keeps) | (with_reducible apply noEvent_keeps) | split
    | (with_reducible apply keeps_upd)

theorem execBasteCheckDone_keeps {s0 : State} {hub : Nat} {flt : List (Nat × W32)} {s : State} (h : Keeps s0 s) :
    KeepsOut s0 (execBasteCheckDone hub flt s) := by
  unfold execBasteCheckDone
  try dsimp only
  repeat' first
    | (with_reducible assumption) | (with_reducible intro _) | (with_reducible exact keepsOut_fault)
    | (with_reducible exact keepsOut_refused) | (with_reducible apply keepsOut_next)
    | (with_reducible apply keepsOut_next) | (with_reducible apply modHub_keeps)
    | (with_reducible apply noEvent_keeps) | split | (with_reducible apply keeps_upd)

theorem execFence_keeps {s0 : State} {gp : Nat} {s : State} (h : Keeps s0 s) :
    KeepsOut s0 (execFence gp s) := by
  unfold execFence
  try dsimp only
  repeat' first
    | (with_reducible assumption) | (with_reducible intro _) | (with_reducible exact keepsOut_fault)
    | (with_reducible exact keepsOut_refused) | (with_reducible apply keepsOut_next)
    | (with_reducible apply atPoint_keeps) | (with_reducible apply applyGates_keeps)
    | (with_reducible apply passPoint_keeps) | split | (with_reducible apply keeps_upd)

theorem judgeVotes_keeps {s0 : State} {s : State} {p : Package} (h : Keeps s0 s) :
    Keeps s0 (judgeVotes s p) := by
  unfold judgeVotes
  try dsimp only
  repeat' first
    | (with_reducible assumption) | (with_reducible intro _) | (with_reducible apply poisonAction_keeps)
    | (with_reducible apply abandonWork_keeps) | split | (with_reducible apply keeps_upd)

theorem castVote_keeps {s0 : State} {s : State} {p : Package} (h : Keeps s0 s) :
    Keeps s0 (castVote s p) := by
  unfold castVote
  try dsimp only
  repeat' first
    | (with_reducible assumption) | (with_reducible intro _) | (with_reducible apply seamSend_keeps)
    | (with_reducible apply judgeVotes_keeps) | (with_reducible apply sendPoison_keeps)
    | (with_reducible apply foldl_keeps) | split | (with_reducible apply keeps_upd)

theorem execFenceHoldEnd_keeps {s0 : State} {phys : Nat} {s : State} (h : Keeps s0 s) :
    KeepsOut s0 (execFenceHoldEnd phys s) := by
  unfold execFenceHoldEnd
  try dsimp only
  repeat' first
    | (with_reducible assumption) | (with_reducible intro _) | (with_reducible exact keepsOut_fault)
    | (with_reducible exact keepsOut_refused) | (with_reducible apply keepsOut_next)
    | (with_reducible apply whenRunning_keeps) | (with_reducible apply keepsOut_next)
    | (with_reducible apply modHub_keeps) | (with_reducible apply modShut_keeps)
    | (with_reducible apply castVote_keeps) | (with_reducible apply noEvent_keeps)
    | (with_reducible apply foldl_keeps) | split | (with_reducible apply keeps_upd)

theorem execFenceTimeout_keeps {s0 : State} {rank : Nat} {s : State} (h : Keeps s0 s) :
    KeepsOut s0 (execFenceTimeout rank s) := by
  unfold execFenceTimeout
  try dsimp only
  repeat' first
    | (with_reducible assumption) | (with_reducible intro _) | (with_reducible exact keepsOut_fault)
    | (with_reducible exact keepsOut_refused) | (with_reducible apply keepsOut_next)
    | (with_reducible apply whenRunning_keeps) | (with_reducible apply keepsOut_next)
    | (with_reducible apply sendPoisonFrom_keeps) | (with_reducible apply noEvent_keeps) | split
    | (with_reducible apply keeps_upd)

theorem tolWord_keeps {s0 : State} {s : State} {p : Pair} {tol : Nat} {c1 : F32} {P : F32} (h : Keeps s0 s) :
    Keeps s0 (tolWord s p tol c1 P).2 := by
  unfold tolWord
  try dsimp only
  repeat' first
    | (with_reducible assumption) | (with_reducible intro _) | (with_reducible apply takeFree_keeps) | split
    | (with_reducible apply keeps_upd)

theorem wantFor_keeps {s0 : State} {s : State} {tag : Nat} (h : Keeps s0 s) :
    Keeps s0 (wantFor s tag) := by
  unfold wantFor
  try dsimp only
  repeat' first
    | (with_reducible assumption) | (with_reducible intro _) | (with_reducible apply modJob_keeps) | split
    | (with_reducible apply keeps_upd)

theorem setNumeric_keeps {s0 : State} {s : State} {tag : Nat} (h : Keeps s0 s) :
    Keeps s0 (setNumeric s tag) := by
  unfold setNumeric
  try dsimp only
  repeat' first
    | (with_reducible assumption) | (with_reducible intro _) | (with_reducible apply wantFor_keeps)
    | (with_reducible apply modJob_keeps) | split | (with_reducible apply keeps_upd)

theorem actOnVerdict_keeps {s0 : State} {s : State} {v : Verdict} {idx : Nat} (h : Keeps s0 s) :
    Keeps s0 (actOnVerdict s v idx) := by
  unfold actOnVerdict
  try dsimp only
  repeat' first
    | (with_reducible assumption) | (with_reducible intro _) | (with_reducible apply setNumeric_keeps)
    | (with_reducible apply recordSuspect_keeps) | split | (with_reducible apply keeps_upd)

theorem afterCases_keeps {s0 : State} {s : State} (h : Keeps s0 s) :
    Keeps s0 (afterCases s) := by
  unfold afterCases
  try dsimp only
  repeat' first
    | (with_reducible assumption) | (with_reducible intro _) | (with_reducible apply castVote_keeps)
    | (with_reducible apply sendPoison_keeps) | (with_reducible apply tryEndJob_keeps)
    | (with_reducible apply drainIfDue_keeps) | split | (with_reducible apply keeps_upd)

theorem execCaseResolve_keeps {s0 : State} {hub : Nat} {slot : Nat} {fltW : List (Nat × W32)} {fltC : List (Nat × W32)} {flt3 : List (Nat × W32)} {s : State} (h : Keeps s0 s) :
    KeepsOut s0 (execCaseResolve hub slot fltW fltC flt3 s) := by
  unfold execCaseResolve
  try dsimp only
  repeat' first
    | (with_reducible assumption) | (with_reducible intro _) | (with_reducible exact keepsOut_fault)
    | (with_reducible exact keepsOut_refused) | (with_reducible apply keepsOut_next)
    | (with_reducible apply keepsOut_next) | (with_reducible apply noEvent_keeps)
    | (with_reducible apply tolWord_keeps) | (with_reducible apply modHub_keeps)
    | (with_reducible apply raiseEv_keeps) | (with_reducible apply afterCases_keeps)
    | (with_reducible apply actOnVerdict_keeps) | split | (with_reducible apply keeps_upd)

end Sys2Proof.Machine
end

