-- ==== Sys2Proof/Laws/KeepColl.lean ====
section
/-! SUPPORT. The operations of Machine/Coll.lean keep the queue and the canonical form of memory. -/

namespace Sys2Proof.Machine

open Sys2Proof.Config

theorem modRun_keeps {s0 : State} {s : State} {op : Nat} {f : CollRun → CollRun} (h : Keeps s0 s) :
    Keeps s0 (modRun s op f) := by
  unfold modRun
  try dsimp only
  repeat' first
    | (with_reducible assumption) | (with_reducible intro _) | split | (with_reducible apply keeps_upd)

theorem sendSegment_keeps {s0 : State} {w : Sender} {phase : Nat} {rank : Nat} {seg : Nat} {bs : List Byte} {s : State} (h : Keeps s0 s) :
    Keeps s0 (sendSegment w phase rank seg bs s) := by
  unfold sendSegment
  try dsimp only
  repeat' first
    | (with_reducible assumption) | (with_reducible intro _) | (with_reducible apply modRun_keeps)
    | (with_reducible apply seamSend_keeps) | (with_reducible apply foldl_keeps) | split
    | (with_reducible apply keeps_upd)

theorem sendRange_keeps {s0 : State} {w : Sender} {phase : Nat} {rank : Nat} {a : Nat} {n : Nat} {s : State} (h : Keeps s0 s) :
    Keeps s0 (sendRange w phase rank a n s) := by
  unfold sendRange
  try dsimp only
  repeat' first
    | (with_reducible assumption) | (with_reducible intro _) | (with_reducible apply readBytes_keeps)
    | (with_reducible apply unlessAbandoned_keeps) | (with_reducible apply sendSegment_keeps)
    | (with_reducible apply foldl_keeps) | split | (with_reducible apply keeps_upd)

theorem wrote_keeps {s0 : State} {s : State} {op : Nat} {n : Nat} (h : Keeps s0 s) :
    Keeps s0 (wrote s op n) := by
  unfold wrote
  try dsimp only
  repeat' first
    | (with_reducible assumption) | (with_reducible intro _) | (with_reducible apply modRun_keeps) | split
    | (with_reducible apply keeps_upd)

theorem collWrite_keeps {s0 : State} {s : State} {op : Nat} {a : Nat} {bs : List Byte} (h : Keeps s0 s) :
    Keeps s0 (collWrite s op a bs) := by
  unfold collWrite
  try dsimp only
  repeat' first
    | (with_reducible assumption) | (with_reducible intro _) | (with_reducible apply wrote_keeps)
    | (with_reducible apply tagHeld_keeps) | (with_reducible apply stepWrite_keeps) | split
    | (with_reducible apply keeps_upd)

theorem finishRun_keeps {s0 : State} {s : State} {p : Package} {op : Nat} (h : Keeps s0 s) :
    Keeps s0 (finishRun s p op) := by
  unfold finishRun
  try dsimp only
  repeat' first
    | (with_reducible assumption) | (with_reducible intro _) | split | (with_reducible apply keeps_upd)

theorem placeSegment_keeps {s0 : State} {s : State} {v : CollView} {r : CollRun} {hh : Head} {bs : List Byte} (h : Keeps s0 s) :
    Keeps s0 (placeSegment s v r hh bs) := by
  unfold placeSegment
  try dsimp only
  repeat' first
    | (with_reducible assumption) | (with_reducible intro _) | (with_reducible apply collWrite_keeps) | split
    | (with_reducible apply keeps_upd)

theorem arriveSegment_keeps {s0 : State} {s : State} {p : Package} {hh : Head} {bs : List Byte} (h : Keeps s0 s) :
    Keeps s0 (arriveSegment s p hh bs) := by
  unfold arriveSegment
  try dsimp only
  repeat' first
    | (with_reducible assumption) | (with_reducible intro _) | (with_reducible apply finishRun_keeps)
    | (with_reducible apply placeSegment_keeps) | split | (with_reducible apply keeps_upd)

theorem takeBuffered_keeps {s0 : State} {s : State} {p : Package} {desc : Nat} {micro : Nat} (h : Keeps s0 s) :
    Keeps s0 (takeBuffered s p desc micro) := by
  unfold takeBuffered
  try dsimp only
  repeat' first
    | (with_reducible assumption) | (with_reducible intro _) | (with_reducible apply arriveSegment_keeps)
    | (with_reducible apply foldl_keeps) | split | (with_reducible apply keeps_upd)

theorem issueSends_keeps {s0 : State} {w : Sender} {panel : Nat} {s : State} (h : Keeps s0 s) :
    Keeps s0 (issueSends w panel s) := by
  unfold issueSends
  try dsimp only
  repeat' first
    | (with_reducible assumption) | (with_reducible intro _) | (with_reducible apply sendRange_keeps)
    | (with_reducible apply foldl_keeps) | split | (with_reducible apply keeps_upd)

theorem ownPart_keeps {s0 : State} {w : Sender} {panel : Nat} {s : State} (h : Keeps s0 s) :
    Keeps s0 (ownPart w panel s) := by
  unfold ownPart
  try dsimp only
  repeat' first
    | (with_reducible assumption) | (with_reducible intro _) | (with_reducible apply readBytes_keeps)
    | (with_reducible apply unlessAbandoned_keeps) | (with_reducible apply collWrite_keeps) | split
    | (with_reducible apply keeps_upd)

theorem execColl_keeps {s0 : State} {x : MovRef} {s : State} (h : Keeps s0 s) :
    KeepsOut s0 (execColl x s) := by
  unfold execColl
  try dsimp only
  repeat' first
    | (with_reducible assumption) | (with_reducible intro _) | (with_reducible exact keepsOut_fault)
    | (with_reducible exact keepsOut_refused) | (with_reducible apply keepsOut_next)
    | (with_reducible apply whenIssuing_keeps) | (with_reducible apply startOp_keeps)
    | (with_reducible apply modJob_keeps) | (with_reducible apply unlessAbandoned_keeps)
    | (with_reducible apply issueSends_keeps) | (with_reducible apply ownPart_keeps)
    | (with_reducible apply takeBuffered_keeps) | (with_reducible apply returnCredits_keeps)
    | (with_reducible apply finishRun_keeps) | split | (with_reducible apply keeps_upd)

theorem foldSegment_keeps {s0 : State} {w : Sender} {r : CollRun} {seg : Nat} {n : Nat} {parts : List (List Byte)} {s : State} (h : Keeps s0 s) :
    Keeps s0 (foldSegment w r seg n parts s) := by
  unfold foldSegment
  try dsimp only
  repeat' first
    | (with_reducible assumption) | (with_reducible intro _) | (with_reducible apply collWrite_keeps)
    | (with_reducible apply modRun_keeps) | (with_reducible apply sendSegment_keeps)
    | (with_reducible apply foldl_keeps) | split | (with_reducible apply keeps_upd)

theorem execCollFold_keeps {s0 : State} {desc : Nat} {micro : Nat} {segment : Nat} {s : State} (h : Keeps s0 s) :
    KeepsOut s0 (execCollFold desc micro segment s) := by
  unfold execCollFold
  try dsimp only
  repeat' first
    | (with_reducible assumption) | (with_reducible intro _) | (with_reducible exact keepsOut_fault)
    | (with_reducible exact keepsOut_refused) | (with_reducible apply keepsOut_next)
    | (with_reducible apply whenRunning_keeps) | (with_reducible apply keepsOut_next)
    | (with_reducible apply readBytes_keeps) | (with_reducible apply returnCredits_keeps)
    | (with_reducible apply finishRun_keeps) | (with_reducible apply unlessAbandoned_keeps)
    | (with_reducible apply foldSegment_keeps) | (with_reducible apply noEvent_keeps) | split | exact id
    | (with_reducible apply keeps_upd)

end Sys2Proof.Machine
end

