-- ==== Sys2Proof/Laws/KeepRestore.lean ====
section
/-! SUPPORT. The operations of Machine/Restore.lean keep the queue and the canonical form of memory. -/

namespace Sys2Proof.Machine

open Sys2Proof.Config

theorem modRest_keeps {s0 : State} {s : State} {f : RestoreRun → RestoreRun} (h : Keeps s0 s) :
    Keeps s0 (modRest s f) := by
  unfold modRest
  try dsimp only
  repeat' first
    | (with_reducible assumption) | (with_reducible intro _) | split | (with_reducible apply keeps_upd)

theorem checkManifest_keeps {s0 : State} {s : State} (h : Keeps s0 s) :
    Keeps s0 (checkManifest s) := by
  unfold checkManifest
  try dsimp only
  repeat' first
    | (with_reducible assumption) | (with_reducible intro _) | (with_reducible apply failRestore_keeps)
    | (with_reducible apply modRest_keeps) | split | (with_reducible apply keeps_upd)

theorem restoreLine_keeps {s0 : State} {p : Package} {m : Manifest} {start : Nat} {o : Nat} {bs : List Byte} {s : State} (h : Keeps s0 s) :
    Keeps s0 (restoreLine p m start o bs s) := by
  unfold restoreLine
  try dsimp only
  repeat' first
    | (with_reducible assumption) | (with_reducible intro _) | (with_reducible apply jobFault_keeps)
    | (with_reducible apply rawWrite_keeps) | (with_reducible apply modRest_keeps) | split
    | (with_reducible apply keeps_upd)

theorem restoreImage_keeps {s0 : State} {s : State} {p : Package} {r : RestoreRun} {m : Manifest} {o : Nat} {bs : List Byte} (h : Keeps s0 s) :
    Keeps s0 (restoreImage s p r m o bs).2 := by
  unfold restoreImage
  try dsimp only
  repeat' first
    | (with_reducible assumption) | (with_reducible intro _) | (with_reducible apply restoreLine_keeps)
    | (with_reducible apply foldl_keeps) | split | (with_reducible apply keeps_upd)

theorem restoreWrite_keeps {s0 : State} {s : State} {off : Nat} {bs : List Byte} (h : Keeps s0 s) :
    Keeps s0 (restoreWrite s off bs).2 := by
  unfold restoreWrite
  try dsimp only
  repeat' first
    | (with_reducible assumption) | (with_reducible intro _) | (with_reducible apply checkManifest_keeps)
    | (with_reducible apply restoreImage_keeps) | split | (with_reducible apply keeps_upd)

theorem chunkBack_keeps {s0 : State} {s : State} {p : Package} {r : RestoreRun} {c : Chunk} (h : Keeps s0 s) :
    Keeps s0 (chunkBack s p r c).2 := by
  unfold chunkBack
  try dsimp only
  repeat' first
    | (with_reducible assumption) | (with_reducible intro _) | (with_reducible apply touchRange_keeps)
    | (with_reducible apply foldl_keeps) | split | (with_reducible apply keeps_upd)

theorem restoreCounters_keeps {s0 : State} {s : State} {b : Machine.SavedState} (h : Keeps s0 s) :
    Keeps s0 (restoreCounters s b) := by
  unfold restoreCounters
  try dsimp only
  repeat' first
    | (with_reducible assumption) | (with_reducible intro _) | split | (with_reducible apply keeps_upd)

theorem restoreFlow_keeps {s0 : State} {s : State} {p : Package} {f : FlowState} (h : Keeps s0 s) :
    Keeps s0 (restoreFlow s p f) := by
  unfold restoreFlow
  try dsimp only
  repeat' first
    | (with_reducible assumption) | (with_reducible intro _) | split | (with_reducible apply keeps_upd)

theorem commitRestore_keeps {s0 : State} {s : State} {p : Package} {r : RestoreRun} {m : Manifest} (h : Keeps s0 s) :
    Keeps s0 (commitRestore s p r m) := by
  unfold commitRestore
  try dsimp only
  repeat' first
    | (with_reducible assumption) | (with_reducible intro _) | (with_reducible apply raiseEv_keeps)
    | (with_reducible apply restoreCounters_keeps) | (with_reducible apply restoreFlow_keeps)
    | (with_reducible apply setNumeric_keeps) | (with_reducible apply foldl_keeps) | split
    | (with_reducible apply keeps_upd)

theorem execRestoreChunk_keeps {s0 : State} {chunk : Nat} {s : State} (h : Keeps s0 s) :
    KeepsOut s0 (execRestoreChunk chunk s) := by
  unfold execRestoreChunk
  try dsimp only
  repeat' first
    | (with_reducible assumption) | (with_reducible intro _) | (with_reducible exact keepsOut_fault)
    | (with_reducible exact keepsOut_refused) | (with_reducible apply keepsOut_next)
    | (with_reducible apply keepsOut_next) | (with_reducible apply noEvent_keeps)
    | (with_reducible apply chunkBack_keeps) | (with_reducible apply failRestore_keeps)
    | (with_reducible apply modRest_keeps) | (with_reducible apply commitRestore_keeps) | split
    | (with_reducible apply keeps_upd)

end Sys2Proof.Machine
end

