-- ==== Sys2Proof/Laws/KeepHost.lean ====
section
/-! SUPPORT. The operations of Machine/Host.lean keep the queue and the canonical form of memory. -/

namespace Sys2Proof.Machine

open Sys2Proof.Config

theorem modStat_keeps {s0 : State} {s : State} {e : Nat} {f : HostStat → HostStat} (h : Keeps s0 s) :
    Keeps s0 (modStat s e f) := by
  unfold modStat
  try dsimp only
  repeat' first
    | (with_reducible assumption) | (with_reducible intro _) | (with_reducible apply modHostPort_keeps) | split
    | (with_reducible apply keeps_upd)

theorem countRx_keeps {s0 : State} {s : State} {e : Nat} {fec : Nat} (h : Keeps s0 s) :
    Keeps s0 (countRx s e fec) := by
  unfold countRx
  try dsimp only
  repeat' first
    | (with_reducible assumption) | (with_reducible intro _) | (with_reducible apply modStat_keeps) | split
    | (with_reducible apply keeps_upd)

theorem fillRx_keeps {s0 : State} {s : State} {e : Nat} {low : Nat} {n : Nat} (h : Keeps s0 s) :
    Keeps s0 (fillRx s e low n) := by
  unfold fillRx
  try dsimp only
  repeat' first
    | (with_reducible assumption) | (with_reducible intro _) | (with_reducible apply modHostPort_keeps)
    | (with_reducible apply answer_keeps) | split | (with_reducible apply keeps_upd)

theorem takeFrame_keeps {s0 : State} {s : State} {e : Nat} {fec : Nat} {f : FrameIn} (h : Keeps s0 s) :
    Keeps s0 (takeFrame s e fec f) := by
  unfold takeFrame
  try dsimp only
  repeat' first
    | (with_reducible assumption) | (with_reducible intro _) | (with_reducible apply fillRx_keeps)
    | (with_reducible apply countRx_keeps) | split | (with_reducible apply keeps_upd)

theorem whenUp_keeps {s0 : State} {s : State} {e : Nat} {k : State → Out}
    (hk : ∀ t, Keeps s0 t → KeepsOut s0 (k t)) (h : Keeps s0 s) : KeepsOut s0 (whenUp s e k) := by
  unfold whenUp
  split
  · exact hk _ (countRx_keeps h)
  · exact keepsOut_next h

theorem dropFrame_keeps {s0 : State} {s : State} {e : Nat} {c : DropCause} (h : Keeps s0 s) :
    Keeps s0 (dropFrame s e c) := by
  unfold dropFrame
  try dsimp only
  repeat' first
    | (with_reducible assumption) | (with_reducible intro _) | (with_reducible apply modStat_keeps) | split
    | (with_reducible apply keeps_upd)

theorem execDroppedFrame_keeps {s0 : State} {port : Nat} {c : DropCause} {s : State} (h : Keeps s0 s) :
    KeepsOut s0 (execDroppedFrame port c s) := by
  unfold execDroppedFrame
  try dsimp only
  repeat' first
    | (with_reducible assumption) | (with_reducible intro _) | (with_reducible exact keepsOut_fault)
    | (with_reducible exact keepsOut_refused) | (with_reducible apply keepsOut_next)
    | (with_reducible apply whenUp_keeps) | (with_reducible apply dropFrame_keeps)
    | (with_reducible apply fillRx_keeps) | split | (with_reducible apply keeps_upd)

theorem withFrame_keeps {s0 : State} {s : State} {x : PortFrame} {c : State → Option DropCause} {k : State → State}
    (hk : ∀ t, Keeps s0 t → Keeps s0 (k t)) (h : Keeps s0 s) : KeepsOut s0 (withFrame s x c k) := by
  unfold withFrame
  split
  · dsimp only
    apply keepsOut_next
    split
    · exact dropFrame_keeps (takeFrame_keeps h)
    · exact hk _ (takeFrame_keeps h)
  · exact keepsOut_next h

theorem execArp_keeps {s0 : State} {x : PortFrame} {target : Nat} {s : State} (h : Keeps s0 s) :
    KeepsOut s0 (execArp x target s) := by
  unfold execArp
  refine withFrame_keeps (fun t ht => ?_) h
  split
  · exact answer_keeps ht
  · exact ht

theorem execNeighborDiscovery_keeps {s0 : State} {x : PortFrame} {target : Nat} {s : State} (h : Keeps s0 s) :
    KeepsOut s0 (execNeighborDiscovery x target s) := by
  unfold execNeighborDiscovery
  refine withFrame_keeps (fun t ht => ?_) h
  split
  · exact answer_keeps ht
  · exact ht

theorem rollSecond_keeps {s0 : State} {s : State} {e : Nat} (h : Keeps s0 s) :
    Keeps s0 (rollSecond s e) := by
  unfold rollSecond
  try dsimp only
  repeat' first
    | (with_reducible assumption) | (with_reducible intro _) | (with_reducible apply modHostPort_keeps) | split
    | (with_reducible apply keeps_upd)

theorem execIcmpEcho_keeps {s0 : State} {x : PortFrame} {s : State} (h : Keeps s0 s) :
    KeepsOut s0 (execIcmpEcho x s) := by
  unfold execIcmpEcho
  refine withFrame_keeps (fun t ht => ?_) h
  dsimp only
  split
  · exact answer_keeps (modHostPort_keeps (rollSecond_keeps ht))
  · exact modHostPort_keeps (rollSecond_keeps ht)

theorem execPfc_keeps {s0 : State} {x : PortFrame} {mask : Nat} {s : State} (h : Keeps s0 s) :
    KeepsOut s0 (execPfc x mask s) := by
  unfold execPfc
  exact withFrame_keeps (fun _ ht => setPaused_keeps ht) h

theorem execHostLinkUp_keeps {s0 : State} {port : Nat} {s : State} (h : Keeps s0 s) :
    KeepsOut s0 (execHostLinkUp port s) := by
  unfold execHostLinkUp
  try dsimp only
  repeat' first
    | (with_reducible assumption) | (with_reducible intro _) | (with_reducible exact keepsOut_fault)
    | (with_reducible exact keepsOut_refused) | (with_reducible apply keepsOut_next)
    | (with_reducible apply keepsOut_next) | (with_reducible apply modHostPort_keeps)
    | (with_reducible apply noEvent_keeps) | split | (with_reducible apply keeps_upd)

theorem execHostLinkDown_keeps {s0 : State} {port : Nat} {s : State} (h : Keeps s0 s) :
    KeepsOut s0 (execHostLinkDown port s) := by
  unfold execHostLinkDown
  try dsimp only
  repeat' first
    | (with_reducible assumption) | (with_reducible intro _) | (with_reducible exact keepsOut_fault)
    | (with_reducible exact keepsOut_refused) | (with_reducible apply keepsOut_next)
    | (with_reducible apply keepsOut_next) | (with_reducible apply setCause_keeps)
    | (with_reducible apply raiseEv_keeps) | (with_reducible apply modHostPort_keeps)
    | (with_reducible apply noEvent_keeps) | split | (with_reducible apply keeps_upd)

theorem takeRing_keeps {s0 : State} {s : State} {m : Nat} (h : Keeps s0 s) :
    Keeps s0 (takeRing s m) := by
  unfold takeRing
  try dsimp only
  repeat' first
    | (with_reducible assumption) | (with_reducible intro _) | (with_reducible apply modBox_keeps) | split
    | (with_reducible apply keeps_upd)

theorem ringBox_keeps {s0 : State} {s : State} {m : Nat} {sid : Nat} (h : Keeps s0 s) :
    Keeps s0 (ringBox s m sid) := by
  unfold ringBox
  try dsimp only
  repeat' first
    | (with_reducible assumption) | (with_reducible intro _) | (with_reducible apply modBox_keeps)
    | (with_reducible apply replyBad_keeps) | (with_reducible apply takeRing_keeps) | split
    | (with_reducible apply keeps_upd)

theorem abortWait_keeps {s0 : State} {s : State} {m : Nat} {x2 : WaitPoint} (h : Keeps s0 s) :
    Keeps s0 (abortWait s m x2) := by
  unfold abortWait
  try dsimp only
  repeat' first
    | (with_reducible assumption) | (with_reducible intro _) | (with_reducible apply replyBad_keeps) | split
    | (with_reducible apply keeps_upd)

theorem abortBox_keeps {s0 : State} {s : State} {m : Nat} (h : Keeps s0 s) :
    Keeps s0 (abortBox s m) := by
  unfold abortBox
  try dsimp only
  repeat' first
    | (with_reducible assumption) | (with_reducible intro _) | (with_reducible apply replyBad_keeps)
    | (with_reducible apply abortWait_keeps) | split | (with_reducible apply keeps_upd)

theorem execMbAbort_keeps {s0 : State} {mailbox : Nat} {s : State} (h : Keeps s0 s) :
    KeepsOut s0 (execMbAbort mailbox s) := by
  unfold execMbAbort
  try dsimp only
  repeat' first
    | (with_reducible assumption) | (with_reducible intro _) | (with_reducible exact keepsOut_fault)
    | (with_reducible exact keepsOut_refused) | (with_reducible apply keepsOut_next)
    | (with_reducible apply abortBox_keeps) | split | (with_reducible apply keeps_upd)

theorem execMailboxClaimTimeout_keeps {s0 : State} {mailbox : Nat} {s : State} (h : Keeps s0 s) :
    KeepsOut s0 (execMailboxClaimTimeout mailbox s) := by
  unfold execMailboxClaimTimeout
  try dsimp only
  repeat' first
    | (with_reducible assumption) | (with_reducible intro _) | (with_reducible exact keepsOut_fault)
    | (with_reducible exact keepsOut_refused) | (with_reducible apply keepsOut_next)
    | (with_reducible apply keepsOut_next) | (with_reducible apply freeBox_keeps)
    | (with_reducible apply noEvent_keeps) | split | (with_reducible apply keeps_upd)

theorem windowWrite_keeps {s0 : State} {s : State} {w : LoadWindow} {off : Nat} {bs : List Byte} (h : Keeps s0 s) :
    Keeps s0 (windowWrite s w off bs).2 := by
  unfold windowWrite
  try dsimp only
  repeat' first
    | (with_reducible assumption) | (with_reducible intro _) | (with_reducible apply rawWrite_keeps)
    | (with_reducible apply foldl_keeps) | split | (with_reducible apply keeps_upd)

theorem slotWrite_keeps {s0 : State} {s : State} {d : StreamDesc} {off : Nat} {bs : List Byte} (h : Keeps s0 s) :
    Keeps s0 (slotWrite s d off bs).2 := by
  unfold slotWrite
  try dsimp only
  repeat' first
    | (with_reducible assumption) | (with_reducible intro _) | (with_reducible apply storeBytes_keeps)
    | (with_reducible apply foldl_keeps) | split | (with_reducible apply keeps_upd)

theorem writeEffect_keeps {s0 : State} {s : State} {v : Flow} {off : Nat} {bs : List Byte} (h : Keeps s0 s) :
    Keeps s0 (writeEffect s v off bs).2 := by
  unfold writeEffect
  try dsimp only
  repeat' first
    | (with_reducible assumption) | (with_reducible intro _) | (with_reducible apply windowWrite_keeps)
    | (with_reducible apply restoreWrite_keeps) | (with_reducible apply slotWrite_keeps) | split
    | (with_reducible apply keeps_upd)

theorem readyEffect_keeps {s0 : State} {s : State} {v : Flow} {step : Nat} {count : Nat} (h : Keeps s0 s) :
    Keeps s0 (readyEffect s v step count).2 := by
  unfold readyEffect
  try dsimp only
  repeat' first
    | (with_reducible assumption) | (with_reducible intro _) | split | (with_reducible apply keeps_upd)

theorem ctrlEffect_keeps {s0 : State} {s : State} {v : Flow} {m : Nat} {ring : Bool} {abort : Bool} {off : Nat} {bs : List Byte} (h : Keeps s0 s) :
    Keeps s0 (ctrlEffect s v m ring abort off bs).2 := by
  unfold ctrlEffect
  try dsimp only
  repeat' first
    | (with_reducible assumption) | (with_reducible intro _) | (with_reducible apply modBox_keeps)
    | (with_reducible apply ringBox_keeps) | (with_reducible apply abortBox_keeps) | split
    | (with_reducible apply keeps_upd)

theorem closeEffect_keeps {s0 : State} {s : State} {f : Nat} {v : Flow} (h : Keeps s0 s) :
    Keeps s0 (closeEffect s f v) := by
  unfold closeEffect
  try dsimp only
  repeat' first
    | (with_reducible assumption) | (with_reducible intro _) | (with_reducible apply closeIfDone_keeps)
    | (with_reducible apply setFlow_keeps) | split | (with_reducible apply keeps_upd)

theorem actEffect_keeps {s0 : State} {s : State} {f : Nat} {v : Flow} {x3 : PktAct} (h : Keeps s0 s) :
    Keeps s0 (actEffect s f v x3).2 := by
  unfold actEffect
  try dsimp only
  repeat' first
    | (with_reducible assumption) | (with_reducible intro _) | (with_reducible apply writeEffect_keeps)
    | (with_reducible apply readyEffect_keeps) | (with_reducible apply ctrlEffect_keeps)
    | (with_reducible apply closeEffect_keeps) | split | (with_reducible apply keeps_upd)

theorem takeEffect_keeps {s0 : State} {s : State} {f : Nat} {hh : HeldPkt} (h : Keeps s0 s) :
    Keeps s0 (takeEffect s f hh) := by
  unfold takeEffect
  try dsimp only
  repeat' first
    | (with_reducible assumption) | (with_reducible intro _) | (with_reducible apply actEffect_keeps)
    | (with_reducible apply sendAck_keeps) | (with_reducible apply modFlow_keeps) | split
    | (with_reducible apply keeps_upd)

theorem releaseHeld_keeps {s0 : State} {s : State} {f : Nat} {hh : HeldPkt} (h : Keeps s0 s) :
    Keeps s0 (releaseHeld s f hh) := by
  unfold releaseHeld
  try dsimp only
  repeat' first
    | (with_reducible assumption) | (with_reducible intro _) | (with_reducible apply takeEffect_keeps)
    | (with_reducible apply modFlow_keeps) | split | (with_reducible apply keeps_upd)

theorem settleHeld_keeps {s0 : State} {s : State} {f : Nat} (h : Keeps s0 s) :
    Keeps s0 (settleHeld s f) := by
  unfold settleHeld
  try dsimp only
  repeat' first
    | (with_reducible assumption) | (with_reducible intro _) | (with_reducible apply releaseHeld_keeps)
    | (with_reducible apply foldl_keeps) | split | (with_reducible apply keeps_upd)

theorem endFlow_keeps {s0 : State} {s : State} {f : Nat} (h : Keeps s0 s) :
    Keeps s0 (endFlow s f) := by
  unfold endFlow
  try dsimp only
  repeat' first
    | (with_reducible assumption) | (with_reducible intro _) | (with_reducible apply freeFlow_keeps)
    | (with_reducible apply settleHeld_keeps) | split | (with_reducible apply keeps_upd)

theorem releaseBehind_keeps {s0 : State} : ∀ {n f : Nat} {s : State}, Keeps s0 s → Keeps s0 (releaseBehind n f s)
  | 0, _, _, h => h
  | n + 1, f, s, h => by
    unfold releaseBehind
    split
    · exact h
    · split
      · exact releaseBehind_keeps (n := n) (releaseHeld_keeps h)
      · exact h

theorem arrivePkt_keeps {s0 : State} {s : State} {f : Nat} {psn : Nat} {fw : Bool} {fa : Bool} {a : PktAct} (h : Keeps s0 s) :
    Keeps s0 (arrivePkt s f psn fw fa a) := by
  unfold arrivePkt
  try dsimp only
  repeat' first
    | (with_reducible assumption) | (with_reducible intro _) | (with_reducible apply takeEffect_keeps)
    | (with_reducible apply setFlow_keeps) | split | (with_reducible apply keeps_upd)

theorem ackIfDue_keeps {s0 : State} {s : State} {f : Nat} {now : Bool} (h : Keeps s0 s) :
    Keeps s0 (ackIfDue s f now) := by
  unfold ackIfDue
  try dsimp only
  repeat' first
    | (with_reducible assumption) | (with_reducible intro _) | (with_reducible apply sendAck_keeps) | split
    | (with_reducible apply keeps_upd)

theorem psnEpoch_keeps {s0 : State} {s : State} {v : Flow} {psn : Nat} (h : Keeps s0 s) :
    Keeps s0 (psnEpoch s v psn) := by
  unfold psnEpoch
  try dsimp only
  repeat' first
    | (with_reducible assumption) | (with_reducible intro _) | (with_reducible apply sendKeyUpdate_keeps)
    | split | (with_reducible apply keeps_upd)

theorem execRatePeriod_keeps {s0 : State} {flow : Nat} {s : State} (h : Keeps s0 s) :
    KeepsOut s0 (execRatePeriod flow s) := by
  unfold execRatePeriod
  try dsimp only
  repeat' first
    | (with_reducible assumption) | (with_reducible intro _) | (with_reducible exact keepsOut_fault)
    | (with_reducible exact keepsOut_refused) | (with_reducible apply keepsOut_next)
    | (with_reducible apply keepsOut_next) | (with_reducible apply noEvent_keeps)
    | (with_reducible apply setFlow_keeps) | split | (with_reducible apply keeps_upd)

theorem execRetransmitTimeout_keeps {s0 : State} {flow : Nat} {s : State} (h : Keeps s0 s) :
    KeepsOut s0 (execRetransmitTimeout flow s) := by
  unfold execRetransmitTimeout
  try dsimp only
  repeat' first
    | (with_reducible assumption) | (with_reducible intro _) | (with_reducible exact keepsOut_fault)
    | (with_reducible exact keepsOut_refused) | (with_reducible apply keepsOut_next)
    | (with_reducible apply keepsOut_next) | (with_reducible apply noEvent_keeps)
    | (with_reducible apply resend_keeps) | (with_reducible apply setFlow_keeps) | split
    | (with_reducible apply keeps_upd)

theorem freeAcked_keeps {s0 : State} {s : State} {m : Nat} (h : Keeps s0 s) :
    Keeps s0 (freeAcked s m) := by
  unfold freeAcked
  try dsimp only
  repeat' first
    | (with_reducible assumption) | (with_reducible intro _) | (with_reducible apply reply_keeps)
    | (with_reducible apply freeBox_keeps) | split | (with_reducible apply keeps_upd)

theorem pktAcked_keeps {s0 : State} {s : State} {t : TxPkt} (h : Keeps s0 s) :
    Keeps s0 (pktAcked s t) := by
  unfold pktAcked
  try dsimp only
  repeat' first
    | (with_reducible assumption) | (with_reducible intro _) | (with_reducible apply reply_keeps)
    | (with_reducible apply freeAcked_keeps) | (with_reducible apply setNoteQueue_keeps) | split
    | (with_reducible apply keeps_upd)

theorem ackFlow_keeps {s0 : State} {s : State} {f : Nat} {v : Flow} {b : AckBody} (h : Keeps s0 s) :
    Keeps s0 (ackFlow s f v b) := by
  unfold ackFlow
  try dsimp only
  repeat' first
    | (with_reducible assumption) | (with_reducible intro _) | (with_reducible apply takeFree_keeps)
    | (with_reducible apply resend_keeps) | (with_reducible apply setFlow_keeps)
    | (with_reducible apply pktAcked_keeps) | (with_reducible apply closeIfDone_keeps)
    | (with_reducible apply pumpEmits_keeps) | (with_reducible apply snapAcks_keeps)
    | (with_reducible apply foldl_keeps) | split | (with_reducible apply keeps_upd)

theorem requeue_keeps {s0 : State} {s : State} {f : Nat} (h : Keeps s0 s) :
    Keeps s0 (requeue s f) := by
  unfold requeue
  try dsimp only
  repeat' first
    | (with_reducible assumption) | (with_reducible intro _) | (with_reducible apply setFlow_keeps)
    | (with_reducible apply setOp_keeps) | (with_reducible apply modSnap_keeps)
    | (with_reducible apply foldl_keeps) | split | (with_reducible apply keeps_upd)

theorem endSession_keeps {s0 : State} {s : State} {sid : Nat} (h : Keeps s0 s) :
    Keeps s0 (endSession s sid) := by
  unfold endSession
  try dsimp only
  repeat' first
    | (with_reducible assumption) | (with_reducible intro _) | (with_reducible apply endFlow_keeps)
    | (with_reducible apply requeue_keeps) | (with_reducible apply tryEndJob_keeps)
    | (with_reducible apply pumpSnap_keeps) | (with_reducible apply pumpEmits_keeps)
    | (with_reducible apply raiseEv_keeps) | (with_reducible apply foldl_keeps) | split
    | (with_reducible apply keeps_upd)

theorem sweepSessions_keeps {s0 : State} {s : State} (h : Keeps s0 s) :
    Keeps s0 (sweepSessions s) := by
  unfold sweepSessions
  try dsimp only
  repeat' first
    | (with_reducible assumption) | (with_reducible intro _) | (with_reducible apply endSession_keeps)
    | (with_reducible apply foldl_keeps) | split | (with_reducible apply keeps_upd)

theorem starveRestore_keeps {s0 : State} {s : State} {v : Flow} (h : Keeps s0 s) :
    Keeps s0 (starveRestore s v) := by
  unfold starveRestore
  try dsimp only
  repeat' first
    | (with_reducible assumption) | (with_reducible intro _) | (with_reducible apply failRestore_keeps) | split
    | (with_reducible apply keeps_upd)

theorem failFlow_keeps {s0 : State} {s : State} {f : Nat} {v : Flow} (h : Keeps s0 s) :
    Keeps s0 (failFlow s f v) := by
  unfold failFlow
  try dsimp only
  repeat' first
    | (with_reducible assumption) | (with_reducible intro _) | (with_reducible apply raiseEv_keeps)
    | (with_reducible apply modFlow_keeps) | (with_reducible apply requeue_keeps)
    | (with_reducible apply starveRestore_keeps) | (with_reducible apply endSession_keeps)
    | (with_reducible apply tryEndJob_keeps) | (with_reducible apply pumpSnap_keeps)
    | (with_reducible apply pumpEmits_keeps) | split | (with_reducible apply keeps_upd)

theorem execFlowTimeout_keeps {s0 : State} {flow : Nat} {s : State} (h : Keeps s0 s) :
    KeepsOut s0 (execFlowTimeout flow s) := by
  unfold execFlowTimeout
  try dsimp only
  repeat' first
    | (with_reducible assumption) | (with_reducible intro _) | (with_reducible exact keepsOut_fault)
    | (with_reducible exact keepsOut_refused) | (with_reducible apply keepsOut_next)
    | (with_reducible apply keepsOut_next) | (with_reducible apply noEvent_keeps)
    | (with_reducible apply failFlow_keeps) | (with_reducible apply sweepSessions_keeps)
    | (with_reducible apply tryEndJob_keeps) | (with_reducible apply pumpSnap_keeps)
    | (with_reducible apply pumpEmits_keeps) | (with_reducible apply closeFlow_keeps)
    | (with_reducible apply settleHeld_keeps) | (with_reducible apply requeue_keeps)
    | (with_reducible apply failSnapshot_keeps) | split | (with_reducible apply keeps_upd)

theorem execFenceW_keeps {s0 : State} {flow : Nat} {psn : Nat} {s : State} (h : Keeps s0 s) :
    KeepsOut s0 (execFenceW flow psn s) := by
  unfold execFenceW
  try dsimp only
  repeat' first
    | (with_reducible assumption) | (with_reducible intro _) | (with_reducible exact keepsOut_fault)
    | (with_reducible exact keepsOut_refused) | (with_reducible apply keepsOut_next)
    | (with_reducible apply keepsOut_next) | (with_reducible apply sweepSessions_keeps)
    | (with_reducible apply closeIfDone_keeps) | (with_reducible apply releaseHeld_keeps)
    | (with_reducible apply noEvent_keeps) | split | (with_reducible apply keeps_upd)

theorem execFenceAll_keeps {s0 : State} {flow : Nat} {psn : Nat} {s : State} (h : Keeps s0 s) :
    KeepsOut s0 (execFenceAll flow psn s) := by
  unfold execFenceAll
  try dsimp only
  repeat' first
    | (with_reducible assumption) | (with_reducible intro _) | (with_reducible exact keepsOut_fault)
    | (with_reducible exact keepsOut_refused) | (with_reducible apply keepsOut_next)
    | (with_reducible apply keepsOut_next) | (with_reducible apply sweepSessions_keeps)
    | (with_reducible apply closeIfDone_keeps) | (with_reducible apply releaseBehind_keeps)
    | (with_reducible apply releaseHeld_keeps) | (with_reducible apply noEvent_keeps) | split
    | (with_reducible apply keeps_upd)

theorem execAckDelayExpiry_keeps {s0 : State} {flow : Nat} {s : State} (h : Keeps s0 s) :
    KeepsOut s0 (execAckDelayExpiry flow s) := by
  unfold execAckDelayExpiry
  try dsimp only
  repeat' first
    | (with_reducible assumption) | (with_reducible intro _) | (with_reducible exact keepsOut_fault)
    | (with_reducible exact keepsOut_refused) | (with_reducible apply keepsOut_next)
    | (with_reducible apply keepsOut_next) | (with_reducible apply sweepSessions_keeps)
    | (with_reducible apply sendAck_keeps) | (with_reducible apply noEvent_keeps) | split
    | (with_reducible apply keeps_upd)

theorem withFlow_keeps {s0 : State} {s : State} {k : Pkt} {y : HemType} {bs : List Byte} {g : State → Flow → State}
    (hg : ∀ t v, Keeps s0 t → Keeps s0 (g t v)) (h : Keeps s0 s) : KeepsOut s0 (withFlow s k y bs g) := by
  unfold withFlow
  have ht := takeFrame_keeps (e := k.port) (fec := k.fec) (f := k.frame) h
  split
  · dsimp only
    split
    · exact keepsOut_next (dropFrame_keeps ht)
    · split
      · exact keepsOut_next (dropFrame_keeps ht)
      · split
        · exact keepsOut_next (dropFrame_keeps ht)
        · split
          · apply keepsOut_next
            split
            · exact endSession_keeps (dropFrame_keeps ht)
            · exact dropFrame_keeps ht
          · split
            · exact keepsOut_next (dropFrame_keeps ht)
            · exact keepsOut_next (sweepSessions_keeps (hg _ _ ht))
  · exact keepsOut_next h

theorem recvPkt_keeps {s0 : State} {s : State} {k : Pkt} {y : HemType} {bs : List Byte} {a : PktAct} (h : Keeps s0 s) :
    KeepsOut s0 (recvPkt s k y bs a) := by
  unfold recvPkt
  try dsimp only
  repeat' first
    | (with_reducible assumption) | (with_reducible intro _) | (with_reducible exact keepsOut_fault)
    | (with_reducible exact keepsOut_refused) | (with_reducible apply keepsOut_next)
    | (with_reducible apply withFlow_keeps) | (with_reducible apply sendAck_keeps)
    | (with_reducible apply dropFrame_keeps) | (with_reducible apply psnEpoch_keeps)
    | (with_reducible apply setFlow_keeps) | (with_reducible apply arrivePkt_keeps)
    | (with_reducible apply ackIfDue_keeps) | split | (with_reducible apply keeps_upd)

theorem execWrite_keeps {s0 : State} {k : Pkt} {bs : List Byte} {s : State} (h : Keeps s0 s) :
    KeepsOut s0 (execWrite k bs s) := by
  unfold execWrite
  try dsimp only
  repeat' first
    | (with_reducible assumption) | (with_reducible intro _) | (with_reducible exact keepsOut_fault)
    | (with_reducible exact keepsOut_refused) | (with_reducible apply keepsOut_next)
    | (with_reducible apply recvPkt_keeps) | split | (with_reducible apply keeps_upd)

theorem execReady_keeps {s0 : State} {k : Pkt} {count : Nat} {s : State} (h : Keeps s0 s) :
    KeepsOut s0 (execReady k count s) := by
  unfold execReady
  try dsimp only
  repeat' first
    | (with_reducible assumption) | (with_reducible intro _) | (with_reducible exact keepsOut_fault)
    | (with_reducible exact keepsOut_refused) | (with_reducible apply keepsOut_next)
    | (with_reducible apply recvPkt_keeps) | split | (with_reducible apply keeps_upd)

theorem execHemlineFence_keeps {s0 : State} {k : Pkt} {s : State} (h : Keeps s0 s) :
    KeepsOut s0 (execHemlineFence k s) := by
  unfold execHemlineFence
  try dsimp only
  repeat' first
    | (with_reducible assumption) | (with_reducible intro _) | (with_reducible exact keepsOut_fault)
    | (with_reducible exact keepsOut_refused) | (with_reducible apply keepsOut_next)
    | (with_reducible apply recvPkt_keeps) | split | (with_reducible apply keeps_upd)

theorem execCtrl_keeps {s0 : State} {k : Pkt} {mailbox : Nat} {ring : Bool} {abort : Bool} {off : Nat} {bs : List Byte} {s : State} (h : Keeps s0 s) :
    KeepsOut s0 (execCtrl k mailbox ring abort off bs s) := by
  unfold execCtrl
  try dsimp only
  repeat' first
    | (with_reducible assumption) | (with_reducible intro _) | (with_reducible exact keepsOut_fault)
    | (with_reducible exact keepsOut_refused) | (with_reducible apply keepsOut_next)
    | (with_reducible apply recvPkt_keeps) | split | (with_reducible apply keeps_upd)

theorem execClose_keeps {s0 : State} {k : Pkt} {s : State} (h : Keeps s0 s) :
    KeepsOut s0 (execClose k s) := by
  unfold execClose
  try dsimp only
  repeat' first
    | (with_reducible assumption) | (with_reducible intro _) | (with_reducible exact keepsOut_fault)
    | (with_reducible exact keepsOut_refused) | (with_reducible apply keepsOut_next)
    | (with_reducible apply recvPkt_keeps) | split | (with_reducible apply keeps_upd)

theorem execAck_keeps {s0 : State} {k : Pkt} {b : AckBody} {s : State} (h : Keeps s0 s) :
    KeepsOut s0 (execAck k b s) := by
  unfold execAck
  try dsimp only
  repeat' first
    | (with_reducible assumption) | (with_reducible intro _) | (with_reducible exact keepsOut_fault)
    | (with_reducible exact keepsOut_refused) | (with_reducible apply keepsOut_next)
    | (with_reducible apply withFlow_keeps) | (with_reducible apply sendAck_keeps)
    | (with_reducible apply ackFlow_keeps) | split | (with_reducible apply keeps_upd)

end Sys2Proof.Machine
end

