-- ==== Sys2Proof/Laws/KeepSession.lean ====
section
/-! SUPPORT. The operations of Machine/Session.lean keep the queue and the canonical form of memory. -/

namespace Sys2Proof.Machine

open Sys2Proof.Config

theorem takeSetup_keeps {s0 : State} {s : State} {e : Nat} {addr : Nat} (h : Keeps s0 s) :
    Keeps s0 (takeSetup s e addr) := by
  unfold takeSetup
  try dsimp only
  repeat' first
    | (with_reducible assumption) | (with_reducible intro _) | (with_reducible apply modHostPort_keeps) | split
    | (with_reducible apply keeps_upd)

theorem withSetup_keeps {s0 : State} {b : Setup} {s : State} {k : State → State}
    (hk : ∀ t, Keeps s0 t → Keeps s0 (k t)) (h : Keeps s0 s) : KeepsOut s0 (withSetup b s k) := by
  unfold withSetup
  split
  · dsimp only
    apply keepsOut_next
    split
    · exact dropFrame_keeps (rollSecond_keeps (takeFrame_keeps h))
    · split
      · exact hk _ (takeSetup_keeps (rollSecond_keeps (takeFrame_keeps h)))
      · exact dropFrame_keeps (rollSecond_keeps (takeFrame_keeps h))
  · exact keepsOut_next h

theorem setupEnds_keeps {s0 : State} {s : State} {st : Status} (h : Keeps s0 s) :
    Keeps s0 (setupEnds s st) := by
  unfold setupEnds
  try dsimp only
  repeat' first
    | (with_reducible assumption) | (with_reducible intro _) | split | (with_reducible apply keeps_upd)

theorem authFailed_keeps {s0 : State} {s : State} {addr : Nat} {phase : Nat} (h : Keeps s0 s) :
    Keeps s0 (authFailed s addr phase) := by
  unfold authFailed
  try dsimp only
  repeat' first
    | (with_reducible assumption) | (with_reducible intro _) | (with_reducible apply raiseEv_keeps)
    | (with_reducible apply setupEnds_keeps) | split | (with_reducible apply keeps_upd)

theorem sendAnswer_keeps {s0 : State} {s : State} {b : Setup} {f : Nat} {nonce : Nat} (h : Keeps s0 s) :
    Keeps s0 (sendAnswer s b f nonce) := by
  unfold sendAnswer
  try dsimp only
  repeat' first
    | (with_reducible assumption) | (with_reducible intro _) | (with_reducible apply sendHemline_keeps) | split
    | (with_reducible apply keeps_upd)

theorem execSetupOffer_keeps {s0 : State} {b : Setup} {answerNonce : Nat} {s : State} (h : Keeps s0 s) :
    KeepsOut s0 (execSetupOffer b answerNonce s) := by
  unfold execSetupOffer
  try dsimp only
  repeat' first
    | (with_reducible assumption) | (with_reducible intro _) | (with_reducible exact keepsOut_fault)
    | (with_reducible exact keepsOut_refused) | (with_reducible apply keepsOut_next)
    | (with_reducible apply withSetup_keeps) | (with_reducible apply dropFrame_keeps)
    | (with_reducible apply setupEnds_keeps) | (with_reducible apply authFailed_keeps)
    | (with_reducible apply sendAnswer_keeps) | split | (with_reducible apply keeps_upd)

theorem openSession_keeps {s0 : State} {s : State} {hh : HalfOpen} (h : Keeps s0 s) :
    Keeps s0 (openSession s hh) := by
  unfold openSession
  try dsimp only
  repeat' first
    | (with_reducible assumption) | (with_reducible intro _) | (with_reducible apply setFlow_keeps)
    | (with_reducible apply raiseEv_keeps) | split | (with_reducible apply keeps_upd)

theorem execSetupFinish_keeps {s0 : State} {b : Setup} {s : State} (h : Keeps s0 s) :
    KeepsOut s0 (execSetupFinish b s) := by
  unfold execSetupFinish
  try dsimp only
  repeat' first
    | (with_reducible assumption) | (with_reducible intro _) | (with_reducible exact keepsOut_fault)
    | (with_reducible exact keepsOut_refused) | (with_reducible apply keepsOut_next)
    | (with_reducible apply withSetup_keeps) | (with_reducible apply setupEnds_keeps)
    | (with_reducible apply openSession_keeps) | (with_reducible apply authFailed_keeps) | split
    | (with_reducible apply keeps_upd)

theorem execSetupExpiry_keeps {s0 : State} {port : Nat} {addr : Nat} {s : State} (h : Keeps s0 s) :
    KeepsOut s0 (execSetupExpiry port addr s) := by
  unfold execSetupExpiry
  try dsimp only
  repeat' first
    | (with_reducible assumption) | (with_reducible intro _) | (with_reducible exact keepsOut_fault)
    | (with_reducible exact keepsOut_refused) | (with_reducible apply keepsOut_next)
    | (with_reducible apply keepsOut_next) | (with_reducible apply noEvent_keeps)
    | (with_reducible apply authFailed_keeps) | split | (with_reducible apply keeps_upd)

theorem execSessionIdleTimeout_keeps {s0 : State} {session : Nat} {s : State} (h : Keeps s0 s) :
    KeepsOut s0 (execSessionIdleTimeout session s) := by
  unfold execSessionIdleTimeout
  try dsimp only
  repeat' first
    | (with_reducible assumption) | (with_reducible intro _) | (with_reducible exact keepsOut_fault)
    | (with_reducible exact keepsOut_refused) | (with_reducible apply keepsOut_next)
    | (with_reducible apply keepsOut_next) | (with_reducible apply endSession_keeps)
    | (with_reducible apply noEvent_keeps) | split | (with_reducible apply keeps_upd)

theorem execEpochAgeLimit_keeps {s0 : State} {session : Nat} {s : State} (h : Keeps s0 s) :
    KeepsOut s0 (execEpochAgeLimit session s) := by
  unfold execEpochAgeLimit
  try dsimp only
  repeat' first
    | (with_reducible assumption) | (with_reducible intro _) | (with_reducible exact keepsOut_fault)
    | (with_reducible exact keepsOut_refused) | (with_reducible apply keepsOut_next)
    | (with_reducible apply keepsOut_next) | (with_reducible apply sendKeyUpdate_keeps)
    | (with_reducible apply noEvent_keeps) | split | (with_reducible apply keeps_upd)

theorem execEpochGraceEnd_keeps {s0 : State} {session : Nat} {s : State} (h : Keeps s0 s) :
    KeepsOut s0 (execEpochGraceEnd session s) := by
  unfold execEpochGraceEnd
  try dsimp only
  repeat' first
    | (with_reducible assumption) | (with_reducible intro _) | (with_reducible exact keepsOut_fault)
    | (with_reducible exact keepsOut_refused) | (with_reducible apply keepsOut_next)
    | (with_reducible apply keepsOut_next) | (with_reducible apply noEvent_keeps) | split
    | (with_reducible apply keeps_upd)

end Sys2Proof.Machine
end

