-- ==== Sys2Proof/Laws/KeepMessages.lean ====
section
/-! SUPPORT. The operations of Machine/Messages.lean keep the queue and the canonical form of memory. -/

namespace Sys2Proof.Machine

open Sys2Proof.Config

theorem startUnknown_keeps {s0 : State} {m : Nat} {s : State} (h : Keeps s0 s) :
    KeepsOut s0 (startUnknown m s) := by
  unfold startUnknown
  try dsimp only
  repeat' first
    | (with_reducible assumption) | (with_reducible intro _) | (with_reducible exact keepsOut_fault)
    | (with_reducible exact keepsOut_refused) | (with_reducible apply keepsOut_next)
    | (with_reducible apply keepsOut_next) | (with_reducible apply replyBad_keeps)
    | (with_reducible apply takeRing_keeps) | (with_reducible apply noEvent_keeps) | split
    | (with_reducible apply keeps_upd)

theorem serve_keeps {s0 : State} {op : Nat} {lenOk : State → Mailbox → Bool} {rsv : Mailbox → Bool}
    {st : State → Option Status} {act : State → Nat → Mailbox → State} {m : Nat} {s : State}
    (ha : ∀ t b, Keeps s0 t → Keeps s0 (act t m b)) (h : Keeps s0 s) :
    KeepsOut s0 (serve op lenOk rsv st act m s) := by
  unfold serve
  dsimp only
  split
  · apply keepsOut_next
    split
    · exact replyBad_keeps (takeRing_keeps h)
    · split
      · exact replyBad_keeps (takeRing_keeps h)
      · split
        · exact replyBad_keeps (takeRing_keeps h)
        · exact ha _ _ (takeRing_keeps h)
  · exact startUnknown_keeps h

theorem refuse_keeps {s0 : State} {s : State} {m : Nat} {st : Status} (h : Keeps s0 s) :
    Keeps s0 (refuse s m st) := by
  unfold refuse
  try dsimp only
  repeat' first
    | (with_reducible assumption) | (with_reducible intro _) | (with_reducible apply replyBad_keeps) | split
    | (with_reducible apply keeps_upd)

theorem waitAt_keeps {s0 : State} {s : State} {m : Nat} {w : WaitPoint} {note : List Nat} (h : Keeps s0 s) :
    Keeps s0 (waitAt s m w note) := by
  unfold waitAt
  try dsimp only
  repeat' first
    | (with_reducible assumption) | (with_reducible intro _) | (with_reducible apply modBox_keeps) | split
    | (with_reducible apply keeps_upd)

end Sys2Proof.Machine
end

