-- ==== Sys2Proof/Laws/KeepSeam.lean ====
section
/-! SUPPORT. The operations of Machine/Seam.lean keep the queue and the canonical form of memory. -/

namespace Sys2Proof.Machine

open Sys2Proof.Config

theorem creditTime_keeps {s0 : State} {s : State} {port : Nat} {hh : FlitHdr} (h : Keeps s0 s) :
    Keeps s0 (creditTime s port hh).2 := by
  unfold creditTime
  try dsimp only
  repeat' first
    | (with_reducible assumption) | (with_reducible intro _) | (with_reducible apply takeFree_keeps) | split
    | (with_reducible apply keeps_upd)

theorem takeHeader_keeps {s0 : State} {s : State} {port : Nat} {hh : FlitHdr} (h : Keeps s0 s) :
    Keeps s0 (takeHeader s port hh) := by
  unfold takeHeader
  try dsimp only
  repeat' first
    | (with_reducible assumption) | (with_reducible intro _) | (with_reducible apply creditTime_keeps)
    | (with_reducible apply modPort_keeps) | (with_reducible apply finishRun_keeps)
    | (with_reducible apply modRun_keeps) | (with_reducible apply foldl_keeps) | split
    | (with_reducible apply keeps_upd)

theorem sendNak_keeps {s0 : State} {s : State} {port : Nat} (h : Keeps s0 s) :
    Keeps s0 (sendNak s port) := by
  unfold sendNak
  try dsimp only
  repeat' first
    | (with_reducible assumption) | (with_reducible intro _) | (with_reducible apply modPort_keeps) | split
    | (with_reducible apply keeps_upd)

theorem acceptFlit_keeps {s0 : State} {s : State} {port : Nat} (h : Keeps s0 s) :
    Keeps s0 (acceptFlit s port) := by
  unfold acceptFlit
  try dsimp only
  repeat' first
    | (with_reducible assumption) | (with_reducible intro _) | (with_reducible apply modPort_keeps) | split
    | (with_reducible apply keeps_upd)

theorem noteCorrected_keeps {s0 : State} {s : State} {port : Nat} {hh : FlitHdr} (h : Keeps s0 s) :
    Keeps s0 (noteCorrected s port hh) := by
  unfold noteCorrected
  try dsimp only
  repeat' first
    | (with_reducible assumption) | (with_reducible intro _) | (with_reducible apply modPort_keeps) | split
    | (with_reducible apply keeps_upd)

theorem answerFlit_keeps {s0 : State} {s : State} {port : Nat} (h : Keeps s0 s) :
    Keeps s0 (answerFlit s port) := by
  unfold answerFlit
  try dsimp only
  repeat' first
    | (with_reducible assumption) | (with_reducible intro _) | (with_reducible apply modPort_keeps)
    | (with_reducible apply returnCredits_keeps) | split | (with_reducible apply keeps_upd)

theorem inOrder_keeps {s0 : State} {s : State} {port ty : Nat} {hd : FlitHdr} {k : State → Out}
    (hk : ∀ t, Keeps s0 t → KeepsOut s0 (k t)) (h : Keeps s0 s) : KeepsOut s0 (inOrder s port ty hd k) := by
  unfold inOrder
  split
  · dsimp only
    split
    · exact outThen_keeps (hk _ (acceptFlit_keeps (takeHeader_keeps (noteCorrected_keeps h))))
        (fun _ ht => keepsOut_next (answerFlit_keeps ht))
    · exact keepsOut_next (answerFlit_keeps (sendNak_keeps (noteCorrected_keeps h)))
  · exact keepsOut_next h

theorem execIdleFlit_keeps {s0 : State} {port : Nat} {hh : FlitHdr} {s : State} (h : Keeps s0 s) :
    KeepsOut s0 (execIdleFlit port hh s) := by
  unfold execIdleFlit
  try dsimp only
  repeat' first
    | (with_reducible assumption) | (with_reducible intro _) | (with_reducible exact keepsOut_fault)
    | (with_reducible exact keepsOut_refused) | (with_reducible apply keepsOut_next)
    | (with_reducible apply keepsOut_next) | (with_reducible apply takeHeader_keeps)
    | (with_reducible apply noteCorrected_keeps) | (with_reducible apply answerFlit_keeps)
    | (with_reducible apply sendNak_keeps) | (with_reducible apply noEvent_keeps) | split
    | (with_reducible apply keeps_upd)

theorem execReservedFlit_keeps {s0 : State} {port : Nat} {hh : FlitHdr} {s : State} (h : Keeps s0 s) :
    KeepsOut s0 (execReservedFlit port hh s) := by
  unfold execReservedFlit
  try dsimp only
  repeat' first
    | (with_reducible assumption) | (with_reducible intro _) | (with_reducible exact keepsOut_fault)
    | (with_reducible exact keepsOut_refused) | (with_reducible apply keepsOut_next)
    | (with_reducible apply inOrder_keeps) | (with_reducible apply modPort_keeps) | split
    | (with_reducible apply keeps_upd)

theorem execBadFlit_keeps {s0 : State} {port : Nat} {s : State} (h : Keeps s0 s) :
    KeepsOut s0 (execBadFlit port s) := by
  unfold execBadFlit
  try dsimp only
  repeat' first
    | (with_reducible assumption) | (with_reducible intro _) | (with_reducible exact keepsOut_fault)
    | (with_reducible exact keepsOut_refused) | (with_reducible apply keepsOut_next)
    | (with_reducible apply keepsOut_next) | (with_reducible apply answerFlit_keeps)
    | (with_reducible apply sendNak_keeps) | (with_reducible apply modPort_keeps)
    | (with_reducible apply noEvent_keeps) | split | (with_reducible apply keeps_upd)

theorem execSeamReplay_keeps {s0 : State} {port : Nat} {s : State} (h : Keeps s0 s) :
    KeepsOut s0 (execSeamReplay port s) := by
  unfold execSeamReplay
  try dsimp only
  repeat' first
    | (with_reducible assumption) | (with_reducible intro _) | (with_reducible exact keepsOut_fault)
    | (with_reducible exact keepsOut_refused) | (with_reducible apply keepsOut_next)
    | (with_reducible apply keepsOut_next) | (with_reducible apply setPort_keeps)
    | (with_reducible apply noEvent_keeps) | split | (with_reducible apply keeps_upd)

theorem execGateFlit_keeps {s0 : State} {port : Nat} {hh : FlitHdr} {wake : Bool} {s : State} (h : Keeps s0 s) :
    KeepsOut s0 (execGateFlit port hh wake s) := by
  unfold execGateFlit
  try dsimp only
  repeat' first
    | (with_reducible assumption) | (with_reducible intro _) | (with_reducible exact keepsOut_fault)
    | (with_reducible exact keepsOut_refused) | (with_reducible apply keepsOut_next)
    | (with_reducible apply inOrder_keeps) | (with_reducible apply modPort_keeps) | split
    | (with_reducible apply keeps_upd)

theorem execLaneWake_keeps {s0 : State} {port : Nat} {s : State} (h : Keeps s0 s) :
    KeepsOut s0 (execLaneWake port s) := by
  unfold execLaneWake
  try dsimp only
  repeat' first
    | (with_reducible assumption) | (with_reducible intro _) | (with_reducible exact keepsOut_fault)
    | (with_reducible exact keepsOut_refused) | (with_reducible apply keepsOut_next)
    | (with_reducible apply keepsOut_next) | (with_reducible apply modPort_keeps)
    | (with_reducible apply gatedTime_keeps) | (with_reducible apply noEvent_keeps) | split
    | (with_reducible apply keeps_upd)

theorem dropStranger_keeps {s0 : State} {s : State} {port : Nat} (h : Keeps s0 s) :
    Keeps s0 (dropStranger s port) := by
  unfold dropStranger
  try dsimp only
  repeat' first
    | (with_reducible assumption) | (with_reducible intro _) | (with_reducible apply modPort_keeps) | split
    | (with_reducible apply keeps_upd)

theorem dropStale_keeps {s0 : State} {s : State} {port : Nat} (h : Keeps s0 s) :
    Keeps s0 (dropStale s port) := by
  unfold dropStale
  try dsimp only
  repeat' first
    | (with_reducible assumption) | (with_reducible intro _) | (with_reducible apply modPort_keeps) | split
    | (with_reducible apply keeps_upd)

theorem dropHead_keeps {s0 : State} {s : State} {port : Nat} (h : Keeps s0 s) :
    Keeps s0 (dropHead s port) := by
  unfold dropHead
  try dsimp only
  repeat' first
    | (with_reducible assumption) | (with_reducible intro _) | (with_reducible apply dropStale_keeps)
    | (with_reducible apply dropStranger_keeps) | split | (with_reducible apply keeps_upd)

theorem execHeadFlit_keeps {s0 : State} {port : Nat} {hh : FlitHdr} {b : Head} {s : State} (h : Keeps s0 s) :
    KeepsOut s0 (execHeadFlit port hh b s) := by
  unfold execHeadFlit
  try dsimp only
  repeat' first
    | (with_reducible assumption) | (with_reducible intro _) | (with_reducible exact keepsOut_fault)
    | (with_reducible exact keepsOut_refused) | (with_reducible apply keepsOut_next)
    | (with_reducible apply inOrder_keeps) | (with_reducible apply dropHead_keeps)
    | (with_reducible apply modPort_keeps) | (with_reducible apply dropStale_keeps) | split
    | (with_reducible apply keeps_upd)

theorem execDataFlit_keeps {s0 : State} {port : Nat} {hh : FlitHdr} {b : List Byte} {s : State} (h : Keeps s0 s) :
    KeepsOut s0 (execDataFlit port hh b s) := by
  unfold execDataFlit
  try dsimp only
  repeat' first
    | (with_reducible assumption) | (with_reducible intro _) | (with_reducible exact keepsOut_fault)
    | (with_reducible exact keepsOut_refused) | (with_reducible apply keepsOut_next)
    | (with_reducible apply inOrder_keeps) | (with_reducible apply dropHead_keeps)
    | (with_reducible apply arriveSegment_keeps) | (with_reducible apply modPort_keeps)
    | (with_reducible apply dropStale_keeps) | split | (with_reducible apply keeps_upd)

theorem receivePoison_keeps {s0 : State} {s : State} {port : Nat} {b : Poison} (h : Keeps s0 s) :
    Keeps s0 (receivePoison s port b) := by
  unfold receivePoison
  try dsimp only
  repeat' first
    | (with_reducible assumption) | (with_reducible intro _) | (with_reducible apply raiseEv_keeps)
    | (with_reducible apply takePoison_keeps) | (with_reducible apply spreadPoison_keeps) | split
    | (with_reducible apply keeps_upd)

theorem dropPoison_keeps {s0 : State} {s : State} {port : Nat} (h : Keeps s0 s) :
    Keeps s0 (dropPoison s port) := by
  unfold dropPoison
  try dsimp only
  repeat' first
    | (with_reducible assumption) | (with_reducible intro _) | (with_reducible apply modPort_keeps) | split
    | (with_reducible apply keeps_upd)

theorem execPoisonFlit_keeps {s0 : State} {port : Nat} {hh : FlitHdr} {b : Poison} {s : State} (h : Keeps s0 s) :
    KeepsOut s0 (execPoisonFlit port hh b s) := by
  unfold execPoisonFlit
  try dsimp only
  repeat' first
    | (with_reducible assumption) | (with_reducible intro _) | (with_reducible exact keepsOut_fault)
    | (with_reducible exact keepsOut_refused) | (with_reducible apply keepsOut_next)
    | (with_reducible apply inOrder_keeps) | (with_reducible apply dropPoison_keeps)
    | (with_reducible apply dropStranger_keeps) | (with_reducible apply receivePoison_keeps) | split
    | (with_reducible apply keeps_upd)

theorem execVoteFlit_keeps {s0 : State} {port : Nat} {hh : FlitHdr} {b : Vote} {s : State} (h : Keeps s0 s) :
    KeepsOut s0 (execVoteFlit port hh b s) := by
  unfold execVoteFlit
  try dsimp only
  repeat' first
    | (with_reducible assumption) | (with_reducible intro _) | (with_reducible exact keepsOut_fault)
    | (with_reducible exact keepsOut_refused) | (with_reducible apply keepsOut_next)
    | (with_reducible apply inOrder_keeps) | (with_reducible apply dropStranger_keeps)
    | (with_reducible apply judgeVotes_keeps) | split | (with_reducible apply keeps_upd)

theorem newExchange_keeps {s0 : State} {s : State} {port : Nat} {nonce : Nat} (h : Keeps s0 s) :
    Keeps s0 (newExchange s port nonce) := by
  unfold newExchange
  try dsimp only
  repeat' first
    | (with_reducible assumption) | (with_reducible intro _) | (with_reducible apply seamSend_keeps)
    | (with_reducible apply modPort_keeps) | split | (with_reducible apply keeps_upd)

theorem sendProof_keeps {s0 : State} {s : State} {port : Nat} {far : Nat} (h : Keeps s0 s) :
    Keeps s0 (sendProof s port far) := by
  unfold sendProof
  try dsimp only
  repeat' first
    | (with_reducible assumption) | (with_reducible intro _) | (with_reducible apply seamSend_keeps)
    | (with_reducible apply modPort_keeps) | split | (with_reducible apply keeps_upd)

theorem inFit_keeps {s0 : State} {s : State} {port : Nat} {hd : FlitHdr} {k : State → Out}
    (hk : ∀ t, Keeps s0 t → KeepsOut s0 (k t)) (h : Keeps s0 s) : KeepsOut s0 (inFit s port hd k) := by
  unfold inFit
  dsimp only
  split
  · exact outThen_keeps (hk _ (takeHeader_keeps (noteCorrected_keeps h))) (fun _ ht => keepsOut_next (answerFlit_keeps ht))
  · exact inOrder_keeps hk h

theorem execHello_keeps {s0 : State} {port : Nat} {hh : FlitHdr} {b : Machine.Ident} {nonce : Nat} {s : State} (h : Keeps s0 s) :
    KeepsOut s0 (execHello port hh b nonce s) := by
  unfold execHello
  try dsimp only
  repeat' first
    | (with_reducible assumption) | (with_reducible intro _) | (with_reducible exact keepsOut_fault)
    | (with_reducible exact keepsOut_refused) | (with_reducible apply keepsOut_next)
    | (with_reducible apply inFit_keeps) | (with_reducible apply sendProof_keeps)
    | (with_reducible apply newExchange_keeps) | split | (with_reducible apply keeps_upd)

theorem loseMember_keeps {s0 : State} {s : State} {port : Nat} {st : PortState} {far : Option Machine.Ident} (h : Keeps s0 s) :
    Keeps s0 (loseMember s port st far) := by
  unfold loseMember
  try dsimp only
  repeat' first
    | (with_reducible assumption) | (with_reducible intro _) | (with_reducible apply modPort_keeps)
    | (with_reducible apply setCause_keeps) | (with_reducible apply raiseEv_keeps)
    | (with_reducible apply sendPoisonFrom_keeps) | split | (with_reducible apply keeps_upd)

theorem takeProof_keeps {s0 : State} {s : State} {port : Nat} {b : Machine.Ident} (h : Keeps s0 s) :
    Keeps s0 (takeProof s port b) := by
  unfold takeProof
  try dsimp only
  repeat' first
    | (with_reducible assumption) | (with_reducible intro _) | (with_reducible apply modPort_keeps)
    | (with_reducible apply loseMember_keeps) | split | (with_reducible apply keeps_upd)

theorem execProof_keeps {s0 : State} {port : Nat} {hh : FlitHdr} {b : Machine.Ident} {nonce : Nat} {s : State} (h : Keeps s0 s) :
    KeepsOut s0 (execProof port hh b nonce s) := by
  unfold execProof
  try dsimp only
  repeat' first
    | (with_reducible assumption) | (with_reducible intro _) | (with_reducible exact keepsOut_fault)
    | (with_reducible exact keepsOut_refused) | (with_reducible apply keepsOut_next)
    | (with_reducible apply inFit_keeps) | (with_reducible apply takeProof_keeps)
    | (with_reducible apply newExchange_keeps) | (with_reducible apply raiseEv_keeps) | split
    | (with_reducible apply keeps_upd)

theorem execHelloTimer_keeps {s0 : State} {port : Nat} {nonce : Nat} {s : State} (h : Keeps s0 s) :
    KeepsOut s0 (execHelloTimer port nonce s) := by
  unfold execHelloTimer
  try dsimp only
  repeat' first
    | (with_reducible assumption) | (with_reducible intro _) | (with_reducible exact keepsOut_fault)
    | (with_reducible exact keepsOut_refused) | (with_reducible apply keepsOut_next)
    | (with_reducible apply keepsOut_next) | (with_reducible apply newExchange_keeps)
    | (with_reducible apply seamSend_keeps) | (with_reducible apply noEvent_keeps) | split
    | (with_reducible apply keeps_upd)

theorem execFitTimeout_keeps {s0 : State} {port : Nat} {s : State} (h : Keeps s0 s) :
    KeepsOut s0 (execFitTimeout port s) := by
  unfold execFitTimeout
  try dsimp only
  repeat' first
    | (with_reducible assumption) | (with_reducible intro _) | (with_reducible exact keepsOut_fault)
    | (with_reducible exact keepsOut_refused) | (with_reducible apply keepsOut_next)
    | (with_reducible apply keepsOut_next) | (with_reducible apply modPort_keeps)
    | (with_reducible apply raiseEv_keeps) | (with_reducible apply loseMember_keeps)
    | (with_reducible apply noEvent_keeps) | split | (with_reducible apply keeps_upd)

theorem degrade_keeps {s0 : State} {s : State} {port : Nat} (h : Keeps s0 s) :
    Keeps s0 (degrade s port) := by
  unfold degrade
  try dsimp only
  repeat' first
    | (with_reducible assumption) | (with_reducible intro _) | (with_reducible apply setCause_keeps)
    | (with_reducible apply raiseEv_keeps) | (with_reducible apply modPort_keeps) | split
    | (with_reducible apply keeps_upd)

theorem trained_keeps {s0 : State} {s : State} {port : Nat} {width : Nat} {nonce : Nat} (h : Keeps s0 s) :
    Keeps s0 (trained s port width nonce) := by
  unfold trained
  try dsimp only
  repeat' first
    | (with_reducible assumption) | (with_reducible intro _) | (with_reducible apply setPort_keeps)
    | (with_reducible apply newExchange_keeps) | (with_reducible apply degrade_keeps) | split
    | (with_reducible apply keeps_upd)

theorem ungate_keeps {s0 : State} {s : State} {port : Nat} (h : Keeps s0 s) :
    Keeps s0 (ungate s port) := by
  unfold ungate
  try dsimp only
  repeat' first
    | (with_reducible assumption) | (with_reducible intro _) | (with_reducible apply modPort_keeps)
    | (with_reducible apply gatedTime_keeps) | split | (with_reducible apply keeps_upd)

theorem failAttempt_keeps {s0 : State} {s : State} {port : Nat} {late : Bool} (h : Keeps s0 s) :
    Keeps s0 (failAttempt s port late) := by
  unfold failAttempt
  try dsimp only
  repeat' first
    | (with_reducible assumption) | (with_reducible intro _) | (with_reducible apply setPort_keeps)
    | (with_reducible apply loseMember_keeps) | (with_reducible apply ungate_keeps)
    | (with_reducible apply raiseEv_keeps) | (with_reducible apply modPort_keeps) | split
    | (with_reducible apply keeps_upd)

theorem trainPort_keeps {s0 : State} {s : State} {port : Nat} {r : TrainOutcome} {nonce : Nat} (h : Keeps s0 s) :
    Keeps s0 (trainPort s port r nonce) := by
  unfold trainPort
  try dsimp only
  repeat' first
    | (with_reducible assumption) | (with_reducible intro _) | (with_reducible apply trained_keeps)
    | (with_reducible apply failAttempt_keeps) | split | (with_reducible apply keeps_upd)

theorem execPortTest_keeps {s0 : State} {port : Nat} {pass : Bool} {s : State} (h : Keeps s0 s) :
    KeepsOut s0 (execPortTest port pass s) := by
  unfold execPortTest
  try dsimp only
  repeat' first
    | (with_reducible assumption) | (with_reducible intro _) | (with_reducible exact keepsOut_fault)
    | (with_reducible exact keepsOut_refused) | (with_reducible apply keepsOut_next)
    | (with_reducible apply keepsOut_next) | (with_reducible apply raiseEv_keeps)
    | (with_reducible apply modPort_keeps) | (with_reducible apply makeSuspect_keeps)
    | (with_reducible apply noEvent_keeps) | split | (with_reducible apply keeps_upd)

end Sys2Proof.Machine
end

