-- ==== Sys2Proof/Laws/KeepControl.lean ====
section
/-! SUPPORT. The operations of Machine/Control.lean keep the queue and the canonical form of memory. -/

namespace Sys2Proof.Machine

open Sys2Proof.Config

theorem execIdentify_keeps {s0 : State} {m : Nat} {s : State} (h : Keeps s0 s) :
    KeepsOut s0 (execIdentify m s) := by
  unfold execIdentify
  try dsimp only
  repeat' first
    | (with_reducible assumption) | (with_reducible intro _) | (with_reducible exact keepsOut_fault)
    | (with_reducible exact keepsOut_refused) | (with_reducible apply keepsOut_next)
    | (with_reducible apply serve_keeps) | (with_reducible apply replyOk_keeps) | split
    | (with_reducible apply keeps_upd)

theorem execJobStatus_keeps {s0 : State} {m : Nat} {s : State} (h : Keeps s0 s) :
    KeepsOut s0 (execJobStatus m s) := by
  unfold execJobStatus
  try dsimp only
  repeat' first
    | (with_reducible assumption) | (with_reducible intro _) | (with_reducible exact keepsOut_fault)
    | (with_reducible exact keepsOut_refused) | (with_reducible apply keepsOut_next)
    | (with_reducible apply serve_keeps) | (with_reducible apply replyOk_keeps) | split
    | (with_reducible apply keeps_upd)

theorem execJobRelease_keeps {s0 : State} {m : Nat} {s : State} (h : Keeps s0 s) :
    KeepsOut s0 (execJobRelease m s) := by
  unfold execJobRelease
  try dsimp only
  repeat' first
    | (with_reducible assumption) | (with_reducible intro _) | (with_reducible exact keepsOut_fault)
    | (with_reducible exact keepsOut_refused) | (with_reducible apply keepsOut_next)
    | (with_reducible apply serve_keeps) | (with_reducible apply refuse_keeps)
    | (with_reducible apply replyOk_keeps) | split | (with_reducible apply keeps_upd)

theorem endJob_keeps {s0 : State} {s : State} {m : Nat} {b : Mailbox} (h : Keeps s0 s) :
    Keeps s0 (endJob s m b) := by
  unfold endJob
  try dsimp only
  repeat' first
    | (with_reducible assumption) | (with_reducible intro _) | (with_reducible apply waitAt_keeps)
    | (with_reducible apply endJobNow_keeps) | (with_reducible apply dueEndJob_keeps) | split
    | (with_reducible apply keeps_upd)

theorem execJobEnd_keeps {s0 : State} {m : Nat} {s : State} (h : Keeps s0 s) :
    KeepsOut s0 (execJobEnd m s) := by
  unfold execJobEnd
  try dsimp only
  repeat' first
    | (with_reducible assumption) | (with_reducible intro _) | (with_reducible exact keepsOut_fault)
    | (with_reducible exact keepsOut_refused) | (with_reducible apply keepsOut_next)
    | (with_reducible apply serve_keeps) | (with_reducible apply endJob_keeps) | split
    | (with_reducible apply keeps_upd)

theorem setRecipe_keeps {s0 : State} {s : State} {m : Nat} {b : Mailbox} (h : Keeps s0 s) :
    Keeps s0 (setRecipe s m b) := by
  unfold setRecipe
  try dsimp only
  repeat' first
    | (with_reducible assumption) | (with_reducible intro _) | (with_reducible apply refuse_keeps)
    | (with_reducible apply replyOk_keeps) | split | (with_reducible apply keeps_upd)

theorem execRecipeSet_keeps {s0 : State} {m : Nat} {s : State} (h : Keeps s0 s) :
    KeepsOut s0 (execRecipeSet m s) := by
  unfold execRecipeSet
  try dsimp only
  repeat' first
    | (with_reducible assumption) | (with_reducible intro _) | (with_reducible exact keepsOut_fault)
    | (with_reducible exact keepsOut_refused) | (with_reducible apply keepsOut_next)
    | (with_reducible apply serve_keeps) | (with_reducible apply setRecipe_keeps) | split
    | (with_reducible apply keeps_upd)

theorem clearFlags_keeps {s0 : State} {s : State} {mask : Nat} {tag : Nat} (h : Keeps s0 s) :
    Keeps s0 (clearFlags s mask tag) := by
  unfold clearFlags
  try dsimp only
  repeat' first
    | (with_reducible assumption) | (with_reducible intro _) | split | (with_reducible apply keeps_upd)

theorem execFlagClear_keeps {s0 : State} {m : Nat} {s : State} (h : Keeps s0 s) :
    KeepsOut s0 (execFlagClear m s) := by
  unfold execFlagClear
  try dsimp only
  repeat' first
    | (with_reducible assumption) | (with_reducible intro _) | (with_reducible exact keepsOut_fault)
    | (with_reducible exact keepsOut_refused) | (with_reducible apply keepsOut_next)
    | (with_reducible apply serve_keeps) | (with_reducible apply refuse_keeps)
    | (with_reducible apply replyOk_keeps) | (with_reducible apply clearFlags_keeps) | split
    | (with_reducible apply keeps_upd)

theorem setSwitch_keeps {s0 : State} {s : State} {r : Remap} (h : Keeps s0 s) :
    Keeps s0 (setSwitch s r) := by
  unfold setSwitch
  try dsimp only
  repeat' first
    | (with_reducible assumption) | (with_reducible intro _) | split | (with_reducible apply keeps_upd)

theorem bindRank_keeps {s0 : State} {s : State} {q : Nat} {r : Remap} (h : Keeps s0 s) :
    Keeps s0 (bindRank s q r) := by
  unfold bindRank
  try dsimp only
  repeat' first
    | (with_reducible assumption) | (with_reducible intro _) | (with_reducible apply modPort_keeps) | split
    | (with_reducible apply keeps_upd)

theorem remapRank_keeps {s0 : State} {s : State} {m : Nat} {b : Mailbox} (h : Keeps s0 s) :
    Keeps s0 (remapRank s m b) := by
  unfold remapRank
  try dsimp only
  repeat' first
    | (with_reducible assumption) | (with_reducible intro _) | (with_reducible apply refuse_keeps)
    | (with_reducible apply replyOk_keeps) | (with_reducible apply setSwitch_keeps)
    | (with_reducible apply bindRank_keeps) | (with_reducible apply replyBad_keeps) | split | exact id
    | (with_reducible apply keeps_upd)

theorem execRemap_keeps {s0 : State} {m : Nat} {s : State} (h : Keeps s0 s) :
    KeepsOut s0 (execRemap m s) := by
  unfold execRemap
  try dsimp only
  repeat' first
    | (with_reducible assumption) | (with_reducible intro _) | (with_reducible exact keepsOut_fault)
    | (with_reducible exact keepsOut_refused) | (with_reducible apply keepsOut_next)
    | (with_reducible apply serve_keeps) | (with_reducible apply remapRank_keeps) | split
    | (with_reducible apply keeps_upd)

theorem startSnapshot_keeps {s0 : State} {s : State} {m : Nat} {b : Mailbox} (h : Keeps s0 s) :
    Keeps s0 (startSnapshot s m b) := by
  unfold startSnapshot
  try dsimp only
  repeat' first
    | (with_reducible assumption) | (with_reducible intro _) | (with_reducible apply refuse_keeps)
    | (with_reducible apply waitAt_keeps) | (with_reducible apply captureHeld_keeps) | split | exact id
    | (with_reducible apply keeps_upd)

theorem execSnapshot_keeps {s0 : State} {m : Nat} {s : State} (h : Keeps s0 s) :
    KeepsOut s0 (execSnapshot m s) := by
  unfold execSnapshot
  try dsimp only
  repeat' first
    | (with_reducible assumption) | (with_reducible intro _) | (with_reducible exact keepsOut_fault)
    | (with_reducible exact keepsOut_refused) | (with_reducible apply keepsOut_next)
    | (with_reducible apply serve_keeps) | (with_reducible apply startSnapshot_keeps) | split
    | (with_reducible apply keeps_upd)

theorem execSnapshotCancel_keeps {s0 : State} {m : Nat} {s : State} (h : Keeps s0 s) :
    KeepsOut s0 (execSnapshotCancel m s) := by
  unfold execSnapshotCancel
  try dsimp only
  repeat' first
    | (with_reducible assumption) | (with_reducible intro _) | (with_reducible exact keepsOut_fault)
    | (with_reducible exact keepsOut_refused) | (with_reducible apply keepsOut_next)
    | (with_reducible apply serve_keeps) | (with_reducible apply replyOk_keeps)
    | (with_reducible apply tryEndJob_keeps) | (with_reducible apply failSnapshot_keeps)
    | (with_reducible apply refuse_keeps) | split | (with_reducible apply keeps_upd)

theorem startRestore_keeps {s0 : State} {s : State} {m : Nat} {b : Mailbox} (h : Keeps s0 s) :
    Keeps s0 (startRestore s m b) := by
  unfold startRestore
  try dsimp only
  repeat' first
    | (with_reducible assumption) | (with_reducible intro _) | (with_reducible apply refuse_keeps)
    | (with_reducible apply replyOk_keeps) | split | (with_reducible apply keeps_upd)

theorem execRestore_keeps {s0 : State} {m : Nat} {s : State} (h : Keeps s0 s) :
    KeepsOut s0 (execRestore m s) := by
  unfold execRestore
  try dsimp only
  repeat' first
    | (with_reducible assumption) | (with_reducible intro _) | (with_reducible exact keepsOut_fault)
    | (with_reducible exact keepsOut_refused) | (with_reducible apply keepsOut_next)
    | (with_reducible apply serve_keeps) | (with_reducible apply startRestore_keeps) | split
    | (with_reducible apply keeps_upd)

theorem takeBudget_keeps {s0 : State} {s : State} {m : Nat} {b : Mailbox} (h : Keeps s0 s) :
    Keeps s0 (takeBudget s m b) := by
  unfold takeBudget
  try dsimp only
  repeat' first
    | (with_reducible assumption) | (with_reducible intro _) | (with_reducible apply refuse_keeps)
    | (with_reducible apply modPower_keeps) | (with_reducible apply replyOk_keeps) | split
    | (with_reducible apply keeps_upd)

theorem countRefused_keeps {s0 : State} {s : State} {b : Mailbox} (h : Keeps s0 s) :
    Keeps s0 (countRefused s b) := by
  unfold countRefused
  try dsimp only
  repeat' first
    | (with_reducible assumption) | (with_reducible intro _) | (with_reducible apply modPower_keeps) | split
    | (with_reducible apply keeps_upd)

theorem execPowerBudget_keeps {s0 : State} {m : Nat} {s : State} (h : Keeps s0 s) :
    KeepsOut s0 (execPowerBudget m s) := by
  unfold execPowerBudget
  try dsimp only
  repeat' first
    | (with_reducible assumption) | (with_reducible intro _) | (with_reducible exact keepsOut_fault)
    | (with_reducible exact keepsOut_refused) | (with_reducible apply keepsOut_next)
    | (with_reducible apply serve_keeps) | (with_reducible apply takeBudget_keeps)
    | (with_reducible apply countRefused_keeps) | (with_reducible apply startUnknown_keeps) | split
    | (with_reducible apply keeps_upd)

theorem inletWatch_keeps {s0 : State} {s : State} {tIn : Nat} (h : Keeps s0 s) :
    Keeps s0 (inletWatch s tIn) := by
  unfold inletWatch
  try dsimp only
  repeat' first
    | (with_reducible assumption) | (with_reducible intro _) | (with_reducible apply setCause_keeps)
    | (with_reducible apply raiseEv_keeps) | split | (with_reducible apply keeps_upd)

theorem takeReport_keeps {s0 : State} {s : State} {m : Nat} {b : Mailbox} (h : Keeps s0 s) :
    Keeps s0 (takeReport s m b) := by
  unfold takeReport
  try dsimp only
  repeat' first
    | (with_reducible assumption) | (with_reducible intro _) | (with_reducible apply refuse_keeps)
    | (with_reducible apply modTherm_keeps) | (with_reducible apply replyOk_keeps)
    | (with_reducible apply inletWatch_keeps) | split | (with_reducible apply keeps_upd)

theorem execCoolingReport_keeps {s0 : State} {m : Nat} {s : State} (h : Keeps s0 s) :
    KeepsOut s0 (execCoolingReport m s) := by
  unfold execCoolingReport
  try dsimp only
  repeat' first
    | (with_reducible assumption) | (with_reducible intro _) | (with_reducible exact keepsOut_fault)
    | (with_reducible exact keepsOut_refused) | (with_reducible apply keepsOut_next)
    | (with_reducible apply serve_keeps) | (with_reducible apply takeReport_keeps) | split
    | (with_reducible apply keeps_upd)

theorem execSensorRead_keeps {s0 : State} {m : Nat} {s : State} (h : Keeps s0 s) :
    KeepsOut s0 (execSensorRead m s) := by
  unfold execSensorRead
  try dsimp only
  repeat' first
    | (with_reducible assumption) | (with_reducible intro _) | (with_reducible exact keepsOut_fault)
    | (with_reducible exact keepsOut_refused) | (with_reducible apply keepsOut_next)
    | (with_reducible apply serve_keeps) | (with_reducible apply replyOk_keeps) | split
    | (with_reducible apply keeps_upd)

theorem execSensorClear_keeps {s0 : State} {m : Nat} {s : State} (h : Keeps s0 s) :
    KeepsOut s0 (execSensorClear m s) := by
  unfold execSensorClear
  try dsimp only
  repeat' first
    | (with_reducible assumption) | (with_reducible intro _) | (with_reducible exact keepsOut_fault)
    | (with_reducible exact keepsOut_refused) | (with_reducible apply keepsOut_next)
    | (with_reducible apply serve_keeps) | (with_reducible apply replyOk_keeps) | split
    | (with_reducible apply keeps_upd)

theorem execLifetimeRead_keeps {s0 : State} {m : Nat} {s : State} (h : Keeps s0 s) :
    KeepsOut s0 (execLifetimeRead m s) := by
  unfold execLifetimeRead
  try dsimp only
  repeat' first
    | (with_reducible assumption) | (with_reducible intro _) | (with_reducible exact keepsOut_fault)
    | (with_reducible exact keepsOut_refused) | (with_reducible apply keepsOut_next)
    | (with_reducible apply serve_keeps) | (with_reducible apply replyOk_keeps) | split
    | (with_reducible apply keeps_upd)

end Sys2Proof.Machine
end

