-- ==== Sys2Proof/Laws/KeepRecords.lean ====
section
/-! SUPPORT. The operations of Machine/Records.lean keep the queue and the canonical form of memory. -/

namespace Sys2Proof.Machine

open Sys2Proof.Config

theorem rowTouch_keeps {s0 : State} {s : State} {q : Nat} {rd : RowDesc} {n : Nat} (h : Keeps s0 s) :
    Keeps s0 (rowTouch s q rd n) := by
  unfold rowTouch
  try dsimp only
  repeat' first
    | (with_reducible assumption) | (with_reducible intro _) | (with_reducible apply touchRange_keeps) | split
    | (with_reducible apply keeps_upd)

theorem rowPut_keeps {s0 : State} {s : State} {q : Nat} {rd : RowDesc} {n : Nat} {r : RowRec} (h : Keeps s0 s) :
    Keeps s0 (rowPut s q rd n r) := by
  unfold rowPut
  try dsimp only
  repeat' first
    | (with_reducible assumption) | (with_reducible intro _) | (with_reducible apply modPanel_keeps)
    | (with_reducible apply stepWrite_keeps) | split | (with_reducible apply keeps_upd)

theorem pushTerm_keeps {s0 : State} {s : State} {q : Nat} {tag : Nat} {rd : RowDesc} {n : Nat} {sub : Nat} {x : F32} {y : F32} {i : Nat} (h : Keeps s0 s) :
    Keeps s0 (pushTerm s q tag rd n sub x y i) := by
  unfold pushTerm
  try dsimp only
  repeat' first
    | (with_reducible assumption) | (with_reducible intro _) | (with_reducible apply rowPut_keeps)
    | (with_reducible apply rowTouch_keeps) | (with_reducible apply modPanel_keeps)
    | (with_reducible apply setFlagIf_keeps) | split | (with_reducible apply keeps_upd)

end Sys2Proof.Machine
end

