-- ==== Sys2Proof/Laws/KeepNeedle.lean ====
section
/-! SUPPORT. The operations of Machine/Needle.lean keep the queue and the canonical form of memory. -/

namespace Sys2Proof.Machine

open Sys2Proof.Config

theorem putChain_keeps {s0 : State} {s : State} {q : Nat} {c : Option ChainRun} (h : Keeps s0 s) :
    Keeps s0 (putChain s q c) := by
  unfold putChain
  try dsimp only
  repeat' first
    | (with_reducible assumption) | (with_reducible intro _) | (with_reducible apply modPanel_keeps) | split
    | (with_reducible apply keeps_upd)

theorem markWait_keeps {s0 : State} {s : State} {q : Nat} (h : Keeps s0 s) :
    Keeps s0 (markWait s q) := by
  unfold markWait
  try dsimp only
  repeat' first
    | (with_reducible assumption) | (with_reducible intro _) | (with_reducible apply modPanel_keeps) | split
    | (with_reducible apply keeps_upd)

theorem placeChain_keeps {s0 : State} {p : Package} {b : BindDesc} {step : Nat} {micro : Nat} {s : State} {q : Nat} (h : Keeps s0 s) :
    KeepsOut s0 (placeChain p b step micro s q) := by
  unfold placeChain
  try dsimp only
  repeat' first
    | (with_reducible assumption) | (with_reducible intro _) | (with_reducible exact keepsOut_fault)
    | (with_reducible exact keepsOut_refused) | (with_reducible apply keepsOut_next)
    | (with_reducible apply markWait_keeps) | (with_reducible apply putChain_keeps) | split
    | (with_reducible apply keeps_upd)

theorem execChain_keeps {s0 : State} {x : SlotRef} {s : State} (h : Keeps s0 s) :
    KeepsOut s0 (execChain x s) := by
  unfold execChain
  try dsimp only
  repeat' first
    | (with_reducible assumption) | (with_reducible intro _) | (with_reducible exact keepsOut_fault)
    | (with_reducible exact keepsOut_refused) | (with_reducible apply keepsOut_next)
    | (with_reducible apply whenIssuing_keeps) | (with_reducible apply onPanels_keeps)
    | (with_reducible apply placeChain_keeps) | split | (with_reducible apply keeps_upd)

/-- What a needle instruction answers keeps both. -/
def ExKeeps (s0 : State) (e : Except Fault (Nat × List Lane × State)) : Prop := ∀ r, e = .ok r → Keeps s0 r.2.2

theorem exKeeps_ok {s0 s : State} {n : Nat} {l : List Lane} (h : Keeps s0 s) : ExKeeps s0 (.ok (n, l, s)) := by
  intro r e; cases e; exact h

theorem exKeeps_error {s0 : State} {f : Fault} : ExKeeps s0 (.error f) := by intro r e; cases e

theorem finishInstr_keeps {s0 : State} {x : NeedleCtx} {lat : Nat} {r : List Lane × State} (h : Keeps s0 r.2) :
    Keeps s0 (finishInstr x lat r) := modPanel_keeps h

theorem needleDo_keeps {s0 : State} {q : Nat} {s : State} {k : NeedleCtx → Except Fault (Nat × List Lane × State)}
    (hk : ∀ x, Keeps s0 x.s → ExKeeps s0 (k x)) (h : Keeps s0 s) : KeepsOut s0 (needleDo q s k) := by
  unfold needleDo
  apply whenRunning_keeps
  intro p
  split
  · exact keepsOut_next h
  · split
    · exact keepsOut_next h
    · dsimp only
      split
      · exact keepsOut_fault
      · rename_i r hr
        exact keepsOut_next (finishInstr_keeps (hk _ h _ hr))

theorem laneOp_keeps {s0 : State} {q : Nat} {a : NArgs} {lat : Nat} {f : NeedleCtx → Lane → W32} {s : State} (h : Keeps s0 s) :
    KeepsOut s0 (laneOp q a lat f s) := by
  unfold laneOp
  try dsimp only
  repeat' first
    | (with_reducible assumption) | (with_reducible intro _) | (with_reducible exact keepsOut_fault)
    | (with_reducible exact keepsOut_refused) | (with_reducible apply keepsOut_next)
    | (with_reducible exact exKeeps_error) | (with_reducible apply exKeeps_ok)
    | (with_reducible apply needleDo_keeps) | split | (with_reducible apply keeps_upd)

theorem binOp_keeps {s0 : State} {q : Nat} {a : NArgs} {f : W32 → W32 → W32} {s : State} (h : Keeps s0 s) :
    KeepsOut s0 (binOp q a f s) := by
  unfold binOp
  try dsimp only
  repeat' first
    | (with_reducible assumption) | (with_reducible intro _) | (with_reducible exact keepsOut_fault)
    | (with_reducible exact keepsOut_refused) | (with_reducible apply keepsOut_next)
    | (with_reducible apply laneOp_keeps) | split | (with_reducible apply keeps_upd)

theorem unOp_keeps {s0 : State} {q : Nat} {a : NArgs} {f : W32 → W32} {s : State} (h : Keeps s0 s) :
    KeepsOut s0 (unOp q a f s) := by
  unfold unOp
  try dsimp only
  repeat' first
    | (with_reducible assumption) | (with_reducible intro _) | (with_reducible exact keepsOut_fault)
    | (with_reducible exact keepsOut_refused) | (with_reducible apply keepsOut_next)
    | (with_reducible apply laneOp_keeps) | split | (with_reducible apply keeps_upd)

theorem waited_keeps {s0 : State} {x : NeedleCtx} {b : Nat × TensorDesc} (h : Keeps s0 x.s) : Keeps s0 (waited x b).s :=
  waitExt_keeps h

theorem bindOp_keeps {s0 : State} {q : Nat} {a : NArgs} {s : State}
    {k : NeedleCtx → Nat × TensorDesc → Planes → Except Fault (Nat × List Lane × State)}
    (hk : ∀ x b pl, Keeps s0 x.s → ExKeeps s0 (k x b pl)) (h : Keeps s0 s) : KeepsOut s0 (bindOp q a s k) := by
  unfold bindOp
  refine needleDo_keeps (fun x hx => ?_) h
  split
  · exact exKeeps_error
  · split
    · exact hk _ _ _ (waited_keeps hx)
    · exact exKeeps_error

theorem storeLanes_keeps {s0 : State} {x : NeedleCtx} {a : NArgs} {f : State → Lane → State}
    (hf : ∀ t l, Keeps s0 t → Keeps s0 (f t l)) (h : Keeps s0 x.s) : Keeps s0 (storeLanes x a f) := by
  unfold storeLanes
  refine foldl_keeps (fun t l ht => ?_) h
  split
  · exact hf _ _ ht
  · exact ht

theorem execNop_keeps {s0 : State} {p : Nat} {_a : NArgs} {s : State} (h : Keeps s0 s) :
    KeepsOut s0 (execNop p _a s) := by
  unfold execNop
  try dsimp only
  repeat' first
    | (with_reducible assumption) | (with_reducible intro _) | (with_reducible exact keepsOut_fault)
    | (with_reducible exact keepsOut_refused) | (with_reducible apply keepsOut_next)
    | (with_reducible exact exKeeps_error) | (with_reducible apply exKeeps_ok)
    | (with_reducible apply needleDo_keeps) | split | (with_reducible apply keeps_upd)

theorem execFadd_keeps {s0 : State} {p : Nat} {a : NArgs} {s : State} (h : Keeps s0 s) :
    KeepsOut s0 (execFadd p a s) := by
  unfold execFadd
  try dsimp only
  repeat' first
    | (with_reducible assumption) | (with_reducible intro _) | (with_reducible exact keepsOut_fault)
    | (with_reducible exact keepsOut_refused) | (with_reducible apply keepsOut_next)
    | (with_reducible apply binOp_keeps) | split | (with_reducible apply keeps_upd)

theorem execFsub_keeps {s0 : State} {p : Nat} {a : NArgs} {s : State} (h : Keeps s0 s) :
    KeepsOut s0 (execFsub p a s) := by
  unfold execFsub
  try dsimp only
  repeat' first
    | (with_reducible assumption) | (with_reducible intro _) | (with_reducible exact keepsOut_fault)
    | (with_reducible exact keepsOut_refused) | (with_reducible apply keepsOut_next)
    | (with_reducible apply binOp_keeps) | split | (with_reducible apply keeps_upd)

theorem execFmul_keeps {s0 : State} {p : Nat} {a : NArgs} {s : State} (h : Keeps s0 s) :
    KeepsOut s0 (execFmul p a s) := by
  unfold execFmul
  try dsimp only
  repeat' first
    | (with_reducible assumption) | (with_reducible intro _) | (with_reducible exact keepsOut_fault)
    | (with_reducible exact keepsOut_refused) | (with_reducible apply keepsOut_next)
    | (with_reducible apply binOp_keeps) | split | (with_reducible apply keeps_upd)

theorem execFfma_keeps {s0 : State} {p : Nat} {a : NArgs} {s : State} (h : Keeps s0 s) :
    KeepsOut s0 (execFfma p a s) := by
  unfold execFfma
  try dsimp only
  repeat' first
    | (with_reducible assumption) | (with_reducible intro _) | (with_reducible exact keepsOut_fault)
    | (with_reducible exact keepsOut_refused) | (with_reducible apply keepsOut_next)
    | (with_reducible apply laneOp_keeps) | split | (with_reducible apply keeps_upd)

theorem execFmin_keeps {s0 : State} {p : Nat} {a : NArgs} {s : State} (h : Keeps s0 s) :
    KeepsOut s0 (execFmin p a s) := by
  unfold execFmin
  try dsimp only
  repeat' first
    | (with_reducible assumption) | (with_reducible intro _) | (with_reducible exact keepsOut_fault)
    | (with_reducible exact keepsOut_refused) | (with_reducible apply keepsOut_next)
    | (with_reducible apply binOp_keeps) | split | (with_reducible apply keeps_upd)

theorem execFmax_keeps {s0 : State} {p : Nat} {a : NArgs} {s : State} (h : Keeps s0 s) :
    KeepsOut s0 (execFmax p a s) := by
  unfold execFmax
  try dsimp only
  repeat' first
    | (with_reducible assumption) | (with_reducible intro _) | (with_reducible exact keepsOut_fault)
    | (with_reducible exact keepsOut_refused) | (with_reducible apply keepsOut_next)
    | (with_reducible apply binOp_keeps) | split | (with_reducible apply keeps_upd)

theorem execFabs_keeps {s0 : State} {p : Nat} {a : NArgs} {s : State} (h : Keeps s0 s) :
    KeepsOut s0 (execFabs p a s) := by
  unfold execFabs
  try dsimp only
  repeat' first
    | (with_reducible assumption) | (with_reducible intro _) | (with_reducible exact keepsOut_fault)
    | (with_reducible exact keepsOut_refused) | (with_reducible apply keepsOut_next)
    | (with_reducible apply unOp_keeps) | split | (with_reducible apply keeps_upd)

theorem execFneg_keeps {s0 : State} {p : Nat} {a : NArgs} {s : State} (h : Keeps s0 s) :
    KeepsOut s0 (execFneg p a s) := by
  unfold execFneg
  try dsimp only
  repeat' first
    | (with_reducible assumption) | (with_reducible intro _) | (with_reducible exact keepsOut_fault)
    | (with_reducible exact keepsOut_refused) | (with_reducible apply keepsOut_next)
    | (with_reducible apply unOp_keeps) | split | (with_reducible apply keeps_upd)

theorem execFcmp_keeps {s0 : State} {p : Nat} {a : NArgs} {s : State} (h : Keeps s0 s) :
    KeepsOut s0 (execFcmp p a s) := by
  unfold execFcmp
  try dsimp only
  repeat' first
    | (with_reducible assumption) | (with_reducible intro _) | (with_reducible exact keepsOut_fault)
    | (with_reducible exact keepsOut_refused) | (with_reducible apply keepsOut_next)
    | (with_reducible exact exKeeps_error) | (with_reducible apply exKeeps_ok)
    | (with_reducible apply needleDo_keeps) | split | (with_reducible apply keeps_upd)

theorem execSel_keeps {s0 : State} {p : Nat} {a : NArgs} {s : State} (h : Keeps s0 s) :
    KeepsOut s0 (execSel p a s) := by
  unfold execSel
  try dsimp only
  repeat' first
    | (with_reducible assumption) | (with_reducible intro _) | (with_reducible exact keepsOut_fault)
    | (with_reducible exact keepsOut_refused) | (with_reducible apply keepsOut_next)
    | (with_reducible exact exKeeps_error) | (with_reducible apply exKeeps_ok)
    | (with_reducible apply needleDo_keeps) | split | (with_reducible apply keeps_upd)

theorem execIadd_keeps {s0 : State} {p : Nat} {a : NArgs} {s : State} (h : Keeps s0 s) :
    KeepsOut s0 (execIadd p a s) := by
  unfold execIadd
  try dsimp only
  repeat' first
    | (with_reducible assumption) | (with_reducible intro _) | (with_reducible exact keepsOut_fault)
    | (with_reducible exact keepsOut_refused) | (with_reducible apply keepsOut_next)
    | (with_reducible apply binOp_keeps) | split | (with_reducible apply keeps_upd)

theorem execIand_keeps {s0 : State} {p : Nat} {a : NArgs} {s : State} (h : Keeps s0 s) :
    KeepsOut s0 (execIand p a s) := by
  unfold execIand
  try dsimp only
  repeat' first
    | (with_reducible assumption) | (with_reducible intro _) | (with_reducible exact keepsOut_fault)
    | (with_reducible exact keepsOut_refused) | (with_reducible apply keepsOut_next)
    | (with_reducible apply binOp_keeps) | split | (with_reducible apply keeps_upd)

theorem execIor_keeps {s0 : State} {p : Nat} {a : NArgs} {s : State} (h : Keeps s0 s) :
    KeepsOut s0 (execIor p a s) := by
  unfold execIor
  try dsimp only
  repeat' first
    | (with_reducible assumption) | (with_reducible intro _) | (with_reducible exact keepsOut_fault)
    | (with_reducible exact keepsOut_refused) | (with_reducible apply keepsOut_next)
    | (with_reducible apply binOp_keeps) | split | (with_reducible apply keeps_upd)

theorem execIxor_keeps {s0 : State} {p : Nat} {a : NArgs} {s : State} (h : Keeps s0 s) :
    KeepsOut s0 (execIxor p a s) := by
  unfold execIxor
  try dsimp only
  repeat' first
    | (with_reducible assumption) | (with_reducible intro _) | (with_reducible exact keepsOut_fault)
    | (with_reducible exact keepsOut_refused) | (with_reducible apply keepsOut_next)
    | (with_reducible apply binOp_keeps) | split | (with_reducible apply keeps_upd)

theorem execIshl_keeps {s0 : State} {p : Nat} {a : NArgs} {s : State} (h : Keeps s0 s) :
    KeepsOut s0 (execIshl p a s) := by
  unfold execIshl
  try dsimp only
  repeat' first
    | (with_reducible assumption) | (with_reducible intro _) | (with_reducible exact keepsOut_fault)
    | (with_reducible exact keepsOut_refused) | (with_reducible apply keepsOut_next)
    | (with_reducible apply binOp_keeps) | split | (with_reducible apply keeps_upd)

theorem execIshr_keeps {s0 : State} {p : Nat} {a : NArgs} {s : State} (h : Keeps s0 s) :
    KeepsOut s0 (execIshr p a s) := by
  unfold execIshr
  try dsimp only
  repeat' first
    | (with_reducible assumption) | (with_reducible intro _) | (with_reducible exact keepsOut_fault)
    | (with_reducible exact keepsOut_refused) | (with_reducible apply keepsOut_next)
    | (with_reducible apply binOp_keeps) | split | (with_reducible apply keeps_upd)

theorem execF2i_keeps {s0 : State} {p : Nat} {a : NArgs} {s : State} (h : Keeps s0 s) :
    KeepsOut s0 (execF2i p a s) := by
  unfold execF2i
  try dsimp only
  repeat' first
    | (with_reducible assumption) | (with_reducible intro _) | (with_reducible exact keepsOut_fault)
    | (with_reducible exact keepsOut_refused) | (with_reducible apply keepsOut_next)
    | (with_reducible apply unOp_keeps) | split | (with_reducible apply keeps_upd)

theorem execI2f_keeps {s0 : State} {p : Nat} {a : NArgs} {s : State} (h : Keeps s0 s) :
    KeepsOut s0 (execI2f p a s) := by
  unfold execI2f
  try dsimp only
  repeat' first
    | (with_reducible assumption) | (with_reducible intro _) | (with_reducible exact keepsOut_fault)
    | (with_reducible exact keepsOut_refused) | (with_reducible apply keepsOut_next)
    | (with_reducible apply unOp_keeps) | split | (with_reducible apply keeps_upd)

theorem execLane_keeps {s0 : State} {p : Nat} {a : NArgs} {s : State} (h : Keeps s0 s) :
    KeepsOut s0 (execLane p a s) := by
  unfold execLane
  try dsimp only
  repeat' first
    | (with_reducible assumption) | (with_reducible intro _) | (with_reducible exact keepsOut_fault)
    | (with_reducible exact keepsOut_refused) | (with_reducible apply keepsOut_next)
    | (with_reducible apply laneOp_keeps) | split | (with_reducible apply keeps_upd)

theorem execIdx_keeps {s0 : State} {p : Nat} {a : NArgs} {s : State} (h : Keeps s0 s) :
    KeepsOut s0 (execIdx p a s) := by
  unfold execIdx
  try dsimp only
  repeat' first
    | (with_reducible assumption) | (with_reducible intro _) | (with_reducible exact keepsOut_fault)
    | (with_reducible exact keepsOut_refused) | (with_reducible apply keepsOut_next)
    | (with_reducible apply laneOp_keeps) | split | (with_reducible apply keeps_upd)

theorem execHdr_keeps {s0 : State} {p : Nat} {a : NArgs} {s : State} (h : Keeps s0 s) :
    KeepsOut s0 (execHdr p a s) := by
  unfold execHdr
  try dsimp only
  repeat' first
    | (with_reducible assumption) | (with_reducible intro _) | (with_reducible exact keepsOut_fault)
    | (with_reducible exact keepsOut_refused) | (with_reducible apply keepsOut_next)
    | (with_reducible exact exKeeps_error) | (with_reducible apply exKeeps_ok)
    | (with_reducible apply needleDo_keeps) | split | (with_reducible apply keeps_upd)

theorem execChalk_keeps {s0 : State} {p : Nat} {a : NArgs} {s : State} (h : Keeps s0 s) :
    KeepsOut s0 (execChalk p a s) := by
  unfold execChalk
  try dsimp only
  repeat' first
    | (with_reducible assumption) | (with_reducible intro _) | (with_reducible exact keepsOut_fault)
    | (with_reducible exact keepsOut_refused) | (with_reducible apply keepsOut_next)
    | (with_reducible exact exKeeps_error) | (with_reducible apply exKeeps_ok)
    | (with_reducible apply needleDo_keeps) | split | (with_reducible apply keeps_upd)

theorem moveLanes_keeps {s0 : State} {q : Nat} {a : NArgs} {n : Lane → W32} {s : State} (h : Keeps s0 s) :
    KeepsOut s0 (moveLanes q a n s) := by
  unfold moveLanes
  try dsimp only
  repeat' first
    | (with_reducible assumption) | (with_reducible intro _) | (with_reducible exact keepsOut_fault)
    | (with_reducible exact keepsOut_refused) | (with_reducible apply keepsOut_next)
    | (with_reducible exact exKeeps_error) | (with_reducible apply exKeeps_ok)
    | (with_reducible apply needleDo_keeps) | (with_reducible apply modPanel_keeps)
    | (with_reducible apply setFlagIf_keeps) | split | (with_reducible apply keeps_upd)

theorem execPerm_keeps {s0 : State} {p : Nat} {a : NArgs} {s : State} (h : Keeps s0 s) :
    KeepsOut s0 (execPerm p a s) := by
  unfold execPerm
  try dsimp only
  repeat' first
    | (with_reducible assumption) | (with_reducible intro _) | (with_reducible exact keepsOut_fault)
    | (with_reducible exact keepsOut_refused) | (with_reducible apply keepsOut_next)
    | (with_reducible apply moveLanes_keeps) | split | (with_reducible apply keeps_upd)

theorem execBcast_keeps {s0 : State} {p : Nat} {a : NArgs} {s : State} (h : Keeps s0 s) :
    KeepsOut s0 (execBcast p a s) := by
  unfold execBcast
  try dsimp only
  repeat' first
    | (with_reducible assumption) | (with_reducible intro _) | (with_reducible exact keepsOut_fault)
    | (with_reducible exact keepsOut_refused) | (with_reducible apply keepsOut_next)
    | (with_reducible apply moveLanes_keeps) | split | (with_reducible apply keeps_upd)

theorem execLdt_keeps {s0 : State} {p : Nat} {a : NArgs} {s : State} (h : Keeps s0 s) :
    KeepsOut s0 (execLdt p a s) := by
  unfold execLdt
  try dsimp only
  repeat' first
    | (with_reducible assumption) | (with_reducible intro _) | (with_reducible exact keepsOut_fault)
    | (with_reducible exact keepsOut_refused) | (with_reducible apply keepsOut_next)
    | (with_reducible exact exKeeps_error) | (with_reducible apply exKeeps_ok)
    | (with_reducible apply needleDo_keeps) | split | (with_reducible apply keeps_upd)

theorem execLdb_keeps {s0 : State} {p : Nat} {a : NArgs} {s : State} (h : Keeps s0 s) :
    KeepsOut s0 (execLdb p a s) := by
  unfold execLdb
  try dsimp only
  repeat' first
    | (with_reducible assumption) | (with_reducible intro _) | (with_reducible exact keepsOut_fault)
    | (with_reducible exact keepsOut_refused) | (with_reducible apply keepsOut_next)
    | (with_reducible exact exKeeps_error) | (with_reducible apply exKeeps_ok)
    | (with_reducible apply bindOp_keeps) | (with_reducible apply touchElems_keeps) | split
    | (with_reducible apply keeps_upd)

theorem execStb_keeps {s0 : State} {p : Nat} {a : NArgs} {s : State} (h : Keeps s0 s) :
    KeepsOut s0 (execStb p a s) := by
  unfold execStb
  try dsimp only
  repeat' first
    | (with_reducible assumption) | (with_reducible intro _) | (with_reducible exact keepsOut_fault)
    | (with_reducible exact keepsOut_refused) | (with_reducible apply keepsOut_next)
    | (with_reducible exact exKeeps_error) | (with_reducible apply exKeeps_ok)
    | (with_reducible apply bindOp_keeps) | (with_reducible apply storeLanes_keeps)
    | (with_reducible apply putWord_keeps) | (with_reducible apply putL16_keeps) | split
    | (with_reducible apply keeps_upd)

theorem execAcc_keeps {s0 : State} {p : Nat} {a : NArgs} {s : State} (h : Keeps s0 s) :
    KeepsOut s0 (execAcc p a s) := by
  unfold execAcc
  try dsimp only
  repeat' first
    | (with_reducible assumption) | (with_reducible intro _) | (with_reducible exact keepsOut_fault)
    | (with_reducible exact keepsOut_refused) | (with_reducible apply keepsOut_next)
    | (with_reducible exact exKeeps_error) | (with_reducible apply exKeeps_ok)
    | (with_reducible apply bindOp_keeps) | (with_reducible apply storeLanes_keeps)
    | (with_reducible apply putWord_keeps) | split | (with_reducible apply keeps_upd)

theorem execCvt16_keeps {s0 : State} {p : Nat} {a : NArgs} {s : State} (h : Keeps s0 s) :
    KeepsOut s0 (execCvt16 p a s) := by
  unfold execCvt16
  try dsimp only
  repeat' first
    | (with_reducible assumption) | (with_reducible intro _) | (with_reducible exact keepsOut_fault)
    | (with_reducible exact keepsOut_refused) | (with_reducible apply keepsOut_next)
    | (with_reducible exact exKeeps_error) | (with_reducible apply exKeeps_ok)
    | (with_reducible apply needleDo_keeps) | split | (with_reducible apply keeps_upd)

theorem drawOp_keeps {s0 : State} {q : Nat} {a : NArgs} {f : TensorDesc → W32 → Lane → W32} {s : State} (h : Keeps s0 s) :
    KeepsOut s0 (drawOp q a f s) := by
  unfold drawOp
  try dsimp only
  repeat' first
    | (with_reducible assumption) | (with_reducible intro _) | (with_reducible exact keepsOut_fault)
    | (with_reducible exact keepsOut_refused) | (with_reducible apply keepsOut_next)
    | (with_reducible exact exKeeps_error) | (with_reducible apply exKeeps_ok)
    | (with_reducible apply needleDo_keeps) | split | (with_reducible apply keeps_upd)

theorem execRand_keeps {s0 : State} {p : Nat} {a : NArgs} {s : State} (h : Keeps s0 s) :
    KeepsOut s0 (execRand p a s) := by
  unfold execRand
  try dsimp only
  repeat' first
    | (with_reducible assumption) | (with_reducible intro _) | (with_reducible exact keepsOut_fault)
    | (with_reducible exact keepsOut_refused) | (with_reducible apply keepsOut_next)
    | (with_reducible apply drawOp_keeps) | split | (with_reducible apply keeps_upd)

theorem execDrop_keeps {s0 : State} {p : Nat} {a : NArgs} {s : State} (h : Keeps s0 s) :
    KeepsOut s0 (execDrop p a s) := by
  unfold execDrop
  try dsimp only
  repeat' first
    | (with_reducible assumption) | (with_reducible intro _) | (with_reducible exact keepsOut_fault)
    | (with_reducible exact keepsOut_refused) | (with_reducible apply keepsOut_next)
    | (with_reducible apply drawOp_keeps) | split | (with_reducible apply keeps_upd)

theorem foldGroup_keeps {s0 : State} {q : Nat} {d : Nat} {micro : Nat} {t : TensorDesc} {pl : Planes} {c : Claim} {s : State} {lg : Nat × Nat} (h : Keeps s0 s) :
    Keeps s0 (foldGroup q d micro t pl c s lg).1 := by
  unfold foldGroup
  try dsimp only
  repeat' first
    | (with_reducible assumption) | (with_reducible intro _) | (with_reducible apply foldInto_keeps)
    | (with_reducible apply modPanel_keeps) | split | (with_reducible apply keeps_upd)

theorem foldReady_keeps {s0 : State} {q : Nat} {d : Nat} {micro : Nat} {t : TensorDesc} {pl : Planes} {s : State} {lg : Nat × Nat} (h : Keeps s0 s) :
    Keeps s0 (foldReady q d micro t pl s lg) := by
  unfold foldReady
  try dsimp only
  repeat' first
    | (with_reducible assumption) | (with_reducible intro _) | (with_reducible apply foldGroup_keeps) | split
    | (with_reducible apply keeps_upd)

theorem setQnt_keeps {s0 : State} {s : State} {d : Nat} {micro : Nat} {o : Option Nat} {r : Option QntRun} (h : Keeps s0 s) :
    Keeps s0 (setQnt s d micro o r) := by
  unfold setQnt
  try dsimp only
  repeat' first
    | (with_reducible assumption) | (with_reducible intro _) | split | (with_reducible apply keeps_upd)

theorem foldInOrder_keeps {s0 : State} {pkg : Package} {d micro : Nat} {t : TensorDesc} {o : Option Nat} : ∀ {n : Nat}
    {s : State}, Keeps s0 s → Keeps s0 (foldInOrder pkg d micro t o n s)
  | 0, _, h => h
  | n + 1, s, h => by
    unfold foldInOrder
    split
    · exact h
    · split
      · exact h
      · dsimp only
        split
        · exact foldGroup_keeps h
        · split
          · exact setQnt_keeps (putStore_keeps (foldGroup_keeps h))
          · exact foldInOrder_keeps (n := n) (setQnt_keeps (foldGroup_keeps h))

theorem openStore_keeps {s0 : State} {s : State} {d : Nat} {micro : Nat} {t : TensorDesc} {o : Option Nat} {pl : Planes} (h : Keeps s0 s) :
    Keeps s0 (openStore s d micro t o pl) := by
  unfold openStore
  try dsimp only
  repeat' first
    | (with_reducible assumption) | (with_reducible intro _) | (with_reducible apply setQnt_keeps)
    | (with_reducible apply putStore_keeps) | split | (with_reducible apply keeps_upd)

theorem execQnt_keeps {s0 : State} {e : PanelWait} {a : NArgs} {s : State} (h : Keeps s0 s) :
    KeepsOut s0 (execQnt e a s) := by
  unfold execQnt
  try dsimp only
  repeat' first
    | (with_reducible assumption) | (with_reducible intro _) | (with_reducible exact keepsOut_fault)
    | (with_reducible exact keepsOut_refused) | (with_reducible apply keepsOut_next)
    | (with_reducible exact exKeeps_error) | (with_reducible apply exKeeps_ok)
    | (with_reducible apply bindOp_keeps) | (with_reducible apply modPanel_keeps)
    | (with_reducible apply foldReady_keeps) | (with_reducible apply foldInOrder_keeps)
    | (with_reducible apply openStore_keeps) | (with_reducible apply storeLanes_keeps)
    | (with_reducible apply putL16_keeps) | (with_reducible apply foldl_keeps) | split
    | (with_reducible apply keeps_upd)

theorem execRpush_keeps {s0 : State} {p : Nat} {a : NArgs} {s : State} (h : Keeps s0 s) :
    KeepsOut s0 (execRpush p a s) := by
  unfold execRpush
  try dsimp only
  repeat' first
    | (with_reducible assumption) | (with_reducible intro _) | (with_reducible exact keepsOut_fault)
    | (with_reducible exact keepsOut_refused) | (with_reducible apply keepsOut_next)
    | (with_reducible exact exKeeps_error) | (with_reducible apply exKeeps_ok)
    | (with_reducible apply needleDo_keeps) | (with_reducible apply storeLanes_keeps)
    | (with_reducible apply pushTerm_keeps) | split | (with_reducible apply keeps_upd)

theorem execRget_keeps {s0 : State} {p : Nat} {a : NArgs} {s : State} (h : Keeps s0 s) :
    KeepsOut s0 (execRget p a s) := by
  unfold execRget
  try dsimp only
  repeat' first
    | (with_reducible assumption) | (with_reducible intro _) | (with_reducible exact keepsOut_fault)
    | (with_reducible exact keepsOut_refused) | (with_reducible apply keepsOut_next)
    | (with_reducible exact exKeeps_error) | (with_reducible apply exKeeps_ok)
    | (with_reducible apply needleDo_keeps) | (with_reducible apply storeLanes_keeps)
    | (with_reducible apply rowTouch_keeps) | split | (with_reducible apply keeps_upd)

end Sys2Proof.Machine
end

