-- ==== Sys2Proof/Laws/KeepTxns.lean ====
section
/-! SUPPORT. The operations of Machine/Txns.lean keep the queue and the canonical form of memory. -/

namespace Sys2Proof.Machine

open Sys2Proof.Config

theorem setTxn_keeps {s0 : State} {s : State} {t : Txn} (h : Keeps s0 s) :
    Keeps s0 (setTxn s t) := by
  unfold setTxn
  try dsimp only
  repeat' first
    | (with_reducible assumption) | (with_reducible intro _) | split | (with_reducible apply keeps_upd)

theorem dropTxn_keeps {s0 : State} {s : State} (h : Keeps s0 s) :
    Keeps s0 (dropTxn s) := by
  unfold dropTxn
  try dsimp only
  repeat' first
    | (with_reducible assumption) | (with_reducible intro _) | (with_reducible apply setTxn_keeps) | split
    | (with_reducible apply keeps_upd)

theorem execTxnBegin_keeps {s0 : State} {m : Nat} {s : State} (h : Keeps s0 s) :
    KeepsOut s0 (execTxnBegin m s) := by
  unfold execTxnBegin
  try dsimp only
  repeat' first
    | (with_reducible assumption) | (with_reducible intro _) | (with_reducible exact keepsOut_fault)
    | (with_reducible exact keepsOut_refused) | (with_reducible apply keepsOut_next)
    | (with_reducible apply serve_keeps) | (with_reducible apply replyOk_keeps)
    | (with_reducible apply setTxn_keeps) | (with_reducible apply refuse_keeps) | split
    | (with_reducible apply keeps_upd)

theorem stageBatch_keeps {s0 : State} {s : State} {m : Nat} {b : Mailbox} (h : Keeps s0 s) :
    Keeps s0 (stageBatch s m b) := by
  unfold stageBatch
  try dsimp only
  repeat' first
    | (with_reducible assumption) | (with_reducible intro _) | (with_reducible apply refuse_keeps)
    | (with_reducible apply replyBad_keeps) | (with_reducible apply replyOk_keeps)
    | (with_reducible apply setTxn_keeps) | (with_reducible apply foldl_keeps) | split | exact id
    | (with_reducible apply keeps_upd)

theorem execTxnSet_keeps {s0 : State} {m : Nat} {s : State} (h : Keeps s0 s) :
    KeepsOut s0 (execTxnSet m s) := by
  unfold execTxnSet
  try dsimp only
  repeat' first
    | (with_reducible assumption) | (with_reducible intro _) | (with_reducible exact keepsOut_fault)
    | (with_reducible exact keepsOut_refused) | (with_reducible apply keepsOut_next)
    | (with_reducible apply serve_keeps) | (with_reducible apply stageBatch_keeps) | split
    | (with_reducible apply keeps_upd)

theorem commitTxn_keeps {s0 : State} {s : State} {m : Nat} {b : Mailbox} (h : Keeps s0 s) :
    Keeps s0 (commitTxn s m b) := by
  unfold commitTxn
  try dsimp only
  repeat' first
    | (with_reducible assumption) | (with_reducible intro _) | (with_reducible apply refuse_keeps)
    | (with_reducible apply replyBad_keeps) | (with_reducible apply dropTxn_keeps)
    | (with_reducible apply waitAt_keeps) | (with_reducible apply setTxn_keeps)
    | (with_reducible apply applyCommit_keeps) | split | (with_reducible apply keeps_upd)

theorem execTxnCommit_keeps {s0 : State} {m : Nat} {s : State} (h : Keeps s0 s) :
    KeepsOut s0 (execTxnCommit m s) := by
  unfold execTxnCommit
  try dsimp only
  repeat' first
    | (with_reducible assumption) | (with_reducible intro _) | (with_reducible exact keepsOut_fault)
    | (with_reducible exact keepsOut_refused) | (with_reducible apply keepsOut_next)
    | (with_reducible apply serve_keeps) | (with_reducible apply commitTxn_keeps) | split
    | (with_reducible apply keeps_upd)

theorem execTxnRollback_keeps {s0 : State} {m : Nat} {s : State} (h : Keeps s0 s) :
    KeepsOut s0 (execTxnRollback m s) := by
  unfold execTxnRollback
  try dsimp only
  repeat' first
    | (with_reducible assumption) | (with_reducible intro _) | (with_reducible exact keepsOut_fault)
    | (with_reducible exact keepsOut_refused) | (with_reducible apply keepsOut_next)
    | (with_reducible apply serve_keeps) | (with_reducible apply refuse_keeps)
    | (with_reducible apply replyOk_keeps) | (with_reducible apply dropTxn_keeps) | split
    | (with_reducible apply keeps_upd)

theorem execTxnExpired_keeps {s0 : State} {s : State} (h : Keeps s0 s) :
    KeepsOut s0 (execTxnExpired s) := by
  unfold execTxnExpired
  try dsimp only
  repeat' first
    | (with_reducible assumption) | (with_reducible intro _) | (with_reducible exact keepsOut_fault)
    | (with_reducible exact keepsOut_refused) | (with_reducible apply keepsOut_next)
    | (with_reducible apply keepsOut_next) | (with_reducible apply raiseEv_keeps)
    | (with_reducible apply dropTxn_keeps) | (with_reducible apply noEvent_keeps) | split
    | (with_reducible apply keeps_upd)

theorem execConfigGet_keeps {s0 : State} {m : Nat} {s : State} (h : Keeps s0 s) :
    KeepsOut s0 (execConfigGet m s) := by
  unfold execConfigGet
  try dsimp only
  repeat' first
    | (with_reducible assumption) | (with_reducible intro _) | (with_reducible exact keepsOut_fault)
    | (with_reducible exact keepsOut_refused) | (with_reducible apply keepsOut_next)
    | (with_reducible apply serve_keeps) | (with_reducible apply replyOk_keeps)
    | (with_reducible apply refuse_keeps) | split | (with_reducible apply keeps_upd)

theorem execCalRead_keeps {s0 : State} {m : Nat} {s : State} (h : Keeps s0 s) :
    KeepsOut s0 (execCalRead m s) := by
  unfold execCalRead
  try dsimp only
  repeat' first
    | (with_reducible assumption) | (with_reducible intro _) | (with_reducible exact keepsOut_fault)
    | (with_reducible exact keepsOut_refused) | (with_reducible apply keepsOut_next)
    | (with_reducible apply serve_keeps) | (with_reducible apply replyOk_keeps) | split
    | (with_reducible apply keeps_upd)

end Sys2Proof.Machine
end

