-- ==== Sys2Proof/Laws/KeepTrust.lean ====
section
/-! SUPPORT. The operations of Machine/Trust.lean keep the queue and the canonical form of memory. -/

namespace Sys2Proof.Machine

open Sys2Proof.Config

theorem execCertRead_keeps {s0 : State} {m : Nat} {s : State} (h : Keeps s0 s) :
    KeepsOut s0 (execCertRead m s) := by
  unfold execCertRead
  try dsimp only
  repeat' first
    | (with_reducible assumption) | (with_reducible intro _) | (with_reducible exact keepsOut_fault)
    | (with_reducible exact keepsOut_refused) | (with_reducible apply keepsOut_next)
    | (with_reducible apply serve_keeps) | (with_reducible apply replyOk_keeps) | split
    | (with_reducible apply keeps_upd)

theorem execAttest_keeps {s0 : State} {m : Nat} {s : State} (h : Keeps s0 s) :
    KeepsOut s0 (execAttest m s) := by
  unfold execAttest
  try dsimp only
  repeat' first
    | (with_reducible assumption) | (with_reducible intro _) | (with_reducible exact keepsOut_fault)
    | (with_reducible exact keepsOut_refused) | (with_reducible apply keepsOut_next)
    | (with_reducible apply serve_keeps) | (with_reducible apply refuse_keeps)
    | (with_reducible apply replyOk_keeps) | split | (with_reducible apply keeps_upd)

theorem setOwner_keeps {s0 : State} {s : State} {m : Nat} {b : Mailbox} (h : Keeps s0 s) :
    Keeps s0 (setOwner s m b) := by
  unfold setOwner
  try dsimp only
  repeat' first
    | (with_reducible assumption) | (with_reducible intro _) | (with_reducible apply refuse_keeps)
    | (with_reducible apply replyOk_keeps) | (with_reducible apply raiseEv_keeps) | split
    | (with_reducible apply keeps_upd)

theorem execOwnerSet_keeps {s0 : State} {m : Nat} {s : State} (h : Keeps s0 s) :
    KeepsOut s0 (execOwnerSet m s) := by
  unfold execOwnerSet
  try dsimp only
  repeat' first
    | (with_reducible assumption) | (with_reducible intro _) | (with_reducible exact keepsOut_fault)
    | (with_reducible exact keepsOut_refused) | (with_reducible apply keepsOut_next)
    | (with_reducible apply serve_keeps) | (with_reducible apply setOwner_keeps) | split
    | (with_reducible apply keeps_upd)

theorem openWindowOf_keeps {s0 : State} {s : State} {b : Mailbox} {kind : Nat} {start : Nat} (h : Keeps s0 s) :
    Keeps s0 (openWindowOf s b kind start) := by
  unfold openWindowOf
  try dsimp only
  repeat' first
    | (with_reducible assumption) | (with_reducible intro _) | split | (with_reducible apply keeps_upd)

theorem beginFw_keeps {s0 : State} {s : State} {m : Nat} {b : Mailbox} (h : Keeps s0 s) :
    Keeps s0 (beginFw s m b) := by
  unfold beginFw
  try dsimp only
  repeat' first
    | (with_reducible assumption) | (with_reducible intro _) | (with_reducible apply refuse_keeps)
    | (with_reducible apply replyOk_keeps) | (with_reducible apply openWindowOf_keeps) | split
    | (with_reducible apply keeps_upd)

theorem execFwBegin_keeps {s0 : State} {m : Nat} {s : State} (h : Keeps s0 s) :
    KeepsOut s0 (execFwBegin m s) := by
  unfold execFwBegin
  try dsimp only
  repeat' first
    | (with_reducible assumption) | (with_reducible intro _) | (with_reducible exact keepsOut_fault)
    | (with_reducible exact keepsOut_refused) | (with_reducible apply keepsOut_next)
    | (with_reducible apply serve_keeps) | (with_reducible apply beginFw_keeps) | split
    | (with_reducible apply keeps_upd)

theorem commitFw_keeps {s0 : State} {s : State} {m : Nat} {x2 : Mailbox} (h : Keeps s0 s) :
    Keeps s0 (commitFw s m x2) := by
  unfold commitFw
  try dsimp only
  repeat' first
    | (with_reducible assumption) | (with_reducible intro _) | (with_reducible apply refuse_keeps)
    | (with_reducible apply closeWindow_keeps) | (with_reducible apply replyOk_keeps) | split
    | (with_reducible apply keeps_upd)

theorem execFwCommit_keeps {s0 : State} {m : Nat} {s : State} (h : Keeps s0 s) :
    KeepsOut s0 (execFwCommit m s) := by
  unfold execFwCommit
  try dsimp only
  repeat' first
    | (with_reducible assumption) | (with_reducible intro _) | (with_reducible exact keepsOut_fault)
    | (with_reducible exact keepsOut_refused) | (with_reducible apply keepsOut_next)
    | (with_reducible apply serve_keeps) | (with_reducible apply commitFw_keeps) | split
    | (with_reducible apply keeps_upd)

theorem execFwActivate_keeps {s0 : State} {m : Nat} {s : State} (h : Keeps s0 s) :
    KeepsOut s0 (execFwActivate m s) := by
  unfold execFwActivate
  try dsimp only
  repeat' first
    | (with_reducible assumption) | (with_reducible intro _) | (with_reducible exact keepsOut_fault)
    | (with_reducible exact keepsOut_refused) | (with_reducible apply keepsOut_next)
    | (with_reducible apply serve_keeps) | (with_reducible apply replyOk_keeps)
    | (with_reducible apply raiseEv_keeps) | (with_reducible apply refuse_keeps) | split
    | (with_reducible apply keeps_upd)

theorem execFwConfirm_keeps {s0 : State} {m : Nat} {s : State} (h : Keeps s0 s) :
    KeepsOut s0 (execFwConfirm m s) := by
  unfold execFwConfirm
  try dsimp only
  repeat' first
    | (with_reducible assumption) | (with_reducible intro _) | (with_reducible exact keepsOut_fault)
    | (with_reducible exact keepsOut_refused) | (with_reducible apply keepsOut_next)
    | (with_reducible apply serve_keeps) | (with_reducible apply replyOk_keeps)
    | (with_reducible apply raiseEv_keeps) | (with_reducible apply refuse_keeps) | split
    | (with_reducible apply keeps_upd)

theorem execFwStatus_keeps {s0 : State} {m : Nat} {s : State} (h : Keeps s0 s) :
    KeepsOut s0 (execFwStatus m s) := by
  unfold execFwStatus
  try dsimp only
  repeat' first
    | (with_reducible assumption) | (with_reducible intro _) | (with_reducible exact keepsOut_fault)
    | (with_reducible exact keepsOut_refused) | (with_reducible apply keepsOut_next)
    | (with_reducible apply serve_keeps) | (with_reducible apply replyOk_keeps) | split
    | (with_reducible apply keeps_upd)

theorem readClears_keeps {s0 : State} {s : State} {m : Nat} {b : Mailbox} (h : Keeps s0 s) :
    Keeps s0 (readClears s m b) := by
  unfold readClears
  try dsimp only
  repeat' first
    | (with_reducible assumption) | (with_reducible intro _) | (with_reducible apply replyOk_keeps) | split
    | (with_reducible apply keeps_upd)

theorem execClearRecordRead_keeps {s0 : State} {m : Nat} {s : State} (h : Keeps s0 s) :
    KeepsOut s0 (execClearRecordRead m s) := by
  unfold execClearRecordRead
  try dsimp only
  repeat' first
    | (with_reducible assumption) | (with_reducible intro _) | (with_reducible exact keepsOut_fault)
    | (with_reducible exact keepsOut_refused) | (with_reducible apply keepsOut_next)
    | (with_reducible apply serve_keeps) | (with_reducible apply readClears_keeps) | split
    | (with_reducible apply keeps_upd)

end Sys2Proof.Machine
end

