-- ==== Sys2Proof/Laws/KeepLoad.lean ====
section
/-! SUPPORT. The operations of Machine/Load.lean keep the queue and the canonical form of memory. -/

namespace Sys2Proof.Machine

open Sys2Proof.Config

theorem stopScan_keeps {s0 : State} {s : State} (h : Keeps s0 s) :
    Keeps s0 (stopScan s) := by
  unfold stopScan
  try dsimp only
  repeat' first
    | (with_reducible assumption) | (with_reducible intro _) | split | (with_reducible apply keeps_upd)

theorem beginJobLoad_keeps {s0 : State} {s : State} {m : Nat} {b : Mailbox} (h : Keeps s0 s) :
    Keeps s0 (beginJobLoad s m b) := by
  unfold beginJobLoad
  try dsimp only
  repeat' first
    | (with_reducible assumption) | (with_reducible intro _) | (with_reducible apply refuse_keeps)
    | (with_reducible apply replyOk_keeps) | (with_reducible apply stopScan_keeps)
    | (with_reducible apply openWindowOf_keeps) | split | (with_reducible apply keeps_upd)

theorem execJobLoadBegin_keeps {s0 : State} {m : Nat} {s : State} (h : Keeps s0 s) :
    KeepsOut s0 (execJobLoadBegin m s) := by
  unfold execJobLoadBegin
  try dsimp only
  repeat' first
    | (with_reducible assumption) | (with_reducible intro _) | (with_reducible exact keepsOut_fault)
    | (with_reducible exact keepsOut_refused) | (with_reducible apply keepsOut_next)
    | (with_reducible apply serve_keeps) | (with_reducible apply beginJobLoad_keeps) | split
    | (with_reducible apply keeps_upd)

theorem beginBaseLoad_keeps {s0 : State} {s : State} {m : Nat} {b : Mailbox} (h : Keeps s0 s) :
    Keeps s0 (beginBaseLoad s m b) := by
  unfold beginBaseLoad
  try dsimp only
  repeat' first
    | (with_reducible assumption) | (with_reducible intro _) | (with_reducible apply refuse_keeps)
    | (with_reducible apply replyOk_keeps) | (with_reducible apply stopScan_keeps)
    | (with_reducible apply openWindowOf_keeps) | split | (with_reducible apply keeps_upd)

theorem execBaseLoadBegin_keeps {s0 : State} {m : Nat} {s : State} (h : Keeps s0 s) :
    KeepsOut s0 (execBaseLoadBegin m s) := by
  unfold execBaseLoadBegin
  try dsimp only
  repeat' first
    | (with_reducible assumption) | (with_reducible intro _) | (with_reducible exact keepsOut_fault)
    | (with_reducible exact keepsOut_refused) | (with_reducible apply keepsOut_next)
    | (with_reducible apply serve_keeps) | (with_reducible apply beginBaseLoad_keeps) | split
    | (with_reducible apply keeps_upd)

theorem commitBase_keeps {s0 : State} {s : State} {m : Nat} {x2 : Mailbox} (h : Keeps s0 s) :
    Keeps s0 (commitBase s m x2) := by
  unfold commitBase
  try dsimp only
  repeat' first
    | (with_reducible assumption) | (with_reducible intro _) | (with_reducible apply refuse_keeps)
    | (with_reducible apply closeWindow_keeps) | (with_reducible apply readBytes_keeps)
    | (with_reducible apply replyOk_keeps) | split | (with_reducible apply keeps_upd)

theorem execBaseLoadCommit_keeps {s0 : State} {m : Nat} {s : State} (h : Keeps s0 s) :
    KeepsOut s0 (execBaseLoadCommit m s) := by
  unfold execBaseLoadCommit
  try dsimp only
  repeat' first
    | (with_reducible assumption) | (with_reducible intro _) | (with_reducible exact keepsOut_fault)
    | (with_reducible exact keepsOut_refused) | (with_reducible apply keepsOut_next)
    | (with_reducible apply serve_keeps) | (with_reducible apply commitBase_keeps) | split
    | (with_reducible apply keeps_upd)

theorem admitPort_keeps {s0 : State} {p : Package} {s : State} {q : Nat} (h : Keeps s0 s) :
    Keeps s0 (admitPort p s q) := by
  unfold admitPort
  try dsimp only
  repeat' first
    | (with_reducible assumption) | (with_reducible intro _) | (with_reducible apply modPort_keeps)
    | (with_reducible apply raiseEv_keeps) | split | (with_reducible apply keeps_upd)

theorem zeroRange_keeps {s0 : State} {s : State} {a : Nat} {n : Nat} (h : Keeps s0 s) :
    Keeps s0 (zeroRange s a n) := by
  unfold zeroRange
  exact keeps_mem h (memErase_wf _ _)

theorem writeSlice_keeps {s0 : State} {bs : List Byte} {s : State} {q : Nat} (h : Keeps s0 s) :
    Keeps s0 (writeSlice bs s q) := by
  unfold writeSlice
  try dsimp only
  repeat' first
    | (with_reducible assumption) | (with_reducible intro _) | (with_reducible apply rawWrite_keeps)
    | (with_reducible apply zeroRange_keeps) | (with_reducible apply foldl_keeps) | split
    | (with_reducible apply keeps_upd)

theorem writeSystem_keeps {s0 : State} {s : State} {bs : List Byte} (h : Keeps s0 s) :
    Keeps s0 (writeSystem s bs) := by
  unfold writeSystem
  try dsimp only
  repeat' first
    | (with_reducible assumption) | (with_reducible intro _) | (with_reducible apply writeSlice_keeps)
    | (with_reducible apply foldl_keeps) | split | (with_reducible apply keeps_upd)

theorem staleReads_keeps {s0 : State} {s : State} (h : Keeps s0 s) :
    Keeps s0 (staleReads s) := by
  unfold staleReads
  try dsimp only
  repeat' first
    | (with_reducible assumption) | (with_reducible intro _) | (with_reducible apply refuse_keeps)
    | (with_reducible apply foldl_keeps) | split | (with_reducible apply keeps_upd)

theorem freshOverflow_keeps {s0 : State} {s : State} {p : Package} (h : Keeps s0 s) :
    Keeps s0 (freshOverflow s p) := by
  unfold freshOverflow
  try dsimp only
  repeat' first
    | (with_reducible assumption) | (with_reducible intro _) | (with_reducible apply rawWrite_keeps)
    | (with_reducible apply foldl_keeps) | split | (with_reducible apply keeps_upd)

theorem startJob_keeps {s0 : State} {s : State} {p : Package} {bs : List Byte} (h : Keeps s0 s) :
    Keeps s0 (startJob s p bs) := by
  unfold startJob
  try dsimp only
  repeat' first
    | (with_reducible assumption) | (with_reducible intro _) | (with_reducible apply staleReads_keeps)
    | (with_reducible apply dropBase_keeps) | (with_reducible apply freshOverflow_keeps)
    | (with_reducible apply writeSystem_keeps) | (with_reducible apply raiseEv_keeps)
    | (with_reducible apply goState_keeps) | split | (with_reducible apply keeps_upd)

theorem packageTouch_keeps {s0 : State} {s : State} {len : Nat} (h : Keeps s0 s) :
    Keeps s0 (packageTouch s len) := by
  unfold packageTouch
  try dsimp only
  repeat' first
    | (with_reducible assumption) | (with_reducible intro _) | (with_reducible apply touchRange_keeps)
    | (with_reducible apply foldl_keeps) | split | (with_reducible apply keeps_upd)

theorem admitJob_keeps {s0 : State} {s : State} {m : Nat} {len : Nat} {digest : Nat} {p : Package} {bs : List Byte} (h : Keeps s0 s) :
    Keeps s0 (admitJob s m len digest p bs) := by
  unfold admitJob
  try dsimp only
  repeat' first
    | (with_reducible assumption) | (with_reducible intro _) | (with_reducible apply waitAt_keeps)
    | (with_reducible apply admitPort_keeps) | (with_reducible apply startJob_keeps)
    | (with_reducible apply stopScan_keeps) | (with_reducible apply replyOk_keeps)
    | (with_reducible apply replyBad_keeps) | (with_reducible apply foldl_keeps) | split
    | (with_reducible apply keeps_upd)

theorem checkPackage_keeps {s0 : State} {s : State} {m : Nat} {len : Nat} {digest : Nat} (h : Keeps s0 s) :
    Keeps s0 (checkPackage s m len digest) := by
  unfold checkPackage
  try dsimp only
  repeat' first
    | (with_reducible assumption) | (with_reducible intro _) | (with_reducible apply packageTouch_keeps)
    | (with_reducible apply refuse_keeps) | (with_reducible apply replyBad_keeps)
    | (with_reducible apply admitJob_keeps) | split | (with_reducible apply keeps_upd)

theorem commitJobLoad_keeps {s0 : State} {s : State} {m : Nat} {x2 : Mailbox} (h : Keeps s0 s) :
    Keeps s0 (commitJobLoad s m x2) := by
  unfold commitJobLoad
  try dsimp only
  repeat' first
    | (with_reducible assumption) | (with_reducible intro _) | (with_reducible apply refuse_keeps)
    | (with_reducible apply closeWindow_keeps) | (with_reducible apply checkPackage_keeps) | split
    | (with_reducible apply keeps_upd)

theorem execJobLoadCommit_keeps {s0 : State} {m : Nat} {s : State} (h : Keeps s0 s) :
    KeepsOut s0 (execJobLoadCommit m s) := by
  unfold execJobLoadCommit
  try dsimp only
  repeat' first
    | (with_reducible assumption) | (with_reducible intro _) | (with_reducible exact keepsOut_fault)
    | (with_reducible exact keepsOut_refused) | (with_reducible apply keepsOut_next)
    | (with_reducible apply serve_keeps) | (with_reducible apply commitJobLoad_keeps) | split
    | (with_reducible apply keeps_upd)

theorem retryLoad_keeps {s0 : State} {s : State} (h : Keeps s0 s) :
    Keeps s0 (retryLoad s) := by
  unfold retryLoad
  try dsimp only
  repeat' first
    | (with_reducible assumption) | (with_reducible intro _) | (with_reducible apply refuse_keeps)
    | (with_reducible apply checkPackage_keeps) | split | (with_reducible apply keeps_upd)

theorem execPowerWindow_keeps {s0 : State} {p : Nat} {pCore : Nat} {vIn : Nat} {vCore : Nat} {s : State} (h : Keeps s0 s) :
    KeepsOut s0 (execPowerWindow p pCore vIn vCore s) := by
  unfold execPowerWindow
  try dsimp only
  repeat' first
    | (with_reducible assumption) | (with_reducible intro _) | (with_reducible exact keepsOut_fault)
    | (with_reducible exact keepsOut_refused) | (with_reducible apply keepsOut_next)
    | (with_reducible apply outThen_keeps) | (with_reducible apply powerWindow_keeps)
    | (with_reducible apply retryLoad_keeps) | split | (with_reducible apply keeps_upd)

theorem endTraining_keeps {s0 : State} {s : State} (h : Keeps s0 s) :
    Keeps s0 (endTraining s) := by
  unfold endTraining
  try dsimp only
  repeat' first
    | (with_reducible assumption) | (with_reducible intro _) | split | (with_reducible apply keeps_upd)

theorem execLinkTraining_keeps {s0 : State} {port : Nat} {r : TrainOutcome} {nonce : Nat} {s : State} (h : Keeps s0 s) :
    KeepsOut s0 (execLinkTraining port r nonce s) := by
  unfold execLinkTraining
  try dsimp only
  repeat' first
    | (with_reducible assumption) | (with_reducible intro _) | (with_reducible exact keepsOut_fault)
    | (with_reducible exact keepsOut_refused) | (with_reducible apply keepsOut_next)
    | (with_reducible apply keepsOut_next) | (with_reducible apply retryLoad_keeps)
    | (with_reducible apply endTraining_keeps) | (with_reducible apply trainPort_keeps)
    | (with_reducible apply noEvent_keeps) | split | (with_reducible apply keeps_upd)

end Sys2Proof.Machine
end

