-- ==== Sys2Proof/Laws/KeepDevice.lean ====
section
/-! SUPPORT. The operations of Machine/Device.lean keep the queue and the canonical form of memory. -/

namespace Sys2Proof.Machine

open Sys2Proof.Config

theorem closeKinds_keeps {s0 : State} {s : State} {ks : List Nat} (h : Keeps s0 s) :
    Keeps s0 (closeKinds s ks) := by
  unfold closeKinds
  try dsimp only
  repeat' first
    | (with_reducible assumption) | (with_reducible intro _) | (with_reducible apply closeWindow_keeps) | split
    | (with_reducible apply keeps_upd)

theorem endWait_keeps {s0 : State} {s : State} (h : Keeps s0 s) :
    Keeps s0 (endWait s) := by
  unfold endWait
  try dsimp only
  repeat' first
    | (with_reducible assumption) | (with_reducible intro _) | (with_reducible apply abortAt_keeps) | split
    | (with_reducible apply keeps_upd)

theorem execSpare_keeps {s0 : State} {m : Nat} {s : State} (h : Keeps s0 s) :
    KeepsOut s0 (execSpare m s) := by
  unfold execSpare
  try dsimp only
  repeat' first
    | (with_reducible assumption) | (with_reducible intro _) | (with_reducible exact keepsOut_fault)
    | (with_reducible exact keepsOut_refused) | (with_reducible apply keepsOut_next)
    | (with_reducible apply serve_keeps) | (with_reducible apply replyOk_keeps)
    | (with_reducible apply goState_keeps) | (with_reducible apply endWait_keeps)
    | (with_reducible apply closeKinds_keeps) | split | (with_reducible apply keeps_upd)

theorem execSpareExit_keeps {s0 : State} {m : Nat} {s : State} (h : Keeps s0 s) :
    KeepsOut s0 (execSpareExit m s) := by
  unfold execSpareExit
  try dsimp only
  repeat' first
    | (with_reducible assumption) | (with_reducible intro _) | (with_reducible exact keepsOut_fault)
    | (with_reducible exact keepsOut_refused) | (with_reducible apply keepsOut_next)
    | (with_reducible apply serve_keeps) | (with_reducible apply replyOk_keeps)
    | (with_reducible apply goState_keeps) | (with_reducible apply closeKinds_keeps) | split
    | (with_reducible apply keeps_upd)

theorem startFill_keeps {s0 : State} {s : State} {m : Nat} {b : Mailbox} (h : Keeps s0 s) :
    Keeps s0 (startFill s m b) := by
  unfold startFill
  try dsimp only
  repeat' first
    | (with_reducible assumption) | (with_reducible intro _) | (with_reducible apply refuse_keeps)
    | (with_reducible apply goState_keeps) | (with_reducible apply stopScan_keeps)
    | (with_reducible apply closeKinds_keeps) | (with_reducible apply replyOk_keeps) | split
    | (with_reducible apply keeps_upd)

theorem execFill_keeps {s0 : State} {m : Nat} {s : State} (h : Keeps s0 s) :
    KeepsOut s0 (execFill m s) := by
  unfold execFill
  try dsimp only
  repeat' first
    | (with_reducible assumption) | (with_reducible intro _) | (with_reducible exact keepsOut_fault)
    | (with_reducible exact keepsOut_refused) | (with_reducible apply keepsOut_next)
    | (with_reducible apply serve_keeps) | (with_reducible apply startFill_keeps) | split
    | (with_reducible apply keeps_upd)

theorem askDrain_keeps {s0 : State} {s : State} {m : Nat} {b : Mailbox} (h : Keeps s0 s) :
    Keeps s0 (askDrain s m b) := by
  unfold askDrain
  try dsimp only
  repeat' first
    | (with_reducible assumption) | (with_reducible intro _) | (with_reducible apply drainIfDue_keeps)
    | (with_reducible apply replyOk_keeps) | split | (with_reducible apply keeps_upd)

theorem execDrain_keeps {s0 : State} {m : Nat} {s : State} (h : Keeps s0 s) :
    KeepsOut s0 (execDrain m s) := by
  unfold execDrain
  try dsimp only
  repeat' first
    | (with_reducible assumption) | (with_reducible intro _) | (with_reducible exact keepsOut_fault)
    | (with_reducible exact keepsOut_refused) | (with_reducible apply keepsOut_next)
    | (with_reducible apply serve_keeps) | (with_reducible apply askDrain_keeps) | split
    | (with_reducible apply keeps_upd)

theorem execUndrain_keeps {s0 : State} {m : Nat} {s : State} (h : Keeps s0 s) :
    KeepsOut s0 (execUndrain m s) := by
  unfold execUndrain
  try dsimp only
  repeat' first
    | (with_reducible assumption) | (with_reducible intro _) | (with_reducible exact keepsOut_fault)
    | (with_reducible exact keepsOut_refused) | (with_reducible apply keepsOut_next)
    | (with_reducible apply serve_keeps) | (with_reducible apply replyOk_keeps) | split
    | (with_reducible apply keeps_upd)

theorem startSelfTest_keeps {s0 : State} {s : State} {m : Nat} {x2 : Mailbox} (h : Keeps s0 s) :
    Keeps s0 (startSelfTest s m x2) := by
  unfold startSelfTest
  try dsimp only
  repeat' first
    | (with_reducible assumption) | (with_reducible intro _) | (with_reducible apply replyOk_keeps) | split
    | (with_reducible apply keeps_upd)

theorem execSelfTest_keeps {s0 : State} {m : Nat} {s : State} (h : Keeps s0 s) :
    KeepsOut s0 (execSelfTest m s) := by
  unfold execSelfTest
  try dsimp only
  repeat' first
    | (with_reducible assumption) | (with_reducible intro _) | (with_reducible exact keepsOut_fault)
    | (with_reducible exact keepsOut_refused) | (with_reducible apply keepsOut_next)
    | (with_reducible apply serve_keeps) | (with_reducible apply startSelfTest_keeps) | split
    | (with_reducible apply keeps_upd)

theorem execSpareScan_keeps {s0 : State} {s : State} (h : Keeps s0 s) :
    KeepsOut s0 (execSpareScan s) := by
  unfold execSpareScan
  try dsimp only
  repeat' first
    | (with_reducible assumption) | (with_reducible intro _) | (with_reducible exact keepsOut_fault)
    | (with_reducible exact keepsOut_refused) | (with_reducible apply keepsOut_next)
    | (with_reducible apply keepsOut_next) | (with_reducible apply noEvent_keeps) | split
    | (with_reducible apply keeps_upd)

theorem boltLost_keeps {s0 : State} {s : State} (h : Keeps s0 s) :
    Keeps s0 (boltLost s) := by
  unfold boltLost
  exact keeps_mem h (memErase_wf _ _)

theorem hibernate_keeps {s0 : State} {s : State} {m : Nat} {x2 : Mailbox} (h : Keeps s0 s) :
    Keeps s0 (hibernate s m x2) := by
  unfold hibernate
  try dsimp only
  repeat' first
    | (with_reducible assumption) | (with_reducible intro _) | (with_reducible apply boltLost_keeps)
    | (with_reducible apply endWait_keeps) | (with_reducible apply closeKinds_keeps)
    | (with_reducible apply replyOk_keeps) | (with_reducible apply goState_keeps) | split
    | (with_reducible apply keeps_upd)

theorem execHibernate_keeps {s0 : State} {m : Nat} {s : State} (h : Keeps s0 s) :
    KeepsOut s0 (execHibernate m s) := by
  unfold execHibernate
  try dsimp only
  repeat' first
    | (with_reducible assumption) | (with_reducible intro _) | (with_reducible exact keepsOut_fault)
    | (with_reducible exact keepsOut_refused) | (with_reducible apply keepsOut_next)
    | (with_reducible apply serve_keeps) | (with_reducible apply hibernate_keeps) | split
    | (with_reducible apply keeps_upd)

theorem execWake_keeps {s0 : State} {m : Nat} {s : State} (h : Keeps s0 s) :
    KeepsOut s0 (execWake m s) := by
  unfold execWake
  try dsimp only
  repeat' first
    | (with_reducible assumption) | (with_reducible intro _) | (with_reducible exact keepsOut_fault)
    | (with_reducible exact keepsOut_refused) | (with_reducible apply keepsOut_next)
    | (with_reducible apply serve_keeps) | (with_reducible apply hibernate_keeps)
    | (with_reducible apply replyOk_keeps) | split | (with_reducible apply keeps_upd)

theorem injectError_keeps {s0 : State} {s : State} {m : Nat} {b : Mailbox} (h : Keeps s0 s) :
    Keeps s0 (injectError s m b) := by
  unfold injectError
  try dsimp only
  repeat' first
    | (with_reducible assumption) | (with_reducible intro _) | (with_reducible apply refuse_keeps)
    | (with_reducible apply replyOk_keeps) | split | (with_reducible apply keeps_upd)

theorem execMemInject_keeps {s0 : State} {m : Nat} {s : State} (h : Keeps s0 s) :
    KeepsOut s0 (execMemInject m s) := by
  unfold execMemInject
  try dsimp only
  repeat' first
    | (with_reducible assumption) | (with_reducible intro _) | (with_reducible exact keepsOut_fault)
    | (with_reducible exact keepsOut_refused) | (with_reducible apply keepsOut_next)
    | (with_reducible apply serve_keeps) | (with_reducible apply injectError_keeps) | split
    | (with_reducible apply keeps_upd)

theorem execPortRetrain_keeps {s0 : State} {m : Nat} {s : State} (h : Keeps s0 s) :
    KeepsOut s0 (execPortRetrain m s) := by
  unfold execPortRetrain
  try dsimp only
  repeat' first
    | (with_reducible assumption) | (with_reducible intro _) | (with_reducible exact keepsOut_fault)
    | (with_reducible exact keepsOut_refused) | (with_reducible apply keepsOut_next)
    | (with_reducible apply serve_keeps) | (with_reducible apply refuse_keeps)
    | (with_reducible apply replyOk_keeps) | (with_reducible apply modPort_keeps) | split
    | (with_reducible apply keeps_upd)

theorem execRegisterAccess_keeps {s0 : State} {source : Nat} {s : State} (h : Keeps s0 s) :
    KeepsOut s0 (execRegisterAccess source s) := by
  unfold execRegisterAccess
  try dsimp only
  repeat' first
    | (with_reducible assumption) | (with_reducible intro _) | (with_reducible exact keepsOut_fault)
    | (with_reducible exact keepsOut_refused) | (with_reducible apply keepsOut_next)
    | (with_reducible apply raiseEv_keeps) | split | (with_reducible apply keeps_upd)

end Sys2Proof.Machine
end

