-- ==== Sys2Proof/Laws/KeepFlowMsgs.lean ====
section
/-! SUPPORT. The operations of Machine/FlowMsgs.lean keep the queue and the canonical form of memory. -/

namespace Sys2Proof.Machine

open Sys2Proof.Config

theorem openFlow_keeps {s0 : State} {s : State} {m : Nat} {b : Mailbox} (h : Keeps s0 s) :
    Keeps s0 (openFlow s m b) := by
  unfold openFlow
  try dsimp only
  repeat' first
    | (with_reducible assumption) | (with_reducible intro _) | (with_reducible apply refuse_keeps)
    | (with_reducible apply pumpSnap_keeps) | (with_reducible apply pumpEmits_keeps)
    | (with_reducible apply replyOk_keeps) | (with_reducible apply setFlow_keeps) | split
    | (with_reducible apply keeps_upd)

theorem execFlowOpen_keeps {s0 : State} {m : Nat} {s : State} (h : Keeps s0 s) :
    KeepsOut s0 (execFlowOpen m s) := by
  unfold execFlowOpen
  try dsimp only
  repeat' first
    | (with_reducible assumption) | (with_reducible intro _) | (with_reducible exact keepsOut_fault)
    | (with_reducible exact keepsOut_refused) | (with_reducible apply keepsOut_next)
    | (with_reducible apply serve_keeps) | (with_reducible apply openFlow_keeps) | split
    | (with_reducible apply keeps_upd)

theorem closeReq_keeps {s0 : State} {s : State} {m : Nat} {b : Mailbox} (h : Keeps s0 s) :
    Keeps s0 (closeReq s m b) := by
  unfold closeReq
  try dsimp only
  repeat' first
    | (with_reducible assumption) | (with_reducible intro _) | (with_reducible apply refuse_keeps)
    | (with_reducible apply endFlow_keeps) | (with_reducible apply closeIfDone_keeps)
    | (with_reducible apply setFlow_keeps) | (with_reducible apply replyOk_keeps)
    | (with_reducible apply tryEndJob_keeps) | (with_reducible apply pumpSnap_keeps)
    | (with_reducible apply pumpEmits_keeps) | split | (with_reducible apply keeps_upd)

theorem execFlowClose_keeps {s0 : State} {m : Nat} {s : State} (h : Keeps s0 s) :
    KeepsOut s0 (execFlowClose m s) := by
  unfold execFlowClose
  try dsimp only
  repeat' first
    | (with_reducible assumption) | (with_reducible intro _) | (with_reducible exact keepsOut_fault)
    | (with_reducible exact keepsOut_refused) | (with_reducible apply keepsOut_next)
    | (with_reducible apply serve_keeps) | (with_reducible apply closeReq_keeps) | split
    | (with_reducible apply keeps_upd)

theorem execFlowStatus_keeps {s0 : State} {m : Nat} {s : State} (h : Keeps s0 s) :
    KeepsOut s0 (execFlowStatus m s) := by
  unfold execFlowStatus
  try dsimp only
  repeat' first
    | (with_reducible assumption) | (with_reducible intro _) | (with_reducible exact keepsOut_fault)
    | (with_reducible exact keepsOut_refused) | (with_reducible apply keepsOut_next)
    | (with_reducible apply serve_keeps) | (with_reducible apply refuse_keeps)
    | (with_reducible apply replyOk_keeps) | split | (with_reducible apply keeps_upd)

theorem updateKey_keeps {s0 : State} {s : State} {m : Nat} {b : Mailbox} (h : Keeps s0 s) :
    Keeps s0 (updateKey s m b) := by
  unfold updateKey
  try dsimp only
  repeat' first
    | (with_reducible assumption) | (with_reducible intro _) | (with_reducible apply replyOk_keeps)
    | (with_reducible apply refuse_keeps) | (with_reducible apply nextEpoch_keeps) | split
    | (with_reducible apply keeps_upd)

theorem execKeyUpdate_keeps {s0 : State} {m : Nat} {s : State} (h : Keeps s0 s) :
    KeepsOut s0 (execKeyUpdate m s) := by
  unfold execKeyUpdate
  try dsimp only
  repeat' first
    | (with_reducible assumption) | (with_reducible intro _) | (with_reducible exact keepsOut_fault)
    | (with_reducible exact keepsOut_refused) | (with_reducible apply keepsOut_next)
    | (with_reducible apply serve_keeps) | (with_reducible apply updateKey_keeps) | split
    | (with_reducible apply keeps_upd)

theorem execSessionEnd_keeps {s0 : State} {m : Nat} {s : State} (h : Keeps s0 s) :
    KeepsOut s0 (execSessionEnd m s) := by
  unfold execSessionEnd
  try dsimp only
  repeat' first
    | (with_reducible assumption) | (with_reducible intro _) | (with_reducible exact keepsOut_fault)
    | (with_reducible exact keepsOut_refused) | (with_reducible apply keepsOut_next)
    | (with_reducible apply serve_keeps) | (with_reducible apply replyOk_keeps)
    | (with_reducible apply endSession_keeps) | split | (with_reducible apply keeps_upd)

end Sys2Proof.Machine
end

