-- ==== Sys2Proof/Laws/KeepRow.lean ====
section
/-! SUPPORT. The operations of Machine/Row.lean keep the queue and the canonical form of memory. -/

namespace Sys2Proof.Machine

open Sys2Proof.Config

theorem rowMod_keeps {s0 : State} {s : State} {q : Nat} {rd : RowDesc} {n : Nat} {f : RowRec → RowRec} (h : Keeps s0 s) :
    Keeps s0 (rowMod s q rd n f) := by
  unfold rowMod
  try dsimp only
  repeat' first
    | (with_reducible assumption) | (with_reducible intro _) | (with_reducible apply rowPut_keeps)
    | (with_reducible apply rowTouch_keeps) | split | (with_reducible apply keeps_upd)

theorem rowEach_keeps {s0 : State} {rd : RowDesc} {q : Nat} {f : State → Nat → RowRec → RowRec} {s : State} (h : Keeps s0 s) :
    Keeps s0 (rowEach rd q f s) := by
  unfold rowEach
  try dsimp only
  repeat' first
    | (with_reducible assumption) | (with_reducible intro _) | (with_reducible apply rowMod_keeps)
    | (with_reducible apply foldl_keeps) | split | (with_reducible apply keeps_upd)

theorem finalise_keeps {s0 : State} {rd : RowDesc} {q : Nat} {f : RowRec → F32} {s : State} (h : Keeps s0 s) :
    Keeps s0 (finalise rd q f s) := by
  unfold finalise
  try dsimp only
  repeat' first
    | (with_reducible assumption) | (with_reducible intro _) | (with_reducible apply rowEach_keeps) | split
    | (with_reducible apply keeps_upd)

theorem rmsbOn_keeps {s0 : State} {rd : RowDesc} {q : Nat} {s : State} (h : Keeps s0 s) :
    Keeps s0 (rmsbOn rd q s) := by
  unfold rmsbOn
  try dsimp only
  repeat' first
    | (with_reducible assumption) | (with_reducible intro _) | (with_reducible apply rowMod_keeps)
    | (with_reducible apply rowTouch_keeps) | (with_reducible apply foldl_keeps) | split
    | (with_reducible apply keeps_upd)

theorem sampleOn_keeps {s0 : State} {p : Package} {rd : RowDesc} {q : Nat} {s : State} (h : Keeps s0 s) :
    Keeps s0 (sampleOn p rd q s) := by
  unfold sampleOn
  try dsimp only
  repeat' first
    | (with_reducible assumption) | (with_reducible intro _) | (with_reducible apply rowEach_keeps) | split
    | (with_reducible apply keeps_upd)

theorem pickOne_keeps {s0 : State} {q : Nat} {rd : RowDesc} {s : State} {n : Nat} (h : Keeps s0 s) :
    Keeps s0 (pickOne q rd s n) := by
  unfold pickOne
  try dsimp only
  repeat' first
    | (with_reducible assumption) | (with_reducible intro _) | (with_reducible apply rowPut_keeps)
    | (with_reducible apply rowTouch_keeps) | (with_reducible apply takeFree_keeps)
    | (with_reducible apply setFlag_keeps) | split | (with_reducible apply keeps_upd)

theorem saveOn_keeps {s0 : State} {p : Package} {rd : RowDesc} {q : Nat} {s : State} (h : Keeps s0 s) :
    Keeps s0 (saveOn p rd q s) := by
  unfold saveOn
  try dsimp only
  repeat' first
    | (with_reducible assumption) | (with_reducible intro _) | (with_reducible apply placePut_keeps)
    | (with_reducible apply rowTouch_keeps) | (with_reducible apply foldl_keeps) | split
    | (with_reducible apply keeps_upd)

theorem loadOn_keeps {s0 : State} {p : Package} {rd : RowDesc} {q : Nat} {s : State} (h : Keeps s0 s) :
    Keeps s0 (loadOn p rd q s) := by
  unfold loadOn
  try dsimp only
  repeat' first
    | (with_reducible assumption) | (with_reducible intro _) | (with_reducible apply rowPut_keeps)
    | (with_reducible apply placeTouch_keeps) | (with_reducible apply foldl_keeps) | split
    | (with_reducible apply keeps_upd)

theorem recvOn_keeps {s0 : State} {q : Nat} {rd : RowDesc} {s : State} (h : Keeps s0 s) :
    KeepsOpt s0 (recvOn q rd s) := by
  unfold recvOn
  try dsimp only
  repeat' first
    | (with_reducible assumption) | (with_reducible intro _) | (with_reducible exact keepsOpt_none)
    | (with_reducible apply keepsOpt_some) | (with_reducible apply rowPut_keeps)
    | (with_reducible apply modPanel_keeps) | (with_reducible apply foldl_keeps) | split
    | (with_reducible apply keeps_upd)

theorem serveRecv_keeps {s0 : State} {p : Package} {q : Nat} {s : State} (h : Keeps s0 s) : Keeps s0 (serveRecv p q s) := by
  unfold serveRecv
  refine foldl_keeps (fun t d ht => ?_) h
  split
  · exact ht
  · split
    · exact ht
    · rename_i u hu
      exact modPanel_keeps (recvOn_keeps ht _ hu)

theorem sendRecords_keeps {s0 : State} {p : Package} {rd : RowDesc} {q : Nat} {s : State} (h : Keeps s0 s) :
    Keeps s0 (sendRecords p rd q s) := by
  unfold sendRecords
  exact serveRecv_keeps (foldl_keeps (fun _ _ ht => modPanel_keeps (rowPut_keeps (rowTouch_keeps ht))) h)

theorem awaitRecords_keeps {s0 : State} {d : Nat} {rd : RowDesc} {q : Nat} {s : State} (h : Keeps s0 s) :
    Keeps s0 (awaitRecords d rd q s) := by
  unfold awaitRecords
  cases e : recvOn q rd s with
  | none => exact modPanel_keeps (s0 := s0) (s := s) (p := q) (f := fun w => { w with rowWait := w.rowWait ++ [d] }) h
  | some t => exact recvOn_keeps h t e

theorem rowDo_keeps {s0 : State} {p : Package} {op : Nat} {d : Nat} {rd : RowDesc} {q : Nat} {s : State} (h : Keeps s0 s) :
    Keeps s0 (rowDo p op d rd q s) := by
  unfold rowDo
  try dsimp only
  repeat' first
    | (with_reducible assumption) | (with_reducible intro _) | (with_reducible apply rowEach_keeps)
    | (with_reducible apply finalise_keeps) | (with_reducible apply rmsbOn_keeps)
    | (with_reducible apply sampleOn_keeps) | (with_reducible apply pickOne_keeps)
    | (with_reducible apply saveOn_keeps) | (with_reducible apply loadOn_keeps)
    | (with_reducible apply sendRecords_keeps) | (with_reducible apply awaitRecords_keeps)
    | (with_reducible apply foldl_keeps) | split | (with_reducible apply keeps_upd)

theorem rowOn_keeps {s0 : State} {p : Package} {op : Nat} {d : Nat} {rd : RowDesc} {q : Nat} {s : State} (h : Keeps s0 s) :
    KeepsOut s0 (rowOn p op d rd q s) := by
  unfold rowOn
  try dsimp only
  repeat' first
    | (with_reducible assumption) | (with_reducible intro _) | (with_reducible exact keepsOut_fault)
    | (with_reducible exact keepsOut_refused) | (with_reducible apply keepsOut_next)
    | (with_reducible apply rowDo_keeps) | split | (with_reducible apply keeps_upd)

theorem rowSlot_keeps {s0 : State} {op : Nat} {x : SlotRef} {s : State} (h : Keeps s0 s) :
    KeepsOut s0 (rowSlot op x s) := by
  unfold rowSlot
  try dsimp only
  repeat' first
    | (with_reducible assumption) | (with_reducible intro _) | (with_reducible exact keepsOut_fault)
    | (with_reducible exact keepsOut_refused) | (with_reducible apply keepsOut_next)
    | (with_reducible apply whenIssuing_keeps) | (with_reducible apply onPanels_keeps)
    | (with_reducible apply rowOn_keeps) | split | (with_reducible apply keeps_upd)

theorem execRclr_keeps {s0 : State} {x : SlotRef} {s : State} (h : Keeps s0 s) :
    KeepsOut s0 (execRclr x s) := by
  unfold execRclr
  try dsimp only
  repeat' first
    | (with_reducible assumption) | (with_reducible intro _) | (with_reducible exact keepsOut_fault)
    | (with_reducible exact keepsOut_refused) | (with_reducible apply keepsOut_next)
    | (with_reducible apply rowSlot_keeps) | split | (with_reducible apply keeps_upd)

theorem execRfinMean_keeps {s0 : State} {x : SlotRef} {s : State} (h : Keeps s0 s) :
    KeepsOut s0 (execRfinMean x s) := by
  unfold execRfinMean
  try dsimp only
  repeat' first
    | (with_reducible assumption) | (with_reducible intro _) | (with_reducible exact keepsOut_fault)
    | (with_reducible exact keepsOut_refused) | (with_reducible apply keepsOut_next)
    | (with_reducible apply rowSlot_keeps) | split | (with_reducible apply keeps_upd)

theorem execRfinRms_keeps {s0 : State} {x : SlotRef} {s : State} (h : Keeps s0 s) :
    KeepsOut s0 (execRfinRms x s) := by
  unfold execRfinRms
  try dsimp only
  repeat' first
    | (with_reducible assumption) | (with_reducible intro _) | (with_reducible exact keepsOut_fault)
    | (with_reducible exact keepsOut_refused) | (with_reducible apply keepsOut_next)
    | (with_reducible apply rowSlot_keeps) | split | (with_reducible apply keeps_upd)

theorem execRfinLse_keeps {s0 : State} {x : SlotRef} {s : State} (h : Keeps s0 s) :
    KeepsOut s0 (execRfinLse x s) := by
  unfold execRfinLse
  try dsimp only
  repeat' first
    | (with_reducible assumption) | (with_reducible intro _) | (with_reducible exact keepsOut_fault)
    | (with_reducible exact keepsOut_refused) | (with_reducible apply keepsOut_next)
    | (with_reducible apply rowSlot_keeps) | split | (with_reducible apply keeps_upd)

theorem execRfinRmsb_keeps {s0 : State} {x : SlotRef} {s : State} (h : Keeps s0 s) :
    KeepsOut s0 (execRfinRmsb x s) := by
  unfold execRfinRmsb
  try dsimp only
  repeat' first
    | (with_reducible assumption) | (with_reducible intro _) | (with_reducible exact keepsOut_fault)
    | (with_reducible exact keepsOut_refused) | (with_reducible apply keepsOut_next)
    | (with_reducible apply rowSlot_keeps) | split | (with_reducible apply keeps_upd)

theorem execRfinSample_keeps {s0 : State} {x : SlotRef} {s : State} (h : Keeps s0 s) :
    KeepsOut s0 (execRfinSample x s) := by
  unfold execRfinSample
  try dsimp only
  repeat' first
    | (with_reducible assumption) | (with_reducible intro _) | (with_reducible exact keepsOut_fault)
    | (with_reducible exact keepsOut_refused) | (with_reducible apply keepsOut_next)
    | (with_reducible apply rowSlot_keeps) | split | (with_reducible apply keeps_upd)

theorem execRfinPick_keeps {s0 : State} {x : SlotRef} {s : State} (h : Keeps s0 s) :
    KeepsOut s0 (execRfinPick x s) := by
  unfold execRfinPick
  try dsimp only
  repeat' first
    | (with_reducible assumption) | (with_reducible intro _) | (with_reducible exact keepsOut_fault)
    | (with_reducible exact keepsOut_refused) | (with_reducible apply keepsOut_next)
    | (with_reducible apply rowSlot_keeps) | split | (with_reducible apply keeps_upd)

theorem execRsave_keeps {s0 : State} {x : SlotRef} {s : State} (h : Keeps s0 s) :
    KeepsOut s0 (execRsave x s) := by
  unfold execRsave
  try dsimp only
  repeat' first
    | (with_reducible assumption) | (with_reducible intro _) | (with_reducible exact keepsOut_fault)
    | (with_reducible exact keepsOut_refused) | (with_reducible apply keepsOut_next)
    | (with_reducible apply rowSlot_keeps) | split | (with_reducible apply keeps_upd)

theorem execRload_keeps {s0 : State} {x : SlotRef} {s : State} (h : Keeps s0 s) :
    KeepsOut s0 (execRload x s) := by
  unfold execRload
  try dsimp only
  repeat' first
    | (with_reducible assumption) | (with_reducible intro _) | (with_reducible exact keepsOut_fault)
    | (with_reducible exact keepsOut_refused) | (with_reducible apply keepsOut_next)
    | (with_reducible apply rowSlot_keeps) | split | (with_reducible apply keeps_upd)

theorem execRchainSend_keeps {s0 : State} {x : SlotRef} {s : State} (h : Keeps s0 s) :
    KeepsOut s0 (execRchainSend x s) := by
  unfold execRchainSend
  try dsimp only
  repeat' first
    | (with_reducible assumption) | (with_reducible intro _) | (with_reducible exact keepsOut_fault)
    | (with_reducible exact keepsOut_refused) | (with_reducible apply keepsOut_next)
    | (with_reducible apply rowSlot_keeps) | split | (with_reducible apply keeps_upd)

theorem execRchainRecv_keeps {s0 : State} {x : SlotRef} {s : State} (h : Keeps s0 s) :
    KeepsOut s0 (execRchainRecv x s) := by
  unfold execRchainRecv
  try dsimp only
  repeat' first
    | (with_reducible assumption) | (with_reducible intro _) | (with_reducible exact keepsOut_fault)
    | (with_reducible exact keepsOut_refused) | (with_reducible apply keepsOut_next)
    | (with_reducible apply rowSlot_keeps) | split | (with_reducible apply keeps_upd)

end Sys2Proof.Machine
end

