-- ==== Sys2Proof/Laws/KeepPanels.lean ====
section
/-! SUPPORT. The operations of Machine/Panels.lean keep the queue and the canonical form of memory. -/

namespace Sys2Proof.Machine

open Sys2Proof.Config

theorem asIssued_keeps {s0 : State} {f : FifoSlot} {s : State} (h : Keeps s0 s) :
    Keeps s0 (asIssued f s) := by
  unfold asIssued
  try dsimp only
  repeat' first
    | (with_reducible assumption) | (with_reducible intro _) | split | (with_reducible apply keeps_upd)

theorem backTo_keeps {s0 : State} {s : State} {t : State} (h : Keeps s0 t) :
    Keeps s0 (backTo s t) := by
  unfold backTo
  try dsimp only
  repeat' first
    | (with_reducible assumption) | (with_reducible intro _) | split | (with_reducible apply keeps_upd)

theorem popFifo_keeps {s0 : State} {s : State} {q : Nat} (h : Keeps s0 s) :
    Keeps s0 (popFifo s q) := by
  unfold popFifo
  try dsimp only
  repeat' first
    | (with_reducible assumption) | (with_reducible intro _) | (with_reducible apply modPanel_keeps) | split
    | (with_reducible apply keeps_upd)

theorem slotAct_keeps {s0 : State} {p : Package} {f : FifoSlot} {q : Nat} {s : State} (h : Keeps s0 s) :
    KeepsOut s0 (slotAct p f q s) := by
  unfold slotAct
  try dsimp only
  repeat' first
    | (with_reducible assumption) | (with_reducible intro _) | (with_reducible exact keepsOut_fault)
    | (with_reducible exact keepsOut_refused) | (with_reducible apply keepsOut_next)
    | (with_reducible apply prodOn_keeps) | (with_reducible apply foldOn_keeps)
    | (with_reducible apply placeChain_keeps) | (with_reducible apply rowOn_keeps)
    | (with_reducible apply copyOn_keeps) | (with_reducible apply spoolDo_keeps)
    | (with_reducible apply applyOn_keeps) | split | (with_reducible apply keeps_upd)

theorem slotRun_keeps {s0 : State} {p : Package} {f : FifoSlot} {q : Nat} {s : State} (h : Keeps s0 s) :
    KeepsOut s0 (slotRun p f q s) := by
  unfold slotRun
  try dsimp only
  repeat' first
    | (with_reducible assumption) | (with_reducible intro _) | (with_reducible exact keepsOut_fault)
    | (with_reducible exact keepsOut_refused) | (with_reducible apply keepsOut_next)
    | (with_reducible apply outThen_keeps) | (with_reducible apply popFifo_keeps)
    | (with_reducible apply slotAct_keeps) | (with_reducible apply asIssued_keeps)
    | (with_reducible apply backTo_keeps) | (with_reducible apply tagHeld_keeps)
    | (with_reducible apply foldl_keeps) | split | exact id | (with_reducible apply keeps_upd)

theorem drainFifos_keeps {s0 : State} {p : Package} : ∀ {n : Nat} {s : State}, Keeps s0 s → KeepsOut s0 (drainFifos p n s)
  | 0, _, h => keepsOut_next h
  | n + 1, s, h => by
    unfold drainFifos
    split
    · exact keepsOut_next h
    · split
      · exact keepsOut_next h
      · exact outThen_keeps (slotRun_keeps h) (fun _ ht => drainFifos_keeps (n := n) ht)

theorem letGo_keeps {s0 : State} {p : Package} {s : State} (h : Keeps s0 s) :
    KeepsOut s0 (letGo p s) := by
  unfold letGo
  try dsimp only
  repeat' first
    | (with_reducible assumption) | (with_reducible intro _) | (with_reducible exact keepsOut_fault)
    | (with_reducible exact keepsOut_refused) | (with_reducible apply keepsOut_next)
    | (with_reducible apply drainFifos_keeps) | split | (with_reducible apply keeps_upd)

theorem execHeadEntryArrival_keeps {s0 : State} {p : Nat} {phys : Nat} {s : State} (h : Keeps s0 s) :
    KeepsOut s0 (execHeadEntryArrival p phys s) := by
  unfold execHeadEntryArrival
  try dsimp only
  repeat' first
    | (with_reducible assumption) | (with_reducible intro _) | (with_reducible exact keepsOut_fault)
    | (with_reducible exact keepsOut_refused) | (with_reducible apply keepsOut_next)
    | (with_reducible apply whenRunning_keeps) | (with_reducible apply keepsOut_next)
    | (with_reducible apply letGo_keeps) | (with_reducible apply traceAt_keeps)
    | (with_reducible apply setFlag_keeps) | (with_reducible apply modPanel_keeps)
    | (with_reducible apply noEvent_keeps) | split | (with_reducible apply keeps_upd)

theorem execChainComplete_keeps {s0 : State} {p : Nat} {s : State} (h : Keeps s0 s) :
    KeepsOut s0 (execChainComplete p s) := by
  unfold execChainComplete
  try dsimp only
  repeat' first
    | (with_reducible assumption) | (with_reducible intro _) | (with_reducible exact keepsOut_fault)
    | (with_reducible exact keepsOut_refused) | (with_reducible apply keepsOut_next)
    | (with_reducible apply keepsOut_next) | (with_reducible apply noEvent_keeps)
    | (with_reducible apply letGo_keeps) | (with_reducible apply traceAt_keeps)
    | (with_reducible apply modPanel_keeps) | split | (with_reducible apply keeps_upd)

theorem execSpill_keeps {s0 : State} {p : Nat} {phys : Nat} {s : State} (h : Keeps s0 s) :
    KeepsOut s0 (execSpill p phys s) := by
  unfold execSpill
  try dsimp only
  repeat' first
    | (with_reducible assumption) | (with_reducible intro _) | (with_reducible exact keepsOut_fault)
    | (with_reducible exact keepsOut_refused) | (with_reducible apply keepsOut_next)
    | (with_reducible apply whenRunning_keeps) | (with_reducible apply keepsOut_next)
    | (with_reducible apply noEvent_keeps) | (with_reducible apply spillBottom_keeps)
    | (with_reducible apply modSpoolStat_keeps) | (with_reducible apply letGo_keeps)
    | (with_reducible apply traceAt_keeps) | (with_reducible apply afterMove_keeps) | split
    | (with_reducible apply keeps_upd)

theorem execSpoolReturnDone_keeps {s0 : State} {p : Nat} {phys : Nat} {s : State} (h : Keeps s0 s) :
    KeepsOut s0 (execSpoolReturnDone p phys s) := by
  unfold execSpoolReturnDone
  try dsimp only
  repeat' first
    | (with_reducible assumption) | (with_reducible intro _) | (with_reducible exact keepsOut_fault)
    | (with_reducible exact keepsOut_refused) | (with_reducible apply keepsOut_next)
    | (with_reducible apply whenRunning_keeps) | (with_reducible apply keepsOut_next)
    | (with_reducible apply returnTop_keeps) | (with_reducible apply modSpoolStat_keeps)
    | (with_reducible apply letGo_keeps) | (with_reducible apply traceAt_keeps)
    | (with_reducible apply afterMove_keeps) | (with_reducible apply noEvent_keeps) | split
    | (with_reducible apply keeps_upd)

end Sys2Proof.Machine
end

