-- ==== Sys2Proof/Laws/KeepReads.lean ====
section
/-! SUPPORT. The operations of Machine/Reads.lean keep the queue and the canonical form of memory. -/

namespace Sys2Proof.Machine

open Sys2Proof.Config

theorem readEvents_keeps {s0 : State} {s : State} {m : Nat} {b : Mailbox} (h : Keeps s0 s) :
    Keeps s0 (readEvents s m b) := by
  unfold readEvents
  try dsimp only
  repeat' first
    | (with_reducible assumption) | (with_reducible intro _) | (with_reducible apply replyOk_keeps) | split
    | (with_reducible apply keeps_upd)

theorem execEventRead_keeps {s0 : State} {m : Nat} {s : State} (h : Keeps s0 s) :
    KeepsOut s0 (execEventRead m s) := by
  unfold execEventRead
  try dsimp only
  repeat' first
    | (with_reducible assumption) | (with_reducible intro _) | (with_reducible exact keepsOut_fault)
    | (with_reducible exact keepsOut_refused) | (with_reducible apply keepsOut_next)
    | (with_reducible apply serve_keeps) | (with_reducible apply readEvents_keeps) | split
    | (with_reducible apply keeps_upd)

theorem execMarkRequest_keeps {s0 : State} {m : Nat} {s : State} (h : Keeps s0 s) :
    KeepsOut s0 (execMarkRequest m s) := by
  unfold execMarkRequest
  try dsimp only
  repeat' first
    | (with_reducible assumption) | (with_reducible intro _) | (with_reducible exact keepsOut_fault)
    | (with_reducible exact keepsOut_refused) | (with_reducible apply keepsOut_next)
    | (with_reducible apply serve_keeps) | (with_reducible apply replyOk_keeps)
    | (with_reducible apply injectMark_keeps) | split | (with_reducible apply keeps_upd)

theorem readCounters_keeps {s0 : State} {s : State} {m : Nat} {b : Mailbox} (h : Keeps s0 s) :
    Keeps s0 (readCounters s m b) := by
  unfold readCounters
  try dsimp only
  repeat' first
    | (with_reducible assumption) | (with_reducible intro _) | (with_reducible apply refuse_keeps)
    | (with_reducible apply replyOk_keeps) | (with_reducible apply waitAt_keeps) | split
    | (with_reducible apply keeps_upd)

theorem execCounterRead_keeps {s0 : State} {m : Nat} {s : State} (h : Keeps s0 s) :
    KeepsOut s0 (execCounterRead m s) := by
  unfold execCounterRead
  try dsimp only
  repeat' first
    | (with_reducible assumption) | (with_reducible intro _) | (with_reducible exact keepsOut_fault)
    | (with_reducible exact keepsOut_refused) | (with_reducible apply keepsOut_next)
    | (with_reducible apply serve_keeps) | (with_reducible apply readCounters_keeps) | split
    | (with_reducible apply keeps_upd)

theorem execMarkLatch_keeps {s0 : State} {mark : Nat} {cls : Nat} {unit : Nat} {s : State} (h : Keeps s0 s) :
    KeepsOut s0 (execMarkLatch mark cls unit s) := by
  unfold execMarkLatch
  try dsimp only
  repeat' first
    | (with_reducible assumption) | (with_reducible intro _) | (with_reducible exact keepsOut_fault)
    | (with_reducible exact keepsOut_refused) | (with_reducible apply keepsOut_next)
    | (with_reducible apply keepsOut_next) | (with_reducible apply noEvent_keeps)
    | (with_reducible apply gatedTime_keeps) | (with_reducible apply latchBlock_keeps)
    | (with_reducible apply releaseAt_keeps) | split | (with_reducible apply keeps_upd)

theorem readReport_keeps {s0 : State} {s : State} {m : Nat} {b : Mailbox} (h : Keeps s0 s) :
    Keeps s0 (readReport s m b) := by
  unfold readReport
  try dsimp only
  repeat' first
    | (with_reducible assumption) | (with_reducible intro _) | (with_reducible apply replyOk_keeps) | split
    | (with_reducible apply keeps_upd)

theorem execFrayReportRead_keeps {s0 : State} {m : Nat} {s : State} (h : Keeps s0 s) :
    KeepsOut s0 (execFrayReportRead m s) := by
  unfold execFrayReportRead
  try dsimp only
  repeat' first
    | (with_reducible assumption) | (with_reducible intro _) | (with_reducible exact keepsOut_fault)
    | (with_reducible exact keepsOut_refused) | (with_reducible apply keepsOut_next)
    | (with_reducible apply serve_keeps) | (with_reducible apply readReport_keeps) | split
    | (with_reducible apply keeps_upd)

theorem readVerdicts_keeps {s0 : State} {s : State} {m : Nat} {b : Mailbox} (h : Keeps s0 s) :
    Keeps s0 (readVerdicts s m b) := by
  unfold readVerdicts
  try dsimp only
  repeat' first
    | (with_reducible assumption) | (with_reducible intro _) | (with_reducible apply replyOk_keeps) | split
    | (with_reducible apply keeps_upd)

theorem execVerdictRead_keeps {s0 : State} {m : Nat} {s : State} (h : Keeps s0 s) :
    KeepsOut s0 (execVerdictRead m s) := by
  unfold execVerdictRead
  try dsimp only
  repeat' first
    | (with_reducible assumption) | (with_reducible intro _) | (with_reducible exact keepsOut_fault)
    | (with_reducible exact keepsOut_refused) | (with_reducible apply keepsOut_next)
    | (with_reducible apply serve_keeps) | (with_reducible apply readVerdicts_keeps) | split
    | (with_reducible apply keeps_upd)

theorem readDrains_keeps {s0 : State} {s : State} {m : Nat} {b : Mailbox} (h : Keeps s0 s) :
    Keeps s0 (readDrains s m b) := by
  unfold readDrains
  try dsimp only
  repeat' first
    | (with_reducible assumption) | (with_reducible intro _) | (with_reducible apply replyOk_keeps) | split
    | (with_reducible apply keeps_upd)

theorem execDrainRecordRead_keeps {s0 : State} {m : Nat} {s : State} (h : Keeps s0 s) :
    KeepsOut s0 (execDrainRecordRead m s) := by
  unfold execDrainRecordRead
  try dsimp only
  repeat' first
    | (with_reducible assumption) | (with_reducible intro _) | (with_reducible exact keepsOut_fault)
    | (with_reducible exact keepsOut_refused) | (with_reducible apply keepsOut_next)
    | (with_reducible apply serve_keeps) | (with_reducible apply readDrains_keeps) | split
    | (with_reducible apply keeps_upd)

theorem clearIf_keeps {s0 : State} {s : State} {mask : Nat} {c : Cause} (h : Keeps s0 s) :
    Keeps s0 (clearIf s mask c) := by
  unfold clearIf
  try dsimp only
  repeat' first
    | (with_reducible assumption) | (with_reducible intro _) | (with_reducible apply clearCause_keeps) | split
    | (with_reducible apply keeps_upd)

theorem readCauses_keeps {s0 : State} {s : State} {m : Nat} {b : Mailbox} (h : Keeps s0 s) :
    Keeps s0 (readCauses s m b) := by
  unfold readCauses
  try dsimp only
  repeat' first
    | (with_reducible assumption) | (with_reducible intro _) | (with_reducible apply clearIf_keeps)
    | (with_reducible apply replyOk_keeps) | (with_reducible apply foldl_keeps) | split
    | (with_reducible apply keeps_upd)

theorem execAlertCauses_keeps {s0 : State} {m : Nat} {s : State} (h : Keeps s0 s) :
    KeepsOut s0 (execAlertCauses m s) := by
  unfold execAlertCauses
  try dsimp only
  repeat' first
    | (with_reducible assumption) | (with_reducible intro _) | (with_reducible exact keepsOut_fault)
    | (with_reducible exact keepsOut_refused) | (with_reducible apply keepsOut_next)
    | (with_reducible apply serve_keeps) | (with_reducible apply readCauses_keeps) | split
    | (with_reducible apply keeps_upd)

theorem watchQueue_keeps {s0 : State} {s : State} {sid : Nat} {mask : Nat} {q : Nat} (h : Keeps s0 s) :
    Keeps s0 (watchQueue s sid mask q) := by
  unfold watchQueue
  try dsimp only
  repeat' first
    | (with_reducible assumption) | (with_reducible intro _) | (with_reducible apply pushNote_keeps)
    | (with_reducible apply setNoteQueue_keeps) | (with_reducible apply foldl_keeps) | split
    | (with_reducible apply keeps_upd)

theorem watchNotes_keeps {s0 : State} {s : State} {m : Nat} {b : Mailbox} (h : Keeps s0 s) :
    Keeps s0 (watchNotes s m b) := by
  unfold watchNotes
  try dsimp only
  repeat' first
    | (with_reducible assumption) | (with_reducible intro _) | (with_reducible apply refuse_keeps)
    | (with_reducible apply replyOk_keeps) | (with_reducible apply watchQueue_keeps)
    | (with_reducible apply foldl_keeps) | split | (with_reducible apply keeps_upd)

theorem execNoteWatch_keeps {s0 : State} {m : Nat} {s : State} (h : Keeps s0 s) :
    KeepsOut s0 (execNoteWatch m s) := by
  unfold execNoteWatch
  try dsimp only
  repeat' first
    | (with_reducible assumption) | (with_reducible intro _) | (with_reducible exact keepsOut_fault)
    | (with_reducible exact keepsOut_refused) | (with_reducible apply keepsOut_next)
    | (with_reducible apply serve_keeps) | (with_reducible apply watchNotes_keeps) | split
    | (with_reducible apply keeps_upd)

theorem readNotes_keeps {s0 : State} {s : State} {m : Nat} {b : Mailbox} (h : Keeps s0 s) :
    Keeps s0 (readNotes s m b) := by
  unfold readNotes
  try dsimp only
  repeat' first
    | (with_reducible assumption) | (with_reducible intro _) | (with_reducible apply refuse_keeps)
    | (with_reducible apply replyOk_keeps) | (with_reducible apply setNoteQueue_keeps) | split
    | (with_reducible apply keeps_upd)

theorem execNoteRead_keeps {s0 : State} {m : Nat} {s : State} (h : Keeps s0 s) :
    KeepsOut s0 (execNoteRead m s) := by
  unfold execNoteRead
  try dsimp only
  repeat' first
    | (with_reducible assumption) | (with_reducible intro _) | (with_reducible exact keepsOut_fault)
    | (with_reducible exact keepsOut_refused) | (with_reducible apply keepsOut_next)
    | (with_reducible apply serve_keeps) | (with_reducible apply readNotes_keeps) | split
    | (with_reducible apply keeps_upd)

theorem readTrace_keeps {s0 : State} {s : State} {m : Nat} {b : Mailbox} (h : Keeps s0 s) :
    Keeps s0 (readTrace s m b) := by
  unfold readTrace
  try dsimp only
  repeat' first
    | (with_reducible assumption) | (with_reducible intro _) | (with_reducible apply refuse_keeps)
    | (with_reducible apply replyOk_keeps) | split | (with_reducible apply keeps_upd)

theorem execTraceRead_keeps {s0 : State} {m : Nat} {s : State} (h : Keeps s0 s) :
    KeepsOut s0 (execTraceRead m s) := by
  unfold execTraceRead
  try dsimp only
  repeat' first
    | (with_reducible assumption) | (with_reducible intro _) | (with_reducible exact keepsOut_fault)
    | (with_reducible exact keepsOut_refused) | (with_reducible apply keepsOut_next)
    | (with_reducible apply serve_keeps) | (with_reducible apply readTrace_keeps) | split
    | (with_reducible apply keeps_upd)

end Sys2Proof.Machine
end

