-- ==== Sys2Proof/Laws/KeepUpkeep.lean ====
section
/-! SUPPORT. The operations of Machine/Upkeep.lean keep the queue and the canonical form of memory. -/

namespace Sys2Proof.Machine

open Sys2Proof.Config

theorem addRepair_keeps {s0 : State} {s : State} {l : Nat} (h : Keeps s0 s) :
    Keeps s0 (addRepair s l) := by
  unfold addRepair
  try dsimp only
  repeat' first
    | (with_reducible assumption) | (with_reducible intro _) | (with_reducible apply raiseEv_keeps) | split
    | (with_reducible apply keeps_upd)

theorem scrubHit_keeps {s0 : State} {s : State} {k : Nat} {l : Nat} (h : Keeps s0 s) :
    Keeps s0 (scrubHit s k l) := by
  unfold scrubHit
  try dsimp only
  repeat' first
    | (with_reducible assumption) | (with_reducible intro _) | (with_reducible apply modMemUnit_keeps)
    | (with_reducible apply addRepair_keeps) | split | (with_reducible apply keeps_upd)

theorem scrubBack_keeps {s0 : State} {s : State} {k : Nat} {l : Nat} {overwritten : Bool} {bs : List Byte} (h : Keeps s0 s) :
    Keeps s0 (scrubBack s k l overwritten bs) := by
  unfold scrubBack
  split
  · exact h
  · exact scrubHit_keeps (keeps_mem h (memPut_wf _ _))

theorem scrubLine_keeps {s0 : State} {s : State} {k : Nat} {l : Nat} {overwritten : Bool} (h : Keeps s0 s) :
    Keeps s0 (scrubLine s k l overwritten) := by
  unfold scrubLine
  try dsimp only
  repeat' first
    | (with_reducible assumption) | (with_reducible intro _) | (with_reducible apply uncorrectable_keeps)
    | (with_reducible apply scrubBack_keeps) | (with_reducible apply countCorrected_keeps) | split
    | (with_reducible apply keeps_upd)

theorem execScrubRead_keeps {s0 : State} {bolt : Bool} {unit : Nat} {overwritten : Bool} {s : State} (h : Keeps s0 s) :
    KeepsOut s0 (execScrubRead bolt unit overwritten s) := by
  unfold execScrubRead
  try dsimp only
  repeat' first
    | (with_reducible assumption) | (with_reducible intro _) | (with_reducible exact keepsOut_fault)
    | (with_reducible exact keepsOut_refused) | (with_reducible apply keepsOut_next)
    | (with_reducible apply keepsOut_next) | (with_reducible apply modMemUnit_keeps)
    | (with_reducible apply scrubLine_keeps) | (with_reducible apply noEvent_keeps) | split
    | (with_reducible apply keeps_upd)

theorem execMemCeRate_keeps {s0 : State} {bolt : Bool} {unit : Nat} {s : State} (h : Keeps s0 s) :
    KeepsOut s0 (execMemCeRate bolt unit s) := by
  unfold execMemCeRate
  try dsimp only
  repeat' first
    | (with_reducible assumption) | (with_reducible intro _) | (with_reducible exact keepsOut_fault)
    | (with_reducible exact keepsOut_refused) | (with_reducible apply keepsOut_next)
    | (with_reducible apply keepsOut_next) | (with_reducible apply setCause_keeps)
    | (with_reducible apply raiseEv_keeps) | (with_reducible apply modMemUnit_keeps)
    | (with_reducible apply noEvent_keeps) | split | (with_reducible apply keeps_upd)

theorem execLpddrTracking_keeps {s0 : State} {channel : Nat} {s : State} (h : Keeps s0 s) :
    KeepsOut s0 (execLpddrTracking channel s) := by
  unfold execLpddrTracking
  try dsimp only
  repeat' first
    | (with_reducible assumption) | (with_reducible intro _) | (with_reducible exact keepsOut_fault)
    | (with_reducible exact keepsOut_refused) | (with_reducible apply keepsOut_next)
    | (with_reducible apply keepsOut_next) | (with_reducible apply modMemUnit_keeps)
    | (with_reducible apply noEvent_keeps) | split | (with_reducible apply keeps_upd)

theorem clearMemory_keeps {s0 : State} {s : State} (h : Keeps s0 s) :
    Keeps s0 (clearMemory s) := by
  unfold clearMemory
  exact keeps_mem h (memKeep_wf _)

theorem readBack_keeps {s0 : State} {s : State} {nonzero : Bool} (h : Keeps s0 s) :
    Keeps s0 (readBack s nonzero) := by
  unfold readBack
  try dsimp only
  repeat' first
    | (with_reducible assumption) | (with_reducible intro _) | (with_reducible apply makeSuspect_keeps) | split
    | (with_reducible apply keeps_upd)

theorem afterClear_keeps {s0 : State} {s : State} {nonzero : Bool} {w : Work} (h : Keeps s0 s) :
    Keeps s0 (afterClear s nonzero w) := by
  unfold afterClear
  try dsimp only
  repeat' first
    | (with_reducible assumption) | (with_reducible intro _) | (with_reducible apply clearMemory_keeps)
    | (with_reducible apply readBack_keeps) | split | (with_reducible apply keeps_upd)

theorem execClearingDone_keeps {s0 : State} {nonzero : Bool} {s : State} (h : Keeps s0 s) :
    KeepsOut s0 (execClearingDone nonzero s) := by
  unfold execClearingDone
  try dsimp only
  repeat' first
    | (with_reducible assumption) | (with_reducible intro _) | (with_reducible exact keepsOut_fault)
    | (with_reducible exact keepsOut_refused) | (with_reducible apply keepsOut_next)
    | (with_reducible apply keepsOut_next) | (with_reducible apply afterClear_keeps)
    | (with_reducible apply noEvent_keeps) | split | (with_reducible apply keeps_upd)

theorem writeDrain_keeps {s0 : State} {s : State} (h : Keeps s0 s) :
    Keeps s0 (writeDrain s) := by
  unfold writeDrain
  try dsimp only
  repeat' first
    | (with_reducible assumption) | (with_reducible intro _) | split | (with_reducible apply keeps_upd)

theorem marchReads_keeps {s0 : State} {s : State} (h : Keeps s0 s) :
    Keeps s0 (marchReads s) := by
  unfold marchReads
  try dsimp only
  repeat' first
    | (with_reducible assumption) | (with_reducible intro _) | (with_reducible apply readLine_keeps)
    | (with_reducible apply foldl_keeps) | split | (refine foldl_snd_keeps ?_ ?_)
    | (with_reducible apply keeps_upd)

theorem afterScan_keeps {s0 : State} {s : State} {full : Bool} {ok : Bool} (h : Keeps s0 s) :
    Keeps s0 (afterScan s full ok) := by
  unfold afterScan
  try dsimp only
  repeat' first
    | (with_reducible assumption) | (with_reducible intro _) | (with_reducible apply boltLost_keeps)
    | (with_reducible apply marchReads_keeps) | (with_reducible apply goState_keeps) | split
    | (with_reducible apply keeps_upd)

theorem scanCauses_keeps {s0 : State} {s : State} {fails : List Nat} {bad : List Nat} (h : Keeps s0 s) :
    Keeps s0 (scanCauses s fails bad) := by
  unfold scanCauses
  try dsimp only
  repeat' first
    | (with_reducible assumption) | (with_reducible intro _) | (with_reducible apply makeSuspect_keeps) | split
    | (with_reducible apply keeps_upd)

theorem execScanDone_keeps {s0 : State} {r : ScanResult} {s : State} (h : Keeps s0 s) :
    KeepsOut s0 (execScanDone r s) := by
  unfold execScanDone
  try dsimp only
  repeat' first
    | (with_reducible assumption) | (with_reducible intro _) | (with_reducible exact keepsOut_fault)
    | (with_reducible exact keepsOut_refused) | (with_reducible apply keepsOut_next)
    | (with_reducible apply keepsOut_next) | (with_reducible apply noEvent_keeps)
    | (with_reducible apply raiseEv_keeps) | (with_reducible apply scanCauses_keeps)
    | (with_reducible apply afterScan_keeps) | (with_reducible apply drainIfDue_keeps)
    | (with_reducible apply writeDrain_keeps) | split | (with_reducible apply keeps_upd)

theorem signClear_keeps {s0 : State} {s : State} {kind : Nat} (h : Keeps s0 s) :
    Keeps s0 (signClear s kind) := by
  unfold signClear
  try dsimp only
  repeat' first
    | (with_reducible assumption) | (with_reducible intro _) | (with_reducible apply raiseEv_keeps) | split
    | (with_reducible apply keeps_upd)

theorem enterIdle_keeps {s0 : State} {s : State} {st : DevState} (h : Keeps s0 s) :
    Keeps s0 (enterIdle s st) := by
  unfold enterIdle
  try dsimp only
  repeat' first
    | (with_reducible assumption) | (with_reducible intro _) | (with_reducible apply drainIfDue_keeps)
    | (with_reducible apply goState_keeps) | split | (with_reducible apply keeps_upd)

theorem enterDrained_keeps {s0 : State} {s : State} (h : Keeps s0 s) :
    Keeps s0 (enterDrained s) := by
  unfold enterDrained
  try dsimp only
  repeat' first
    | (with_reducible assumption) | (with_reducible intro _) | (with_reducible apply goState_keeps) | split
    | (with_reducible apply keeps_upd)

theorem answerEnd_keeps {s0 : State} {s : State} (h : Keeps s0 s) :
    Keeps s0 (answerEnd s) := by
  unfold answerEnd
  try dsimp only
  repeat' first
    | (with_reducible assumption) | (with_reducible intro _) | (with_reducible apply releaseAt_keeps) | split
    | (with_reducible apply keeps_upd)

theorem execClearSigned_keeps {s0 : State} {s : State} (h : Keeps s0 s) :
    KeepsOut s0 (execClearSigned s) := by
  unfold execClearSigned
  try dsimp only
  repeat' first
    | (with_reducible assumption) | (with_reducible intro _) | (with_reducible exact keepsOut_fault)
    | (with_reducible exact keepsOut_refused) | (with_reducible apply keepsOut_next)
    | (with_reducible apply keepsOut_next) | (with_reducible apply signClear_keeps)
    | (with_reducible apply enterIdle_keeps) | (with_reducible apply answerEnd_keeps)
    | (with_reducible apply writeDrain_keeps) | (with_reducible apply enterDrained_keeps)
    | (with_reducible apply noEvent_keeps) | split | (with_reducible apply keeps_upd)

end Sys2Proof.Machine
end

