-- ==== Sys2Proof/Laws/KeepStartup.lean ====
section
/-! SUPPORT. The operations of Machine/Startup.lean keep the queue and the canonical form of memory. -/

namespace Sys2Proof.Machine

open Sys2Proof.Config

theorem modPins_keeps {s0 : State} {s : State} {f : Pins → Pins} (h : Keeps s0 s) :
    Keeps s0 (modPins s f) := by
  unfold modPins
  try dsimp only
  repeat' first
    | (with_reducible assumption) | (with_reducible intro _) | split | (with_reducible apply keeps_upd)

theorem setSt_keeps {s0 : State} {s : State} {st : DevState} (h : Keeps s0 s) :
    Keeps s0 (setSt s st) := by
  unfold setSt
  try dsimp only
  repeat' first
    | (with_reducible assumption) | (with_reducible intro _) | split | (with_reducible apply keeps_upd)

theorem imageEvents_keeps {s0 : State} {s : State} {k : Nat} (h : Keeps s0 s) :
    Keeps s0 (imageEvents s k) := by
  unfold imageEvents
  try dsimp only
  repeat' first
    | (with_reducible assumption) | (with_reducible intro _) | (with_reducible apply raiseEv_keeps) | split
    | (with_reducible apply keeps_upd)

theorem resetSetting_keeps {s0 : State} {s : State} {key : Nat} (h : Keeps s0 s) :
    Keeps s0 (resetSetting s key) := by
  unfold resetSetting
  try dsimp only
  repeat' first
    | (with_reducible assumption) | (with_reducible intro _) | (with_reducible apply raiseEv_keeps) | split
    | (with_reducible apply keeps_upd)

theorem readConfig_keeps {s0 : State} {s : State} {bad : List Nat} (h : Keeps s0 s) :
    Keeps s0 (readConfig s bad) := by
  unfold readConfig
  try dsimp only
  repeat' first
    | (with_reducible assumption) | (with_reducible intro _) | (with_reducible apply resetSetting_keeps)
    | (with_reducible apply foldl_keeps) | split | (with_reducible apply keeps_upd)

theorem gradeEvents_keeps {s0 : State} {s : State} (h : Keeps s0 s) :
    Keeps s0 (gradeEvents s) := by
  unfold gradeEvents
  try dsimp only
  repeat' first
    | (with_reducible assumption) | (with_reducible intro _) | (with_reducible apply raiseEv_keeps)
    | (with_reducible apply foldl_keeps) | split | (with_reducible apply keeps_upd)

theorem staleStart_keeps {s0 : State} {s : State} (h : Keeps s0 s) :
    Keeps s0 (staleStart s) := by
  unfold staleStart
  try dsimp only
  repeat' first
    | (with_reducible assumption) | (with_reducible intro _) | (with_reducible apply setCause_keeps)
    | (with_reducible apply raiseEv_keeps) | split | (with_reducible apply keeps_upd)

theorem runFirmware_keeps {s0 : State} {s : State} {k : Nat} {bad : List Nat} (h : Keeps s0 s) :
    Keeps s0 (runFirmware s k bad) := by
  unfold runFirmware
  try dsimp only
  repeat' first
    | (with_reducible assumption) | (with_reducible intro _) | (with_reducible apply imageEvents_keeps)
    | (with_reducible apply raiseEv_keeps) | (with_reducible apply staleStart_keeps)
    | (with_reducible apply gradeEvents_keeps) | (with_reducible apply readConfig_keeps) | split
    | (with_reducible apply keeps_upd)

theorem enterBoot_keeps {s0 : State} {s : State} (h : Keeps s0 s) :
    Keeps s0 (enterBoot s) := by
  unfold enterBoot
  try dsimp only
  repeat' first
    | (with_reducible assumption) | (with_reducible intro _) | (with_reducible apply setSt_keeps) | split
    | (with_reducible apply keeps_upd)

theorem tryBoot_keeps {s0 : State} {s : State} (h : Keeps s0 s) :
    Keeps s0 (tryBoot s) := by
  unfold tryBoot
  try dsimp only
  repeat' first
    | (with_reducible assumption) | (with_reducible intro _) | (with_reducible apply enterBoot_keeps) | split
    | (with_reducible apply keeps_upd)

theorem romVerify_keeps {s0 : State} {bad : List Nat} {s : State} (h : Keeps s0 s) :
    Keeps s0 (romVerify bad s) := by
  unfold romVerify
  try dsimp only
  repeat' first
    | (with_reducible assumption) | (with_reducible intro _) | (with_reducible apply runFirmware_keeps) | split
    | (with_reducible apply keeps_upd)

theorem execFirmwareVerify_keeps {s0 : State} {badConfig : List Nat} {s : State} (h : Keeps s0 s) :
    KeepsOut s0 (execFirmwareVerify badConfig s) := by
  unfold execFirmwareVerify
  try dsimp only
  repeat' first
    | (with_reducible assumption) | (with_reducible intro _) | (with_reducible exact keepsOut_fault)
    | (with_reducible exact keepsOut_refused) | (with_reducible apply keepsOut_next)
    | (with_reducible apply keepsOut_next) | (with_reducible apply tryBoot_keeps)
    | (with_reducible apply romVerify_keeps) | (with_reducible apply noEvent_keeps) | split
    | (with_reducible apply keeps_upd)

theorem takeRecovery_keeps {s0 : State} {s : State} {i : Image} (h : Keeps s0 s) :
    Keeps s0 (takeRecovery s i) := by
  unfold takeRecovery
  try dsimp only
  repeat' first
    | (with_reducible assumption) | (with_reducible intro _) | (with_reducible apply tryBoot_keeps)
    | (with_reducible apply runFirmware_keeps) | split | (with_reducible apply keeps_upd)

theorem execRecoveryFrame_keeps {s0 : State} {bs : List Byte} {crc : Nat} {s : State} (h : Keeps s0 s) :
    KeepsOut s0 (execRecoveryFrame bs crc s) := by
  unfold execRecoveryFrame
  try dsimp only
  repeat' first
    | (with_reducible assumption) | (with_reducible intro _) | (with_reducible exact keepsOut_fault)
    | (with_reducible exact keepsOut_refused) | (with_reducible apply keepsOut_next)
    | (with_reducible apply keepsOut_next) | (with_reducible apply answer_keeps)
    | (with_reducible apply takeRecovery_keeps) | (with_reducible apply noEvent_keeps) | split
    | (with_reducible apply keeps_upd)

theorem execPower72vPresent_keeps {s0 : State} {p : PowerUp} {s : State} (h : Keeps s0 s) :
    KeepsOut s0 (execPower72vPresent p s) := by
  unfold execPower72vPresent
  try dsimp only
  repeat' first
    | (with_reducible assumption) | (with_reducible intro _) | (with_reducible exact keepsOut_fault)
    | (with_reducible exact keepsOut_refused) | (with_reducible apply keepsOut_next)
    | (with_reducible apply keepsOut_next) | (with_reducible apply noEvent_keeps)
    | (with_reducible apply modPins_keeps) | (with_reducible apply setSt_keeps) | split
    | (with_reducible apply keeps_upd)

theorem restart_keeps {s0 : State} {s : State} {st : DevState} (h : Keeps s0 s) :
    Keeps s0 (restart s st) := by
  unfold restart
  try dsimp only
  repeat' first
    | (with_reducible assumption) | (with_reducible intro _) | (with_reducible apply setSt_keeps)
    | (with_reducible apply thimbleReset_keeps) | (with_reducible apply computeOff_keeps)
    | (with_reducible apply driveAlert_keeps) | (with_reducible apply modPins_keeps) | split
    | (with_reducible apply keeps_upd)

theorem execPwrEnAssert_keeps {s0 : State} {s : State} (h : Keeps s0 s) :
    KeepsOut s0 (execPwrEnAssert s) := by
  unfold execPwrEnAssert
  try dsimp only
  repeat' first
    | (with_reducible assumption) | (with_reducible intro _) | (with_reducible exact keepsOut_fault)
    | (with_reducible exact keepsOut_refused) | (with_reducible apply keepsOut_next)
    | (with_reducible apply tryBoot_keeps) | (with_reducible apply modPins_keeps) | split
    | (with_reducible apply keeps_upd)

theorem execPwrEnRemove_keeps {s0 : State} {s : State} (h : Keeps s0 s) :
    KeepsOut s0 (execPwrEnRemove s) := by
  unfold execPwrEnRemove
  try dsimp only
  repeat' first
    | (with_reducible assumption) | (with_reducible intro _) | (with_reducible exact keepsOut_fault)
    | (with_reducible exact keepsOut_refused) | (with_reducible apply keepsOut_next)
    | (with_reducible apply modPins_keeps) | (with_reducible apply clearCause_keeps)
    | (with_reducible apply restart_keeps) | split | (with_reducible apply keeps_upd)

theorem execResetNAssert_keeps {s0 : State} {p : ResetPulse} {s : State} (h : Keeps s0 s) :
    KeepsOut s0 (execResetNAssert p s) := by
  unfold execResetNAssert
  try dsimp only
  repeat' first
    | (with_reducible assumption) | (with_reducible intro _) | (with_reducible exact keepsOut_fault)
    | (with_reducible exact keepsOut_refused) | (with_reducible apply keepsOut_next)
    | (with_reducible apply modPins_keeps) | (with_reducible apply restart_keeps) | split
    | (with_reducible apply keeps_upd)

theorem execResetNRelease_keeps {s0 : State} {sbRxLow : Bool} {s : State} (h : Keeps s0 s) :
    KeepsOut s0 (execResetNRelease sbRxLow s) := by
  unfold execResetNRelease
  try dsimp only
  repeat' first
    | (with_reducible assumption) | (with_reducible intro _) | (with_reducible exact keepsOut_fault)
    | (with_reducible exact keepsOut_refused) | (with_reducible apply keepsOut_next)
    | (with_reducible apply keepsOut_next) | (with_reducible apply modPins_keeps)
    | (with_reducible apply setSt_keeps) | (with_reducible apply noEvent_keeps) | split
    | (with_reducible apply keeps_upd)

theorem execPwrGood_keeps {s0 : State} {slotId : Nat} {s : State} (h : Keeps s0 s) :
    KeepsOut s0 (execPwrGood slotId s) := by
  unfold execPwrGood
  try dsimp only
  repeat' first
    | (with_reducible assumption) | (with_reducible intro _) | (with_reducible exact keepsOut_fault)
    | (with_reducible exact keepsOut_refused) | (with_reducible apply keepsOut_next)
    | (with_reducible apply keepsOut_next) | (with_reducible apply modPins_keeps)
    | (with_reducible apply noEvent_keeps) | split | (with_reducible apply keeps_upd)

theorem applyRepair_keeps {s0 : State} {bolt : Bool} {s : State} {u : Nat} (h : Keeps s0 s) :
    Keeps s0 (applyRepair bolt s u) := by
  unfold applyRepair
  try dsimp only
  repeat' first
    | (with_reducible assumption) | (with_reducible intro _) | (with_reducible apply raiseEv_keeps)
    | (with_reducible apply modMemUnit_keeps) | split | (with_reducible apply keeps_upd)

theorem flagIf_keeps {s0 : State} {s : State} {b : Bool} (h : Keeps s0 s) :
    Keeps s0 (flagIf s b) := by
  unfold flagIf
  try dsimp only
  repeat' first
    | (with_reducible assumption) | (with_reducible intro _) | split | (with_reducible apply keeps_upd)

theorem freeSpares_keeps {s0 : State} {s : State} {bolt : Bool} (h : Keeps s0 s) :
    Keeps s0 (freeSpares s bolt) := by
  unfold freeSpares
  try dsimp only
  repeat' first
    | (with_reducible assumption) | (with_reducible intro _) | split | (with_reducible apply keeps_upd)

theorem repairChannels_keeps {s0 : State} : ∀ {l done : List Nat} {s : State}, Keeps s0 s → Keeps s0 (repairChannels l done s)
  | [], _, _, h => h
  | c :: cs, done, s, h => by
    unfold repairChannels
    split
    · exact repairChannels_keeps (l := cs) (applyRepair_keeps h)
    · exact repairChannels_keeps (l := cs) (flagIf_keeps h)

theorem execLpddrTraining_keeps {s0 : State} {failed : List Nat} {repaired : List Nat} {values : List Nat} {s : State} (h : Keeps s0 s) :
    KeepsOut s0 (execLpddrTraining failed repaired values s) := by
  unfold execLpddrTraining
  try dsimp only
  repeat' first
    | (with_reducible assumption) | (with_reducible intro _) | (with_reducible exact keepsOut_fault)
    | (with_reducible exact keepsOut_refused) | (with_reducible apply keepsOut_next)
    | (with_reducible apply keepsOut_next) | (with_reducible apply repairChannels_keeps)
    | (with_reducible apply freeSpares_keeps) | (with_reducible apply raiseEv_keeps)
    | (with_reducible apply modMemUnit_keeps) | (with_reducible apply trained_keeps)
    | (with_reducible apply flagIf_keeps) | (with_reducible apply modPins_keeps)
    | (with_reducible apply noEvent_keeps) | (with_reducible apply foldl_keeps) | split
    | (with_reducible apply keeps_upd)

theorem trainAll_keeps {s0 : State} {s : State} (h : Keeps s0 s) :
    Keeps s0 (trainAll s) := by
  unfold trainAll
  try dsimp only
  repeat' first
    | (with_reducible assumption) | (with_reducible intro _) | (with_reducible apply modPort_keeps)
    | (with_reducible apply foldl_keeps) | split | (with_reducible apply keeps_upd)

theorem repairRows_keeps {s0 : State} : ∀ {l used : List (Nat × Nat)} {s : State}, Keeps s0 s → Keeps s0 (repairRows l used s)
  | [], _, _, h => h
  | r :: rs, used, s, h => by
    unfold repairRows
    split
    · exact repairRows_keeps (l := rs) (applyRepair_keeps h)
    · exact repairRows_keeps (l := rs) (flagIf_keeps h)

theorem execBoltSelfTest_keeps {s0 : State} {slices : List Nat} {layers : List Nat} {s : State} (h : Keeps s0 s) :
    KeepsOut s0 (execBoltSelfTest slices layers s) := by
  unfold execBoltSelfTest
  try dsimp only
  repeat' first
    | (with_reducible assumption) | (with_reducible intro _) | (with_reducible exact keepsOut_fault)
    | (with_reducible exact keepsOut_refused) | (with_reducible apply keepsOut_next)
    | (with_reducible apply keepsOut_next) | (with_reducible apply hibernate_keeps)
    | (with_reducible apply repairRows_keeps) | (with_reducible apply freeSpares_keeps)
    | (with_reducible apply modPins_keeps) | (with_reducible apply trainAll_keeps)
    | (with_reducible apply noEvent_keeps) | split | (with_reducible apply keeps_upd)

theorem endBoot_keeps {s0 : State} {s : State} (h : Keeps s0 s) :
    Keeps s0 (endBoot s) := by
  unfold endBoot
  try dsimp only
  repeat' first
    | (with_reducible assumption) | (with_reducible intro _) | (with_reducible apply setSt_keeps)
    | (with_reducible apply startDrain_keeps) | (with_reducible apply enterIdle_keeps) | split
    | (with_reducible apply keeps_upd)

theorem execStartUpComplete_keeps {s0 : State} {s : State} (h : Keeps s0 s) :
    KeepsOut s0 (execStartUpComplete s) := by
  unfold execStartUpComplete
  try dsimp only
  repeat' first
    | (with_reducible assumption) | (with_reducible intro _) | (with_reducible exact keepsOut_fault)
    | (with_reducible exact keepsOut_refused) | (with_reducible apply keepsOut_next)
    | (with_reducible apply keepsOut_next) | (with_reducible apply endBoot_keeps)
    | (with_reducible apply hibernate_keeps) | (with_reducible apply enterIdle_keeps)
    | (with_reducible apply noEvent_keeps) | split | (with_reducible apply keeps_upd)

theorem execRailFault_keeps {s0 : State} {s : State} (h : Keeps s0 s) :
    KeepsOut s0 (execRailFault s) := by
  unfold execRailFault
  try dsimp only
  repeat' first
    | (with_reducible assumption) | (with_reducible intro _) | (with_reducible exact keepsOut_fault)
    | (with_reducible exact keepsOut_refused) | (with_reducible apply keepsOut_next)
    | (with_reducible apply keepsOut_next) | (with_reducible apply modPins_keeps)
    | (with_reducible apply restart_keeps) | (with_reducible apply setCause_keeps)
    | (with_reducible apply noEvent_keeps) | split | (with_reducible apply keeps_upd)

theorem inputLost_keeps {s0 : State} {s : State} {k : State → State} (hk : ∀ t, Keeps s0 t → Keeps s0 (k t))
    (h : Keeps s0 s) : KeepsOut s0 (inputLost s k) := by
  unfold inputLost
  split
  · exact keepsOut_next (hk _ (powerLost_keeps h))
  · exact keepsOut_next h

theorem execUndervoltage_keeps {s0 : State} {s : State} (h : Keeps s0 s) :
    KeepsOut s0 (execUndervoltage s) := by
  unfold execUndervoltage
  exact inputLost_keeps (fun _ ht => ht) h

theorem execOvervoltage_keeps {s0 : State} {s : State} (h : Keeps s0 s) :
    KeepsOut s0 (execOvervoltage s) := by
  unfold execOvervoltage
  exact inputLost_keeps (fun _ ht => ht) h

theorem execOvercurrent_keeps {s0 : State} {s : State} (h : Keeps s0 s) :
    KeepsOut s0 (execOvercurrent s) := by
  unfold execOvercurrent
  try dsimp only
  repeat' first
    | (with_reducible assumption) | (with_reducible intro _) | (with_reducible exact keepsOut_fault)
    | (with_reducible exact keepsOut_refused) | (with_reducible apply keepsOut_next)
    | (with_reducible apply inputLost_keeps) | (with_reducible apply modPins_keeps) | split
    | (with_reducible apply keeps_upd)

theorem execOvercurrentLatchRelease_keeps {s0 : State} {s : State} (h : Keeps s0 s) :
    KeepsOut s0 (execOvercurrentLatchRelease s) := by
  unfold execOvercurrentLatchRelease
  try dsimp only
  repeat' first
    | (with_reducible assumption) | (with_reducible intro _) | (with_reducible exact keepsOut_fault)
    | (with_reducible exact keepsOut_refused) | (with_reducible apply keepsOut_next)
    | (with_reducible apply keepsOut_next) | (with_reducible apply modPins_keeps)
    | (with_reducible apply noEvent_keeps) | split | (with_reducible apply keeps_upd)

theorem execPower72vRemoved_keeps {s0 : State} {s : State} (h : Keeps s0 s) :
    KeepsOut s0 (execPower72vRemoved s) := by
  unfold execPower72vRemoved
  exact inputLost_keeps (fun _ ht => ht) h

theorem execTrialTimeout_keeps {s0 : State} {s : State} (h : Keeps s0 s) :
    KeepsOut s0 (execTrialTimeout s) := by
  unfold execTrialTimeout
  try dsimp only
  repeat' first
    | (with_reducible assumption) | (with_reducible intro _) | (with_reducible exact keepsOut_fault)
    | (with_reducible exact keepsOut_refused) | (with_reducible apply keepsOut_next)
    | (with_reducible apply keepsOut_next) | (with_reducible apply restart_keeps)
    | (with_reducible apply noEvent_keeps) | split | (with_reducible apply keeps_upd)

theorem coresRestart_keeps {s0 : State} {s : State} (h : Keeps s0 s) :
    Keeps s0 (coresRestart s) := by
  unfold coresRestart
  try dsimp only
  repeat' first
    | (with_reducible assumption) | (with_reducible intro _) | (with_reducible apply romVerify_keeps)
    | (with_reducible apply coresReset_keeps) | (with_reducible apply modPins_keeps)
    | (with_reducible apply setSt_keeps) | (with_reducible apply computeOff_keeps)
    | (with_reducible apply tryBoot_keeps) | split | (with_reducible apply keeps_upd)

theorem execThimbleLockstep_keeps {s0 : State} {s : State} (h : Keeps s0 s) :
    KeepsOut s0 (execThimbleLockstep s) := by
  unfold execThimbleLockstep
  try dsimp only
  repeat' first
    | (with_reducible assumption) | (with_reducible intro _) | (with_reducible exact keepsOut_fault)
    | (with_reducible exact keepsOut_refused) | (with_reducible apply keepsOut_next)
    | (with_reducible apply keepsOut_next) | (with_reducible apply coresRestart_keeps)
    | (with_reducible apply sendPoison_keeps) | (with_reducible apply makeSuspect_keeps)
    | (with_reducible apply noEvent_keeps) | split | (with_reducible apply keeps_upd)

theorem tapDo_keeps {s0 : State} {s : State} {k : State → State} (hk : ∀ t, Keeps s0 t → Keeps s0 (k t))
    (h : Keeps s0 s) : KeepsOut s0 (tapDo s k) := by
  unfold tapDo
  apply keepsOut_next
  split
  · exact hk _ h
  · exact h

theorem execIdcode_keeps {s0 : State} {s : State} (h : Keeps s0 s) :
    KeepsOut s0 (execIdcode s) := by
  unfold execIdcode
  try dsimp only
  repeat' first
    | (with_reducible assumption) | (with_reducible intro _) | (with_reducible exact keepsOut_fault)
    | (with_reducible exact keepsOut_refused) | (with_reducible apply keepsOut_next)
    | (with_reducible apply tapDo_keeps) | (with_reducible apply modPins_keeps) | split
    | (with_reducible apply keeps_upd)

theorem execBypass_keeps {s0 : State} {s : State} (h : Keeps s0 s) :
    KeepsOut s0 (execBypass s) := by
  unfold execBypass
  try dsimp only
  repeat' first
    | (with_reducible assumption) | (with_reducible intro _) | (with_reducible exact keepsOut_fault)
    | (with_reducible exact keepsOut_refused) | (with_reducible apply keepsOut_next)
    | (with_reducible apply tapDo_keeps) | (with_reducible apply modPins_keeps) | split
    | (with_reducible apply keeps_upd)

theorem capturePins_keeps {s0 : State} {s : State} {f : Pins → Pins} (h : Keeps s0 s) :
    Keeps s0 (capturePins s f) := by
  unfold capturePins
  try dsimp only
  repeat' first
    | (with_reducible assumption) | (with_reducible intro _) | (with_reducible apply modPins_keeps) | split
    | (with_reducible apply keeps_upd)

theorem execSamplePreload_keeps {s0 : State} {bits : Nat} {s : State} (h : Keeps s0 s) :
    KeepsOut s0 (execSamplePreload bits s) := by
  unfold execSamplePreload
  try dsimp only
  repeat' first
    | (with_reducible assumption) | (with_reducible intro _) | (with_reducible exact keepsOut_fault)
    | (with_reducible exact keepsOut_refused) | (with_reducible apply keepsOut_next)
    | (with_reducible apply tapDo_keeps) | (with_reducible apply capturePins_keeps) | split
    | (with_reducible apply keeps_upd)

theorem execExtest_keeps {s0 : State} {bits : Nat} {s : State} (h : Keeps s0 s) :
    KeepsOut s0 (execExtest bits s) := by
  unfold execExtest
  try dsimp only
  repeat' first
    | (with_reducible assumption) | (with_reducible intro _) | (with_reducible exact keepsOut_fault)
    | (with_reducible exact keepsOut_refused) | (with_reducible apply keepsOut_next)
    | (with_reducible apply tapDo_keeps) | (with_reducible apply capturePins_keeps)
    | (with_reducible apply modPins_keeps) | split | (with_reducible apply keeps_upd)

end Sys2Proof.Machine
end

