-- ==== Sys2Proof/Laws/Sends.lean ====
section
/-! SUPPORT. What sending packets, a reply and a request's checks can change: one lemma for each. -/

namespace Sys2Proof.Machine

open Sys2Proof.Config

/-- From `s` to `t` only what sending packets changes: flows, port counters, and the key epoch of a session with its
event (R241, R256, R373). -/
def Sends (s t : State) : Prop :=
  t = { s with
    host := { s.host with ports := t.host.ports, flows := t.host.flows, sessions := t.host.sessions }
    mgmt := { s.mgmt with log := t.mgmt.log, dropped := t.mgmt.dropped, seqs := t.mgmt.seqs } }

theorem Sends.refl (s : State) : Sends s s := rfl

theorem Sends.trans {a b c : State} (h : Sends a b) (k : Sends b c) : Sends a c := by
  unfold Sends at *; rw [h] at k; exact k

theorem Sends.box {s t : State} (h : Sends s t) (m : Nat) : boxOf t m = boxOf s m := by
  rw [h]; rfl

theorem sendFrame_sends (s : State) (e : Nat) (f : Frame) : Sends s (sendFrame s e f) := rfl
theorem sendPkt_sends (s : State) (f : Nat) (v : Flow) (h : HemHdr) (bs : List Byte) (r : Option CloseReason) :
    Sends s (sendPkt s f v h bs r) := sendFrame_sends s _ _
theorem setFlow_sends (s : State) (f : Nat) (v : Flow) : Sends s (setFlow s f v) := rfl

theorem raiseEv_sends (s : State) (src : Nat) (c : Ev) (args : List Nat) : Sends s (raiseEv s src c args) := by
  unfold raiseEv pushLog Sends; dsimp only; split <;> rfl

theorem sendOn_sends (s : State) (f : Nat) (k : TxKind) (w : Send) : Sends s (sendOn s f k w) := by
  unfold sendOn; split
  · exact Sends.refl s
  · split
    · exact (setFlow_sends s f _).trans (sendPkt_sends _ _ _ _ _ _)
    · exact Sends.refl s

theorem nextEpoch_sends (s : State) (sid : Nat) : Sends s (nextEpoch s sid) := by
  unfold nextEpoch; split
  · exact Sends.refl s
  · split
    · exact Sends.trans (b := { s with host := { s.host with sessions := _ } }) rfl (raiseEv_sends _ _ _ _)
    · exact Sends.refl s

theorem sendKeyUpdate_sends (s : State) (sid : Nat) : Sends s (sendKeyUpdate s sid) := by
  unfold sendKeyUpdate; split
  · exact Sends.refl s
  · split
    · exact (sendOn_sends s _ _ _).trans (nextEpoch_sends _ _)
    · exact Sends.refl s

/-- Everything that sending one packet can change (R241, R373). -/
theorem hostSend_sends (s : State) (f : Nat) (k : TxKind) (w : Send) : Sends s (hostSend s f k w) := by
  unfold hostSend; split
  · exact Sends.refl s
  · dsimp only; split
    · exact (sendOn_sends s f k w).trans (sendKeyUpdate_sends _ _)
    · exact sendOn_sends s f k w

theorem sendReplyPkts_sends (m flow p : Nat) : ∀ (n off : Nat) (bs : List Byte) (s : State),
    Sends s (sendReplyPkts m flow p n off bs s)
  | 0, _, _, s => Sends.refl s
  | n + 1, _, _, s => (hostSend_sends s flow _ _).trans (sendReplyPkts_sends m flow p n _ _ _)

/-- Mailbox `b` with the reply to its request (R335, R336). -/
def repliedBox (b : Mailbox) (st : Status) (body : List Byte) : Mailbox :=
  { b with reply := memPut [] 0 (replyBytes b st body), sent := some (replyBytes b st body).length, rung := false
           waits := none }

/-- Everything that a reply can change: its mailbox, and what its packets change (R335). -/
theorem reply_sends (s : State) (m : Nat) (st : Status) (body : List Byte) (h : (boxOf s m).orphan = false) :
    Sends (setBox s m (repliedBox (boxOf s m) st body)) (reply s m st body) := by
  unfold reply
  dsimp only
  split
  · rename_i h'; rw [h] at h'; cases h'
  · split
    · exact Sends.refl _
    · split
      · exact Sends.refl _
      · exact sendReplyPkts_sends m _ _ _ _ _ _

@[simp] theorem boxOf_setBox (s : State) (m k : Nat) (v : Mailbox) :
    boxOf (setBox s m v) k = if m = k then v else boxOf s k := by simp [boxOf, setBox, tabGet_tabPut]

@[simp] theorem boxOf_takeRing (s : State) (m k : Nat) :
    boxOf (takeRing s m) k = if m = k then { boxOf s m with rung := false } else boxOf s k := by
  simp [boxOf, takeRing, modBox, setBox, tabGet_tabPut]

/-- A request that passes every check does what its message does (R338). -/
theorem serve_accepts {op : Nat} {l : State → Mailbox → Bool} {r : Mailbox → Bool} {st : State → Option Status}
    {act : State → Nat → Mailbox → State} {m : Nat} {s : State} (h1 : s.mgmt.rings.head? = some m)
    (h2 : (boxOf s m).rung = true) (h3 : reqOp (boxOf s m) = op) (h4 : reqLen (boxOf s m) ≤ 4080)
    (h5 : l s (boxOf s m) = true) (h6 : hdrRsv (boxOf s m) = false) (h7 : r (boxOf s m) = false)
    (h8 : stateFault s (boxOf s m) st = none) :
    serve op l r st act m s = .next (act (takeRing s m) m (boxOf s m)) := by
  simp [serve, h1, h2, h3, h4, h5, h6, h7, h8]

/-- A request that fails a check is refused with the status of the first that fails, and no detail (R337, R338). -/
theorem serve_refuses {op : Nat} {l : State → Mailbox → Bool} {r : Mailbox → Bool} {st : State → Option Status}
    {act : State → Nat → Mailbox → State} {m : Nat} {s : State} (h1 : s.mgmt.rings.head? = some m)
    (h2 : (boxOf s m).rung = true) (h3 : reqOp (boxOf s m) = op) {x : Status}
    (hx : (if (decide (reqLen (boxOf s m) ≤ 4080) && l s (boxOf s m)) = false then some Status.badLength
      else if hdrRsv (boxOf s m) || r (boxOf s m) then some .badReserved
      else stateFault s (boxOf s m) st) = some x) :
    serve op l r st act m s = .next (replyBad (takeRing s m) m x 0 0) := by
  unfold serve
  simp only [h1, h2, h3, and_self, if_true]
  congr 1
  split at hx
  · rename_i h; simp only [h, if_true]; cases hx; rfl
  · rename_i h
    split at hx
    · rename_i h'; simp only [h, h', if_true]; cases hx; rfl
    · rename_i h'; simp only [h, h', hx]; rfl

end Sys2Proof.Machine
end

