-- ==== Sys2Proof/Tests/Slice0.lean ====
section
/-! SUPPORT. Tests: ill-formed commands that the check refuses, single steps with results taken from the spec, and for
each statement a state and operands that meet its hypotheses. -/

namespace Sys2Proof.Tests

open Sys2Proof Sys2Proof.Machine Sys2Proof.Config Sys2Proof.Claims

/-! ### Terms for the tests -/

def nargs : NArgs :=
  { vd := 1, va := 2, vb := 3, vc := 4, pred := 0, pneg := false, bimm := false, sr := false, sub := 0, imm := 0#32 }
def hdr0 : FlitHdr := { type := 6, nak := false, crd := 0, seq := 0, ack := 0x7FF, corr := false }
/-- The frame of an empty packet from address 77 to the link-local address of E0. -/
def frame0 : FrameIn :=
  { len := 118, fill := 0, vid := none, mac := true, ip := linkLocal 0, src := 77, udp := 46310, udpLen := 56, version := 1 }
def pkt0 : Pkt :=
  { port := 0, frame := frame0, dstFlow := 5, psn := 0, srcFlow := 9, fenceW := false, fenceAll := false, ackReq := false, enc := false
    length := 0, offset := 0, step := 0, epoch := 0, rsvBits := [], ce := false, fec := 0, tag := [] }
def portFrame0 : PortFrame := { port := 0, frame := frame0 }
def head0 : Head :=
  { dstPort := 0, srcRank := 1, dstRank := 0, step := 0, desc := 0, phase := 0, micro := 0xFFFF, segment := 0, bytes := 64
    jobTag := 7 }
def poison0 : Poison := { step := 0, cause := 1, origin := 1, jobTag := 7 }
def vote0 : Vote := { step := 0, vote := 0, rank := 1, jobTag := 7 }
def ident0 : Ident :=
  { port := 0, slotId := 0, moduleId := 5, state := 1, member := 3, rank := 1, jobTag := 0, nonce := 11, peerNonce := 0
    pubkey := [], signature := [] }
def setup0 : Setup :=
  { port := 0, frame := frame0, ctrlFlow := 2, nonce := 3, ephemeral := [], chain := [], signature := [] }

/-! ### Well-formedness: an ill-formed term for each check -/

theorem test_wf_slot_pset : Instr.wellFormed (.prod ⟨1024, 0⟩) = false := by decide
theorem test_wf_slot_desc : Instr.wellFormed (.fold ⟨0, 16384⟩) = false := by decide
theorem test_wf_slot : Instr.wellFormed (.chain ⟨1023, 16383⟩) = true := by decide
theorem test_wf_mover : Instr.wellFormed (.copy ⟨8, 0, 0⟩) = false ∧ Instr.wellFormed (.spush ⟨7, 1024, 0⟩) = false ∧
    Instr.wellFormed (.note ⟨7, 0, 16384⟩) = false ∧ Instr.wellFormed (.note ⟨7, 0, 16383⟩) = true := by decide
theorem test_wf_queue : Instr.wellFormed (.moverCompletion 8 0) = false ∧ Instr.wellFormed (.syncLate 8 0) = false ∧
    Instr.wellFormed (.syncRelease 256 0) = false := by decide
theorem test_wf_stitch : Instr.wellFormed (.jump 0x100000 0) = false ∧ Instr.wellFormed (.jump 0 65536) = false ∧
    Instr.wellFormed (.loop 4 0 0) = false ∧ Instr.wellFormed (.setc 0 0x100000 0) = false ∧
    Instr.wellFormed (.halt 65536) = false ∧ Instr.wellFormed (.next 65536) = false ∧ Instr.wellFormed (.next 65535) = true := by
  decide
theorem test_wf_grade_point : Instr.wellFormed (.grade 4096) = false ∧ Instr.wellFormed (.stepOpen 4096 0) = false ∧
    Instr.wellFormed (.fence 4095) = true := by decide
theorem test_wf_mark : Instr.wellFormed (.markLatch 1 0 0) = false ∧ Instr.wellFormed (.markLatch 1 12 0) = false ∧
    Instr.wellFormed (.markLatch 1 11 0) = true := by decide
theorem test_wf_panel : Instr.wellFormed (.bankEmit 256) = false ∧ Instr.wellFormed (.sensorSkew 256) = false ∧
    Instr.wellFormed (.spill 256 0) = false := by decide
theorem test_wf_needle : needleOk 256 nargs = false ∧ needleOk 0 { nargs with vd := 16 } = false ∧
    needleOk 0 { nargs with va := 16 } = false ∧ needleOk 0 { nargs with vb := 16 } = false ∧
    needleOk 0 { nargs with vc := 16 } = false ∧ needleOk 0 { nargs with pred := 4 } = false ∧
    needleOk 0 { nargs with sub := 8 } = false ∧ needleOk 255 nargs = true := by decide
theorem test_wf_hub : Instr.wellFormed (.basteCaptureDone 16) = false ∧ Instr.wellFormed (.pinch 16) = false ∧
    Instr.wellFormed (.caseResolve 0 4 [] [] []) = false ∧ Instr.wellFormed (.fenceTimeout 72) = false := by decide
theorem test_wf_flit : flitOk 12 6 hdr0 = false ∧ flitOk 0 6 { hdr0 with crd := 32 } = false ∧
    flitOk 0 6 { hdr0 with seq := 2048 } = false ∧ flitOk 0 6 { hdr0 with ack := 2048 } = false ∧ flitOk 0 5 hdr0 = false ∧
    flitOk 11 6 hdr0 = true ∧ Instr.wellFormed (.reservedFlit 0 hdr0) = false ∧
    Instr.wellFormed (.reservedFlit 0 { hdr0 with type := 7 }) = true := by decide
theorem test_wf_data_flit : Instr.wellFormed (.dataFlit 0 hdr0 []) = false := by decide
theorem test_wf_port : Instr.wellFormed (.seamReplay 12) = false ∧ Instr.wellFormed (.linkTraining 0 ⟨5, false⟩ 0) = false ∧
    Instr.wellFormed (.linkTraining 0 ⟨4, false⟩ 0) = true ∧ Instr.wellFormed (.linkTraining 8 ⟨8, false⟩ 0) = false ∧
    Instr.wellFormed (.linkTraining 8 ⟨2, false⟩ 0) = true ∧ Instr.wellFormed (.linkTraining 8 ⟨2, true⟩ 0) = false := by decide
theorem test_wf_coll_fold : Instr.wellFormed (.collFold 16384 0 0) = false ∧ Instr.wellFormed (.collFold 0 65536 0) = false := by
  decide
theorem test_wf_packet : pktOk { pkt0 with port := 2 } = false ∧ pktOk { pkt0 with dstFlow := 2 ^ 18 } = false ∧
    pktOk { pkt0 with psn := 2 ^ 32 } = false ∧ pktOk { pkt0 with srcFlow := 2 ^ 18 } = false ∧
    pktOk { pkt0 with length := 8193 } = false ∧ pktOk { pkt0 with offset := 2 ^ 40 } = false ∧
    pktOk { pkt0 with step := 2 ^ 32 } = false ∧ pktOk { pkt0 with epoch := 2 ^ 16 } = false ∧ pktOk pkt0 = true := by decide
theorem test_wf_packet_body : Instr.wellFormed (.write pkt0 [0#8]) = false ∧
    Instr.wellFormed (.ready pkt0 (2 ^ 32)) = false ∧ Instr.wellFormed (.ctrl { pkt0 with length := 8 } 16 false false 0 []) = false ∧
    Instr.wellFormed (.ctrl { pkt0 with length := 8 } 0 false false 4096 []) = false ∧
    Instr.wellFormed (.ctrl pkt0 0 false false 0 []) = false := by decide
theorem test_wf_flow : Instr.wellFormed (.fenceW 262144 0) = false ∧ Instr.wellFormed (.ratePeriod 262144) = false := by decide
theorem test_wf_mailbox : Instr.wellFormed (.identify 16) = false ∧ Instr.wellFormed (.mbAbort 16) = false := by decide
theorem test_wf_host_port : Instr.wellFormed (.arp { portFrame0 with port := 2 } 0) = false ∧ Instr.wellFormed (.setupFinish { setup0 with port := 2 }) = false ∧
    Instr.wellFormed (.pfc portFrame0 256) = false := by decide
theorem test_wf_memory_unit : Instr.wellFormed (.scrubRead true 256 false) = false ∧
    Instr.wellFormed (.scrubRead false 128 false) = false ∧ Instr.wellFormed (.lpddrTracking 128) = false := by decide
theorem test_wf_power_pins : Instr.wellFormed (.power72vPresent ⟨64, false⟩) = false ∧ Instr.wellFormed (.resetNAssert ⟨10, 64⟩) = false ∧ Instr.wellFormed (.recoveryFrame [] 0) = false := by
  decide

/-! ### States for the witnesses -/

def tens : TensorDesc :=
  { fmt := .f32, tag := 1, axes := 0, caxis := 0, span := 0, kout := 0, sr := false, spooled := false, ext := [1, 0, 0, 0]
    elemBase := 16, scaleBase := 0, storeBase := 0, indexBase := 0, storeCap := 0, storeLen := 0, spoolBytes := 0, drop := 0
    mstride := 0 }
def row0 : RowDesc :=
  { tag := 1, base := 8190, rowLen := 4, sliceElems := 2, invN := 0x3F800000#32, eps := 0#32, ovfBase := 0, ovfLen := 0
    fwdBase := 0, count := 2, saveBase := 64, partner := 1 }
def plan0 : Plan :=
  { rank := 0, nranks := 2, jobId := 7, ports := [], ranks := [(0, false), (1, false)], groups := [[0, 1]], gates := [] }
/-- Descriptors by index: 0 F32, 1 L16, 2 L8, 3 spooled, 4 ROW, 5 PRODUCT, 6 FOLD, 7 BIND, 8 MOVE, 9 COLL, 10 INGEST,
11 EMIT, 12 NOTE, 13 REM8, 14 BIND for APPLY, 15 FOLD into L16, 16 a COLL of one rank, 17 the ROW of panel 1 that chains with 4. -/
def pkg0 : Package :=
  { lz7 := false, nmicro := 2, ntags := 16, seed := 0, digest := 0, rankDigest := 0, baseDigest := none
    psets := [⟨1, 0⟩]
    descs := [.tensor tens, .tensor { tens with fmt := .l16, elemBase := 20 }, .tensor { tens with fmt := .l8e, scaleBase := 32 },
              .tensor { tens with spooled := true, spoolBytes := 64 }, .row row0,
              .product { tol := 0, stat := false, a := 1, b := 1, c := 0, mT := 1, nT := 1, rotBase := 0, sliceRuns := 1
                         ranges := 0, rowSplit := 1, colSplit := 1, kSplit := 1 },
              .fold { path := 0, src := 0, dst := 2, split := 1 },
              .bind { chain := 0, binds := [some 0, some 0, some 0, some 4] },
              .move { srcSp := false, dstSp := false, src := 16, dst := 17, len := 64, srcMstride := 0, dstMstride := 0
                      srcPstride := 0, dstPstride := 0 },
              .coll { op := 0, elemL16 := false, group := 0, planes := 15, src := 16, dst := 17, count := 32, srcMstride := 0
                      dstMstride := 0 },
              .stream { emit := false, stream := 3, slots := 2, ahead := 0, region := 0x1000, slotBytes := 0x10000, records := 1
                        recordBytes := 64, loc := 16, len := 0, remote := 0, mstride := 0, remoteStep := 0 },
              .stream { emit := true, stream := 4, slots := 1, ahead := 0, region := 0, slotBytes := 0, records := 0
                        recordBytes := 0, loc := 16, len := 64, remote := 0, mstride := 0, remoteStep := 0 },
              .note { mailbox := 0, code := 5, src := 16, len := 64, mstride := 0 },
              .tensor { tens with fmt := .rem8, elemBase := 48 },
              .bind { chain := 0, binds := [some 0, some 1, some 13, none] },
              .fold { path := 0, src := 0, dst := 1, split := 1 },
              .coll { op := 0, elemL16 := false, group := 1, planes := 15, src := 16, dst := 17, count := 32, srcMstride := 0
                      dstMstride := 0 },
              .row { row0 with partner := 0 }]
    stitches := [], chains := [⟨0, 3, 2, 1, 0, false⟩, ⟨0, 3, 2, 1, 1, true⟩], needle := []
    chalk := [{ octave := false, quad := false, below := 0, above := 0, x0 := 0#32, hExp := 0, e0 := 0, low := 0#32
                high := 0#32, coefs := [] }]
    variants := [], escal := [], ranges := [[0]], layers := [], plan := plan0, regions := [] }

/-- A device in service whose job of package `p` issues. -/
def busy (p : Package) : State :=
  { State.reset with dev := { st := .running }, pins := { v72 := true, rails := [.vser], verified := true, startup := 9 }
                     job := { pkg := some p } }
def lane0 : Lane := { pos := 0, p0 := true, index := 0, v := List.replicate 16 0x3F800000#32, p := [false, false, false] }
def chain0 : ChainRun :=
  { entry := ⟨0, 3, 2, 1, 0, false⟩, bind := { chain := 0, binds := [some 0, some 1, some 2, some 4] }, tag := 0, ext0 := 0
    step := 0, micro := 0xFFFF, positions := 2, waiting := false, pass := 0, instr := 0, lanes := [lane0], cycles := 0 }
def tile0 : Tile :=
  { tag := 1, rows := 1, cols := 1, row0 := 0, col0 := 0, desc := 0, nonfinite := false, sampled := false, seq := 0
    micro := 0xFFFF, chain := [0], data := [0x40000000#32] }
/-- Panel 0 of `busy pkg0` holds `w`. -/
def onPanel (w : Panel) : State := { busy pkg0 with panels := [(0, w)] }
def sNeedle : State := onPanel { chain := some chain0 }
def sSource : State := onPanel { chain := some { chain0 with entry := ⟨0, 3, 2, 1, 1, true⟩ }, queue := [tile0] }
def slot (d : Nat) : SlotRef := ⟨0, d⟩
def mov (d : Nat) : MovRef := ⟨7, 0, d⟩

/-! ### Witnesses: needle and row -/

theorem busy_runs : jobRuns (busy pkg0) pkg0 := ⟨rfl, by decide⟩
theorem busy_issues : streamRuns (busy pkg0) pkg0 := ⟨busy_runs, by decide⟩
theorem chain0_passes : inPass sNeedle 0 pkg0 chain0 := ⟨⟨rfl, by decide⟩, rfl, rfl, by decide⟩

theorem meets_NeedleArithmeticResult : inPass sNeedle 0 pkg0 chain0 ∧ nargs.sr = false := ⟨chain0_passes, rfl⟩

theorem meets_NeedlePredicateAndMoveResult :
    inPass sNeedle 0 pkg0 chain0 ∧ ({ nargs with sub := 3 }.sub ≤ 3 ∧ nargs.vd % 4 ≠ 0) ∧
    (inPass sSource 0 pkg0 { chain0 with entry := ⟨0, 3, 2, 1, 1, true⟩ } ∧ headTile sSource 0 = some tile0 ∧
      { nargs with sub := 5 }.sub ≤ 5) ∧ (pkg0.chalk[nargs.sub]?).isSome = true ∧ pkg0.chalk[{ nargs with sub := 7 }.sub]? = none :=
  ⟨chain0_passes, by decide, ⟨⟨⟨rfl, by decide⟩, rfl, rfl, by decide⟩, rfl, by decide⟩, by decide, by decide⟩

theorem bound_f32 : bound sNeedle 0 pkg0 chain0 0 0 tens := ⟨rfl, rfl, by decide⟩
theorem bound_l16 : bound sNeedle 0 pkg0 chain0 1 1 { tens with fmt := .l16, elemBase := 20 } := ⟨rfl, rfl, by decide⟩
theorem bound_l8 : bound sNeedle 0 pkg0 chain0 2 2 { tens with fmt := .l8e, scaleBase := 32 } := ⟨rfl, rfl, by decide⟩

theorem meets_NeedleDrawLoadQuantise :
    (inPass sNeedle 0 pkg0 chain0 ∧ bound sNeedle 0 pkg0 chain0 0 0 tens ∧ memClean sNeedle = true) ∧
    bound sNeedle 0 pkg0 chain0 1 1 { tens with fmt := .l16, elemBase := 20 } ∧
    (bound sNeedle 0 pkg0 chain0 2 2 { tens with fmt := .l8e, scaleBase := 32 } ∧
      ∀ lg ∈ touchedGroups { tens with fmt := .l8e, scaleBase := 32, ext := [2, 0, 0, 0] } [⟨2, 0xFFFF, 0, 0#32, 0#32⟩],
        ∃ b ∈ groupIndices { tens with fmt := .l8e, scaleBase := 32, ext := [2, 0, 0, 0] } lg.1 lg.2, ∃ i ∈ b,
          pendingElem ([⟨2, 0xFFFF, 0, 0#32, 0#32⟩] ++ (panelOf sNeedle 0).foldIn) 2 0xFFFF i = none) :=
  ⟨⟨chain0_passes, bound_f32, by decide⟩, bound_l16, bound_l8, by decide⟩

/-- A panel with the one element of a folded tensor in its output path; a tensor with an outlier store. -/
theorem meets_NeedleDrawLoadQuantise_groups :
    (let t : TensorDesc := { tens with fmt := .l8e, scaleBase := 32 }
     let s1 := onPanel { chain := some chain0, foldIn := [⟨2, 0xFFFF, 0, 0x3F800000#32, 0#32⟩] }
     touchedGroups t [⟨2, 0xFFFF, 0, 0x3F800000#32, 0#32⟩] = [(0, 0)] ∧ groupFull s1 0 2 0xFFFF t (0, 0) ∧
      (boundPlanes sNeedle 0 pkg0 chain0 2 t).elem = .flat 4096 ∧ (boundPlanes sNeedle 0 pkg0 chain0 2 t).scale = .flat 8192 ∧
      ∃ sb fbs, (foldPieces (foldCfgOf t) [(firstBlock t (0, 0), groupSources s1 0 2 0xFFFF t (0, 0))] {}).1 =
        [(firstBlock t (0, 0), [(sb, fbs)])]) ∧ plainWrites sNeedle ∧
    (let t : TensorDesc := { tens with fmt := .l8e, scaleBase := 32, kout := 1, storeBase := 48, indexBase := 64, storeCap := 1 }
     let p : Package := { pkg0 with descs := [.tensor t] }
     let s := { busy p with panels := [(0, { chain := some chain0 })] }
     inPass s 0 p chain0 ∧ bound s 0 p chain0 0 0 t ∧ fmtNarrow t.fmt = true ∧ t.kout ≠ 0) := by
  refine ⟨⟨by decide, by unfold groupFull; decide, by decide, by decide, _, _, rfl⟩,
    ⟨rfl, rfl, rfl, rfl, by decide, fun p h => ?_⟩, ⟨⟨rfl, by decide⟩, rfl, rfl, by decide⟩, ⟨rfl, rfl, by decide⟩, rfl, by decide⟩
  cases h; exact ⟨fun r hr => (by cases hr), fun l hl => (by cases hl)⟩

theorem meets_NeedleStoreResult :
    (inPass sNeedle 0 pkg0 chain0 ∧ bound sNeedle 0 pkg0 chain0 0 0 tens ∧ memClean sNeedle = true) ∧
    (∀ l ∈ actives nargs chain0, ¬ placeHas (boundPlanes sNeedle 0 pkg0 chain0 0 tens).elem
      (fmtBytes tens.fmt * l.index) (fmtBytes tens.fmt) 4100) :=
  ⟨⟨chain0_passes, bound_f32, by decide⟩, by unfold placeHas; decide⟩

theorem meets_NeedleRowTerms :
    (inPass sNeedle 0 pkg0 chain0 ∧ boundRow 0 pkg0 chain0 row0 ∧ { nargs with sub := 4 }.sub ≤ 4 ∧ memClean sNeedle = true) ∧
    f32IsNaN 0x7FC00000#32 = true ∧ (f32Lt 0xFF800000#32 0#32 = true ∧ f32IsNaN 0#32 = false) ∧ (8191 < 8192) :=
  ⟨⟨chain0_passes, ⟨4, rfl, rfl, by decide⟩, by decide, by decide⟩, by decide, by decide, by decide⟩

/-- A slot of class row that waits in a stitch FIFO, and a panel that holds it. -/
def waits0 : FifoSlot :=
  { cls := 2, op := 1, desc := 4, step := 0, micro := 0xFFFF, stitch := 0, set := [0], pos := 0, mov := none }
def sHeldPanel : State := onPanel { fifo := [waits0] }
theorem row0_acts : rowSlotOf (busy pkg0) pkg0 (slot 4) row0 := ⟨⟨busy_issues, rfl⟩, rfl, by decide⟩

theorem meets_RowFinishResult : rowSlotOf (busy pkg0) pkg0 (slot 4) row0 ∧ inPocket row0 ∧
    (∀ q ∈ slotPanels (busy pkg0) pkg0 (slot 4).pset, rowsOk q row0 row0.fwdBase row0.count = true) ∧
    row0.fwdBase + row0.count ≤ 8192 ∧ (row0.fwdBase + row0.count ≤ row0.base ∨ row0.base + row0.count ≤ row0.fwdBase) :=
  ⟨row0_acts, by unfold inPocket; decide, by decide, by decide, by decide⟩

theorem meets_RowMemoryAndChainResult :
    rowSlotOf (busy pkg0) pkg0 (slot 4) row0 ∧ inPocket row0 ∧ plainWrites (busy pkg0) ∧
    ((∀ q ∈ slotPanels (busy pkg0) pkg0 (slot 4).pset, placeOk (savePlace pkg0 q row0) (32 * row0.count) = true) ∧
      savePlace pkg0 0 row0 = .flat 16384) ∧
    slotPanels (busy pkg0) pkg0 (slot 4).pset = [0] ∧ (panelOf (busy pkg0) row0.partner).rowWait = [] ∧
    (let s := { busy pkg0 with panels := [(1, { rowWait := [17] })] }
     rowSlotOf s pkg0 (slot 4) row0 ∧ row0.partner ≠ 0 ∧ (panelOf s row0.partner).rowWait = [17] ∧
      rowOf pkg0 17 = some { row0 with partner := 0 } ∧ { row0 with partner := 0 }.partner = 0 ∧
      inPocket { row0 with partner := 0 } ∧ (panelOf s row0.partner).rowIn = []) ∧
    ((panelOf (busy pkg0) 0).rowIn.filter (fun e => e.1 == row0.partner)).length < row0.count ∧
    (panelOf (onPanel { rowIn := [(1, {}), (1, {})] }) 0).rowIn = ([{}, {}] : List RowRec).map (fun r => (row0.partner, r)) ++ [] ∧
    (fifoFree (busy pkg0) (slotPanels (busy pkg0) pkg0 (slot 4).pset) = true ∧ ∀ e ∈ rowOps,
      ∀ q ∈ slotPanels (busy pkg0) pkg0 (slot 4).pset, rowExist pkg0 e.2 q row0 = true) ∧
    (slotsAct sHeldPanel pkg0 ∧ fifoFree sHeldPanel (slotPanels sHeldPanel pkg0 (slot 4).pset) = true ∧
      ∀ q ∈ slotPanels sHeldPanel pkg0 (slot 4).pset, rowHeld pkg0 (panelOf sHeldPanel q) = true) :=
  ⟨row0_acts, by unfold inPocket; decide,
    ⟨rfl, rfl, rfl, rfl, by decide, fun p h => by cases h; exact ⟨fun r hr => (by cases hr), fun l hl => (by cases hl)⟩⟩,
    by decide, by decide, by decide,
    ⟨⟨⟨⟨⟨rfl, by decide⟩, by decide⟩, rfl⟩, rfl, by decide⟩, by decide, by decide, rfl, rfl, by unfold inPocket; decide, by decide⟩,
    by decide, by decide, by decide, ⟨⟨⟨rfl, by decide⟩, by decide⟩, rfl⟩, by decide, by decide⟩

/-! ### Witnesses: matrix, fold, chain, movers -/

def bank0 : Bank :=
  { desc := 5, tag := 1, micro := 0xFFFF, row0 := 0, rows := 1, col0 := 0, cols := 1, partials := [[0x3F800000#32]]
    start := [0#32], needs := 0, chainIn := none, chain := [0], chainOut := none, emitted := 0 }
def hop0 : Hop := { src := 1, desc := 5, micro := 0xFFFF, row0 := 1, col0 := 0, data := [0#32] }
def ent0 : SpoolEntry := { tag := 1, micro := 0xFFFF, desc := 3, bytes := 64, seq := 0, spilled := false, isVoid := false, off := 0 }
/-- `pkg0` with a spool region of 64 KiB. -/
def pkgSpool : Package :=
  { pkg0 with regions := [{ lpddr := false, jobState := false, base := false, frozen := false, dataset := false, spool := true
                            number := 0, start := 0, len := 0x10000 }] }
def sSpool (w : Spool) : State := { busy pkgSpool with panels := [(0, { spool := w })] }
/-- Panel 0 of a job of package `p` holds `w`. -/
def onPanelOf (p : Package) (w : Panel) : State := { busy p with panels := [(0, w)] }
def full0 : SpoolEntry := { ent0 with bytes := 0xFFC0 }

/-- The slots of class matrix, mover and spool wait on the panel that holds an earlier slot. -/
def held_acts : Prop :=
  slotsAct sHeldPanel pkg0 ∧ slotPanels sHeldPanel pkg0 0 = [0] ∧ panelHeld (panelOf sHeldPanel 0) = true ∧
    spoolHeld (panelOf sHeldPanel 0) = true ∧ fifoFree sHeldPanel [0] = true
theorem held_panel : held_acts := ⟨⟨⟨⟨rfl, by decide⟩, by decide⟩, rfl⟩, by decide, by decide, by decide, by decide⟩

theorem meets_MatrixPipelineResult :
    (slotsAct (busy pkg0) pkg0 ∧ memClean (busy pkg0) = true ∧ panelHeld (panelOf (busy pkg0) 0) = false ∧
      ∃ v, prodView pkg0 (slot 5).desc = some v ∧ prodReady (busy pkg0) pkg0 v (slotPanels (busy pkg0) pkg0 0)) ∧
    ((panelOf (onPanel { banks := [bank0] }) 0).banks = bank0 :: [] ∧ bank0.needs = 0 ∧ bank0.chainOut = none ∧
      (panelOf (onPanel { banks := [bank0] }) 0).emitted = []) ∧
    ({ bank0 with needs := 1 }.needs ≠ 0 ∧ (panelOf (onPanel { emitted := [tile0] }) 0).emitted ≠ []) ∧
    { bank0 with chainOut := some 1 }.chainOut = some 1 ∧
    (let b := { bank0 with needs := 1, chainIn := some 1 }
     (panelOf (onPanel { banks := [b], hops := [hop0] }) 0).hops = hop0 :: [] ∧ awaits b hop0 ∧
      ∀ k ∈ [hop0], ∀ c ∈ [{ b with chainIn := some 2 }], ¬ awaits c k) ∧
    ((panelOf (onPanel { emitted := [tile0], queue := List.replicate 7 tile0 }) 0).emitted = tile0 :: [] ∧
      (panelOf (onPanel { emitted := [tile0], queue := List.replicate 7 tile0 }) 0).queue.length < 8 ∧
      1 % 2 ^ setting (busy pkg0) 0x100 0 ≠ 0) ∧
    8 ≤ (panelOf (onPanel { emitted := [tile0], queue := List.replicate 8 tile0 }) 0).queue.length ∧
    held_acts :=
  ⟨⟨⟨busy_issues, rfl⟩, by decide, by decide, _, rfl, by unfold prodReady; decide⟩, by decide, by decide, rfl,
    by unfold awaits; decide, by decide, by decide, held_panel⟩

theorem meets_FoldAndChainResult :
    (∃ fd ts td, descOf pkg0 15 = .fold fd ∧ tensorOf pkg0 fd.src = some ts ∧ tensorOf pkg0 fd.dst = some td ∧
      foldOk (busy pkg0) pkg0 fd ts td (slotPanels (busy pkg0) pkg0 0) = true ∧ td.fmt = .l16 ∧ ts.spooled = false ∧
      td.spooled = false ∧ slotsAct (busy pkg0) pkg0 ∧ panelHeld (panelOf (busy pkg0) 0) = false) ∧
    (∃ fd ts td, descOf pkg0 6 = .fold fd ∧ tensorOf pkg0 fd.src = some ts ∧ tensorOf pkg0 fd.dst = some td ∧
      foldOk (busy pkg0) pkg0 fd ts td (slotPanels (busy pkg0) pkg0 0) = true ∧ fmtNarrow td.fmt = true) ∧
    memClean (busy pkg0) = true ∧ slotPanels (busy pkg0) pkg0 0 ≠ [] ∧
    (∃ b e, descOf pkg0 7 = .bind b ∧ pkg0.chains[b.chain]? = some e ∧ (panelOf (busy pkg0) 0).chain = none ∧
      fifoFree (busy pkg0) (slotPanels (busy pkg0) pkg0 0) = true ∧ chainHeld (panelOf (busy pkg0) 0) = false ∧
      chainHeld (panelOf sNeedle 0) = true ∧ fifoFree sNeedle (slotPanels sNeedle pkg0 0) = true ∧
      (chainSource pkg0 e b (headTile (busy pkg0) 0)).isSome = true) ∧
    (pkg0.chains[1]?.map ChainEntry.source = some 1 ∧ (panelOf (busy pkg0) 0).queue = []) ∧
    (∃ c, (panelOf (onPanel { chain := some { chain0 with entry := ⟨0, 3, 2, 1, 1, true⟩, waiting := true }
                              queue := [{ tile0 with desc := 5 }] }) 0).chain = some c ∧ c.waiting = true ∧
      (chainSource pkg0 c.entry c.bind (some { tile0 with desc := 5 })).isSome = true) ∧
    (chainPasses { chain0 with pass := 1 } ≤ { chain0 with pass := 1 }.pass ∧ chain0.waiting = false) ∧
    (noSlots sNeedle ∧ held_acts ∧ nextHeld pkg0 (busy pkg0) = none ∧ stepGone (busy pkg0) = false) ∧
    (let f : FifoSlot := { waits0 with cls := 1, op := 1, desc := 7 }
     let s := onPanel { fifo := [f] }
     ∃ b e, nextHeld pkg0 s = some (0, f) ∧ descOf pkg0 7 = .bind b ∧ pkg0.chains[b.chain]? = some e ∧
      (chainSource pkg0 e b (headTile s 0)).isSome = true) :=
  ⟨⟨_, _, _, rfl, rfl, rfl, by decide, rfl, rfl, rfl, ⟨busy_issues, rfl⟩, by decide⟩, ⟨_, _, _, rfl, rfl, rfl, by decide, rfl⟩, by decide,
    by decide, ⟨_, _, rfl, rfl, rfl, by decide⟩, by decide, ⟨_, rfl, rfl, by decide⟩, by decide,
    ⟨by unfold noSlots; decide, held_panel, by decide, by decide⟩, ⟨_, _, by decide, rfl, rfl, by decide⟩⟩

theorem meets_CopyAndCompletionResult :
    (∃ m, descOf pkg0 8 = .move m ∧ copyReady (busy pkg0) pkg0 m 8 (slotPanels (busy pkg0) pkg0 0) ∧
      movePlace (busy pkg0) pkg0 0 0 8 m.dstSp m.dst m.dstMstride m.dstPstride = .flat 0x1100 ∧
      ¬ copyHas (busy pkg0) pkg0 m 8 (slotPanels (busy pkg0) pkg0 0) 0x1140) ∧
    slotPanels (busy pkg0) pkg0 0 = [0] ∧ held_acts ∧ slotsAct (busy pkg0) pkg0 ∧
    (opOf { busy pkg0 with shut := { movers := [⟨4, 7, .copy []⟩] } } 4 = some ⟨4, 7, .copy []⟩ ∧
      opDone (busy pkg0) ⟨4, 7, .copy []⟩ = true ∧ (busy pkg0).job.endDue = false) := by
  refine ⟨⟨_, rfl, by unfold copyReady; decide, by decide, ?_⟩, by decide, held_panel, ⟨busy_issues, rfl⟩, by decide⟩
  unfold copyHas placeHas; rintro ⟨j, hj, h⟩
  have : j = 0 := by have : j < 1 := hj; omega
  subst this; revert h; decide

/-- With SPOOL_EXT 0 no panel has an extension share. -/
def sUnstaged : State :=
  { sSpool { ring := [full0] } with mgmt := { settings := [(settingKey 0x121 0, { value := 0 })] } }

theorem meets_SpoolResult :
    (streamRuns (sSpool {}) pkgSpool ∧ (∃ t, tensorOf pkgSpool 3 = some t ∧ t.spooled = true ∧
      64 + t.spoolBytes ≤ ringFree pkgSpool (spoolOf (sSpool {}) 0)) ∧ (spoolOf (sSpool {}) 0).waits = [] ∧
      spoolHeld (panelOf (sSpool {}) 0) = false ∧ fifoFree (sSpool {}) (slotPanels (sSpool {}) pkgSpool 0) = true ∧
      plainWrites (sSpool {}) ∧
      rangeOk (ringStart pkgSpool 0) (spoolSize pkgSpool) = true) ∧
    (¬ 64 + 64 ≤ ringFree pkgSpool { ring := [full0] } ∧ spillFits (sSpool { ring := [full0] }) 0 = true ∧ spillFits sUnstaged 0 = false) ∧
    (spoolOf (sSpool { ring := [ent0] }) 0).ring ≠ [] ∧
    ((spoolOf (sSpool { ext := [ent0] }) 0).ring = [] ∧ (spoolOf (sSpool { ext := [ent0] }) 0).ext ≠ []) ∧
    (let s := sSpool { ext := [ent0], returning := true, waits := [.pop 4 3] }
     (spoolOf s 0).returning = true ∧ (spoolOf s 0).ext.getLast? = some ent0 ∧ (spoolOf s 0).waits = [.pop 4 3]) ∧
    (let s := sSpool { ring := [full0], waits := [.push 4 3 0xFFFF] }
     jobRuns s pkgSpool ∧ (spoolOf s 0).waits = .push 4 3 0xFFFF :: [] ∧ (spoolOf s 0).ring = full0 :: [] ∧
      (spoolOf s 0).returning = false ∧ (spoolOf s 0).voidMode = false ∧ writesOut pkgSpool s 0 full0 = false ∧
      writesOut pkgSpool { s with shut := { movers := [⟨9, 7, .copy [(0, 3, 0xFFFF)]⟩] } } 0 full0 = true ∧ noSlots s ∧
      64 + 64 ≤ ringFree pkgSpool { spoolOf s 0 with ring := [] }) :=
  ⟨⟨⟨⟨rfl, by decide⟩, by decide⟩, ⟨_, rfl, rfl, by decide⟩, rfl, by decide, by decide,
      ⟨rfl, rfl, rfl, rfl, by decide, fun p h => by cases h; exact ⟨by decide, fun l hl => (by cases hl)⟩⟩, by decide⟩,
    ⟨by decide, by decide, by decide⟩, by decide, by decide,
    by decide, ⟨rfl, by decide⟩, rfl, rfl, rfl, rfl, by decide, by decide, by unfold noSlots; decide, by decide⟩

theorem meets_SpoolResult_held : streamRuns (onPanelOf pkgSpool { fifo := [waits0] }) pkgSpool ∧
    spoolHeld (panelOf (onPanelOf pkgSpool { fifo := [waits0] }) 0) = true :=
  ⟨⟨⟨rfl, by decide⟩, by decide⟩, by decide⟩

/-- The byte ranges of two flat places that lie apart. -/
theorem apart {a b o m n x : Nat} (h : a + o + m ≤ b + o) : ¬ (placeHas (.flat a) o m x ∧ placeHas (.flat b) o n x) := by
  rintro ⟨⟨e, he, h1⟩, f, hf, h2⟩
  cases List.mem_singleton.mp he; cases List.mem_singleton.mp hf; dsimp only at h1 h2; omega

theorem meets_ApplyResult :
    (∃ b td tw tr, descOf pkg0 14 = .bind b ∧ b.binds.getD 0 none = some 0 ∧ b.binds.getD 1 none = some 1 ∧
      b.binds.getD 2 none = some 13 ∧ tensorOf pkg0 0 = some td ∧ tensorOf pkg0 1 = some tw ∧ tensorOf pkg0 13 = some tr ∧
      td.fmt = .f32 ∧ tw.fmt = .l16 ∧ tr.fmt = .rem8 ∧
      (∀ q ∈ slotPanels (busy pkg0) pkg0 0, planesOk td (planesOf (busy pkg0) pkg0 q 0 td) = true ∧
        planesOk tw (planesOf (busy pkg0) pkg0 q 1 tw) = true ∧ planesOk tr (planesOf (busy pkg0) pkg0 q 13 tr) = true) ∧
      slotPanels (busy pkg0) pkg0 0 = [0] ∧ td.spooled = false ∧ tensorSize td = tensorSize tw ∧ tensorSize tr = tensorSize tw ∧
      ∀ n, ¬ (placeHas (planesOf (busy pkg0) pkg0 0 0 td).elem 0 (elemBytes td) n ∧
          placeHas (planesOf (busy pkg0) pkg0 0 1 tw).elem 0 (elemBytes tw) n) ∧
        ¬ (placeHas (planesOf (busy pkg0) pkg0 0 0 td).elem 0 (elemBytes td) n ∧
          placeHas (planesOf (busy pkg0) pkg0 0 13 tr).elem 0 (elemBytes tr) n) ∧
        ¬ (placeHas (planesOf (busy pkg0) pkg0 0 1 tw).elem 0 (elemBytes tw) n ∧
          placeHas (planesOf (busy pkg0) pkg0 0 13 tr).elem 0 (elemBytes tr) n)) ∧
    ({ busy pkg0 with fence := { passed := true } }.fence.passed = true ∧ (busy pkg0).fence.passed = false ∧ held_acts) ∧
    (f32IsNaN (l16ToF32 0x7FC0#16) = true ∧ f32IsInf (l16ToF32 0x7F80#16) = true ∧ f32IsInf 0xFF800000#32 = true ∧
      f32Sign 0xFF800000#32 ≠ f32Sign (l16ToF32 0x7F80#16) ∧ f32IsFinite (l16ToF32 0x7F7F#16) = true) ∧
    f32IsFinite (l16ToF32 (applyPair 0x7F80#16 0#8 0#32).w) = false :=
  ⟨⟨_, _, _, _, rfl, rfl, rfl, rfl, rfl, rfl, rfl, rfl, rfl, rfl, by decide, by decide, rfl, by decide, by decide,
    fun n => ⟨apart (by decide), apart (by decide), apart (by decide)⟩⟩, ⟨rfl, rfl, held_panel⟩, by decide, by decide⟩

def sHeld : State := { busy pkg0 with host := { slots := [(slotKey 3 0, .held 0)] } }

theorem meets_StreamMoverResult :
    (∃ d, descOf pkg0 10 = .stream d ∧ d.emit = false ∧ ingestHeld (busy pkg0) d = false ∧ ingestHeld sHeld d = true ∧
      rangeOk (ingestSrc sHeld d) (d.records * d.recordBytes) = true ∧
      (∀ q ∈ [0], rangeOk (ingestDst d 0xFFFF q) (d.records * d.recordBytes) = true) ∧
      slotPanels sHeld pkg0 0 = [0] ∧
      (opOf { sHeld with shut := { movers := [⟨2, 7, .ingestWait 10 0xFFFF [0]⟩] } } 2).map MovOp.kind =
        some (.ingestWait 10 0xFFFF [0])) ∧
    (∃ d, descOf pkg0 11 = .stream d ∧ d.emit = true ∧
      rangeOk (resolveAddr ((slotPanels (busy pkg0) pkg0 0).getD 0 0) (256 * d.loc + microBytes (busy pkg0) d.mstride)) d.len = true ∧
      openFlows (busy pkg0) .emit d.stream = [] ∧ (busy pkg0).shut.movers = [] ∧ 0 < d.len) ∧
    (∃ d, descOf pkg0 12 = .note d ∧
      rangeOk (resolveAddr ((slotPanels (busy pkg0) pkg0 0).getD 0 0) (256 * d.src + microBytes (busy pkg0) d.mstride)) d.len = true ∧
      (noteQueueOf (busy pkg0) d.mailbox).notes.length ≤ 64) :=
  ⟨⟨_, rfl, by decide⟩, ⟨_, rfl, by decide⟩, ⟨_, rfl, by decide⟩⟩

theorem meets_CollectiveResult :
    (∃ c, collOf pkg0 16 = some c ∧ collView pkg0 c = none) ∧
    (∃ c v, collOf pkg0 9 = some c ∧ collView pkg0 c = some v ∧
      rangeOk (collSrc c 0 0xFFFF) (collSrcBytes v) = true ∧ rangeOk (collDst c 0 0xFFFF) (collBytes v) = true ∧
      (c.op = 0 ∨ c.op = 2) ∧ 0 < segCount (shardLen v v.pos) ∧
      (let s := { busy pkg0 with coll := { runs := [⟨0, 9, 0xFFFF, 0, [], 0, 0⟩], buffer := [⟨{ head0 with desc := 9 }, []⟩] } }
       jobRuns s pkg0 ∧ s.fence.abandoned = false ∧ s.coll.runs.find? (fun r => r.desc == 9 && r.micro == 0xFFFF) = some ⟨0, 9, 0xFFFF, 0, [], 0, 0⟩ ∧
       contribOf s 9 0xFFFF 0 1 = some [])) :=
  ⟨⟨_, rfl, by decide⟩, ⟨_, _, rfl, rfl, by decide, by decide, by decide, by decide, ⟨rfl, by decide⟩, rfl, by decide, by decide⟩⟩

/-! ### Witnesses: stitches, steps, checks -/

def var0 : Variant :=
  { grade := 1, recipe := 0, recompute := false, pAvg := 0, pPeak := 0, eStep := 0, tStep := 0, dtj := 0, spoolNeed := 0
    points := [some 0] }
def pkgVar : Package := { pkg0 with variants := [var0] }
def mover0 (k : MovKind) : MovOp := ⟨4, 7, k⟩
def withMovers (ms : List MovOp) : State := { busy pkg0 with shut := { movers := ms } }
def case0 : Case :=
  { slot := 0, cap := { panel := 0, tile := tile0, rowsA := [⟨.l16, [], []⟩], colsB := [⟨.l16, [], []⟩], pair := .l16l16, tol := 0
                        sliceRuns := 1, lo := 0, hi := 0 }, c1 := [0#32], pp := [0#32] }
def withHub (h : Hub) : State := { busy pkg0 with hubs := [(0, h)] }

theorem meets_StitchFlowResult :
    streamRuns (busy pkg0) pkg0 ∧ (0 : Nat) < 64 ∧
    ({ busy pkg0 with shut := { ctrs := [1, 2, 0, 0xFFFFF] } }.shut.ctrs.getD (0 % 4) 0 = 1 ∧
      2 ≤ { busy pkg0 with shut := { ctrs := [1, 2, 0, 0xFFFFF] } }.shut.ctrs.getD (3 % 4) 0) ∧
    (0 ≠ 0xFFFF ∧ 0 + 1 < pkg0.nmicro) ∧ pkg0.nmicro ≤ 1 + 1 ∧ (busy pkg0).job.fault = none ∧
    (let s := { busy pkg0 with power := { (busy pkg0).power with q := 1 } }
     streamRuns s pkg0 ∧ s.shut.windowIdle < dutyOf s) ∧
    dutyOf (busy pkg0) ≤ (busy pkg0).shut.windowIdle ∧ streamOn (busy pkg0) = true ∧
    (∃ o ∈ (withMovers [mover0 (.copy [])]).shut.movers,
      bitOf 0x80 o.queue = true ∨ bitOf (withMovers [mover0 (.copy [])]).shut.syncWait o.queue = true) ∧
    (∀ o ∈ (withMovers [mover0 (.copy [])]).shut.movers,
      bitOf 0x7F o.queue = false ∧ bitOf (withMovers [mover0 (.copy [])]).shut.syncWait o.queue = false) ∧
    (let s := { busy pkg0 with shut := { movers := [mover0 (.copy [])], syncWait := 0x80 } }
     bitOf s.shut.syncWait 7 = true ∧ (∃ o ∈ s.shut.movers, o.queue = 7 ∧ o.id = 4) ∧ s.shut.syncTold = false) ∧
    { (busy pkg0).shut with syncTold := true }.syncTold = true :=
  ⟨busy_issues, by decide, by decide, by decide, by decide, rfl, ⟨⟨⟨rfl, by decide⟩, by decide⟩, by decide⟩, by decide, by decide, by decide,
    by decide, by decide, rfl⟩

theorem meets_HaltAndMarkResult :
    (streamRuns (busy pkg0) pkg0 ∧ emitPending (busy pkg0) = false ∧ (busy pkg0).snap.snap = none ∧ heldCases (busy pkg0) = false) ∧
    heldCases (withHub { cases := [case0] }) = true ∧
    ((busy pkg0).mgmt.marks.length ≤ 8 ∧ 255 < classUnits 1 ∧
      ∃ pre post, [(⟨1, 0, 0, [], []⟩ : MarkRec)] = pre ++ ⟨1, 0, 0, [], []⟩ :: post ∧ (∀ r ∈ pre, r.number ≠ 1) ∧
        (∀ r ∈ post, r.number ≠ 1) ∧ ∀ e ∈ (⟨1, 0, 0, [], []⟩ : MarkRec).records, ¬ (e.1 = 7 ∧ e.2.1 = 11)) :=
  ⟨⟨busy_issues, by decide, rfl, by decide⟩, by decide, by decide, by decide, [], [], by decide⟩

theorem meets_GradePointResult :
    streamRuns (busy pkgVar) pkgVar ∧ (busy pkgVar).job.deficit = false ∧ { (busy pkgVar).job with deficit := true }.deficit = true ∧
    variantOf pkgVar (busy pkgVar).shut.variant = some var0 := ⟨⟨⟨rfl, by decide⟩, by decide⟩, rfl, rfl, by decide⟩

/-- Whether a grade is available is each module's own (log entry 4): variant 1 of a package of two recipes may run at grade
point 0 where its grade is; at point 1 none may. -/
theorem meets_GradePointResult_choice :
    let p : Package := { pkgVar with variants := [var0, { var0 with recipe := 1 }] }
    let s := { busy p with job := { pkg := some p, wantRecipe := some 1 } }
    freeChoice s ∧ streamRuns s p ∧ s.job.deficit = false ∧ p.variants[s.shut.variant]? = some var0 ∧
      (vSet s 1 ≤ 680 → mayRun s p 0 false 0 0 var0 ∧ mayRun s p 1 false 0 1 { var0 with recipe := 1 }) ∧
      (∀ i v, ¬ mayRun s p 0 false 1 i v) ∧ s.job.wantRecipe = some 1 ∧ (1 : Nat) ≠ var0.recipe ∧
      (∀ e ∈ s.job.replay, ¬ (e.step = s.job.step ∧ e.gp = 0)) := by
  refine ⟨by unfold freeChoice; decide, ⟨⟨rfl, by decide⟩, by decide⟩, rfl, rfl,
    fun h => ⟨⟨rfl, rfl, rfl, h, rfl⟩, rfl, rfl, rfl, h, rfl⟩, fun i v h => ?_, rfl, by decide, fun e he => by cases he⟩
  rcases i with _ | _ | i
  · obtain ⟨e, -, -, -, h⟩ := h; cases e; exact absurd h (by decide)
  · obtain ⟨e, -, -, -, h⟩ := h; cases e; exact absurd h (by decide)
  · exact absurd h.1 (by simp)

/-- A package with a chain of one ACC, which adds to the F32 tensor of descriptor 0. -/
def pkgSum : Package :=
  { pkg0 with chains := [⟨0, 1, 2, 1, 0, false⟩], needle := [⟨0x3A, nargs⟩]
              stitches := [{ flow := 0, ctr := 0, arg := 0, point := 1, microOp := 0, gp := 0, sync := 0, pmark := false, gap := 0
                             mslots := [], nslots := [⟨1, 0, 7⟩], rslots := [], vslots := [] }] }

theorem meets_StepOpenCloseResult_sums : jobRuns (busy pkgSum) pkgSum ∧ sumTargets pkgSum = [(0, 0)] ∧
    sumRanges (busy pkgSum) pkgSum = [(4096, 4)] ∧ memClean (busy pkgSum) = true ∧ openTo (busy pkgSum) pkgSum ∧
    (busy pkgSum).snap.guarded = [] ∧ (busy pkgSum).snap.snap = none :=
  ⟨⟨rfl, by decide⟩, by decide, by decide, by decide, ⟨rfl, fun r hr => (by cases hr), fun l hl => (by cases hl)⟩, rfl, rfl⟩

theorem meets_StepOpenCloseResult :
    (streamRuns (busy pkg0) pkg0 ∧ (busy pkg0).shut.syncWait = 0 ∧ (busy pkg0).job.deficit = false ∧ heldCases (busy pkg0) = false ∧
      (busy pkg0).snap.rest = none ∧ (busy pkg0).job.invalid = false ∧ { (busy pkg0).job with invalid := true }.invalid = true) ∧
    (2 ^ 32 - 1 < 2 ^ 32) ∧ (2 ^ 32 ≤ { (busy pkg0).job with step := 2 ^ 32 }.step ∧ (busy pkg0).job.fault = none) ∧
    ((busy pkg0).fence.phase = .none ∧ (busy pkg0).fence.passed = false) ∧
    ((∀ o ∈ (withMovers [mover0 (.copy [])]).shut.movers, o.kind ≠ .apply) ∧
      (busy pkg0).job.ending = none) ∧
    (∃ o ∈ (withMovers [mover0 .apply]).shut.movers, o.kind = .apply) :=
  ⟨⟨busy_issues, rfl, rfl, by decide, rfl, rfl, rfl⟩, by decide, by decide, by decide, by decide, by decide⟩

theorem meets_BasteCheckResult :
    (hubOf (withHub { act := .capturing case0.cap }) 0).act = .capturing case0.cap ∧ 0 = case0.cap.panel / 16 ∧
    (hubOf (withHub { act := .checking case0.cap }) 0).act = .checking case0.cap ∧
    tileExceeds case0.cap (faulty ((checkValues case0.cap).map Prod.fst) [(0, 0x40000000#32)])
      ((checkValues case0.cap).map Prod.snd) = false ∧
    tileExceeds case0.cap (faulty ((checkValues case0.cap).map Prod.fst) []) ((checkValues case0.cap).map Prod.snd) = true ∧
    ((∀ d ∈ [case0], d.slot ≠ 1) ∧ (∀ i, i < 1 → ∃ d ∈ [case0], d.slot = i)) ∧
    (∀ k, k < 4 → ∃ d ∈ [case0, { case0 with slot := 1 }, { case0 with slot := 2 }, { case0 with slot := 3 }], d.slot = k) :=
  ⟨by decide, by decide, by decide, by decide, by decide, by decide, by decide⟩

theorem meets_CheckFenceResult :
    (jobRuns (busy pkg0) pkg0 ∧ { (busy pkg0).fence with phase := .holding }.phase = .holding ∧ owesPush (busy pkg0) = false ∧
      (∀ h, h < 16 → (hubOf (busy pkg0) h).act = .idle)) ∧
    heldCases (withHub { cases := [case0] }) = true ∧
    (heldCases (busy pkg0) = false ∧ ∀ v ∈ [((0 : Nat), (1 : Nat), (0 : Nat))], v.1 = (busy pkg0).job.step → v.2.2 = 0) ∧
    { (busy pkg0).fence with overflow := true }.overflow = true ∧
    (1 < pkg0.plan.nranks ∧ 1 ≠ pkg0.plan.rank ∧ ∀ v ∈ (busy pkg0).fence.votes, v.1 = (busy pkg0).job.step → v.2.1 ≠ 1) ∧
    (firstCase (withHub { cases := [case0] }) = some (0, case0) ∧
      { (withHub { cases := [case0] }).fence with phase := .resolving }.phase = .resolving ∧
      (withHub { cases := [case0] }).shut.inStep = false) :=
  ⟨⟨busy_runs, rfl, by decide⟩, by decide, by decide, rfl, by decide, by decide⟩

/-! ### Witnesses: seam -/

def withPort (q : SeamPort) : State := { busy pkg0 with ports := [(0, q)] }
def member0 : SeamPort := { st := .member, credits := 256, peerRank := some 1 }
def flit0 : TxFlit := ⟨0, false, 0, 0x7FF, .poison poison0⟩

theorem meets_SeamSequenceResult :
    (portTrained (portOf (withPort member0) 0) = true ∧ (portOf (withPort member0) 0).retraining = false) ∧
    (∀ e ∈ flitKinds 0 head0 [] poison0 vote0 false ident0 0 ++ reservedKinds 0, ∃ h : FlitHdr, h.type = e.2 ∧
      h.seq = (portOf (withPort member0) 0).rxNext ∧ { h with seq := 2047 }.seq ≠ (portOf (withPort member0) 0).rxNext) ∧
    ((∀ e ∈ flitKinds 0 head0 [] poison0 vote0 false ident0 0, { hdr0 with type := 0 }.type ≠ e.2) ∧ hdr0.type ≠ 0) ∧
    ((portOf (withPort { member0 with replay := [flit0] }) 0).queue = [] ∧
      (portOf (withPort { member0 with replay := [flit0] }) 0).replay = [] ++ flit0 :: [] ∧ flit0.seq = { hdr0 with ack := 0 }.ack) ∧
    (∀ g ∈ [flit0], g.seq ≠ hdr0.ack) ∧
    (let v := portOf (withPort { member0 with replay := [flit0], nakIn := true, lastReplay := some 0, sameReplay := 7 }) 0
     v.nakIn = true ∧ v.retraining = false ∧ v.queue = [] ∧ v.replay = flit0 :: [] ∧ v.lastReplay = some flit0.seq ∧
       v.sameReplay = 7) ∧
    { member0 with lastReplay := some 0, sameReplay := 6 }.sameReplay < 7 ∧
    (let v := portOf (withPort { member0 with nakIn := true }) 0
     v.nakIn = true ∧ v.retraining = false ∧ v.replay = []) ∧
    ({ member0 with gated := true, waking := true }.gated = true ∧ { member0 with gated := true, waking := true }.waking = true ∧
      noGates { member0 with gated := true, waking := true }) := by
  refine ⟨by decide, fun e he => ?_, ⟨fun e he => ?_, by decide⟩, by decide, by decide, by decide, by decide, by decide, rfl, rfl, fun w h => ?_⟩
  · exact ⟨{ hdr0 with type := e.2 }, rfl, rfl, by dsimp only; decide⟩
  · simp only [flitKinds, List.mem_cons, List.not_mem_nil, or_false] at he
    rcases he with rfl | rfl | rfl | rfl | rfl | rfl | rfl <;> exact (by decide)
  · cases h

theorem meets_SeamTrafficResult :
    inSeq (withPort member0) 0 hdr0 ∧
    ((portOf (withPort member0) 0).st = .member ∧ headCurrent (withPort member0) { head0 with desc := 9 } = true ∧
      headCurrent (withPort member0) { head0 with desc := 9, step := 1 } = false) ∧
    (portOf (withPort { member0 with st := .excluded }) 0).st = .excluded ∧
    (let v := portOf (withPort { member0 with queue := [.data [] none], credits := 0 }) 0
     (∃ f ∈ v.queue, isControl f = false) ∧ v.credits = 0 ∧ hdr0.crd = 0) ∧
    ((∀ f ∈ (portOf (withPort member0) 0).queue, isControl f = true) ∧ noGates (portOf (withPort member0) 0) ∧
      7 ≤ { hdr0 with type := 7 }.type ∧ { hdr0 with type := 7 }.type ≤ 15) ∧
    ({ (busy pkg0).dev with st := .draining }.st = .draining ∧ (busy pkg0).dev.st ≠ .draining) ∧
    ((withPort { member0 with rx := some ({ head0 with bytes := 481 }, []) }).job.pkg.isSome = true ∧
      ([] : List Byte).length + 480 < 480 * ceilDiv { head0 with bytes := 481 }.bytes 480) ∧
    (poison0.jobTag = pkg0.plan.jobId ∧ poison0.step = (withPort member0).job.step ∧
      (poison0.cause, poison0.origin) ∉ (withPort member0).fence.received) ∧
    ({ poison0 with step := 1 }.step ≠ (withPort member0).job.step ∧ (1, 1) ∈ [((1 : Nat), (1 : Nat))]) ∧
    (vote0.jobTag = pkg0.plan.jobId ∧ vote0.rank ≠ pkg0.plan.rank ∧ vote0.rank < pkg0.plan.nranks ∧
      (withPort member0).fence.phase ≠ .voted ∧
      (∀ e ∈ (withPort member0).fence.votes, ¬ (e.1 = vote0.step ∧ e.2.1 = vote0.rank)) ∧
      ∃ e ∈ [((0 : Nat), (1 : Nat), (0 : Nat))], e.1 = vote0.step ∧ e.2.1 = vote0.rank) :=
  ⟨⟨by decide, by decide, by decide⟩, by decide, by decide, ⟨⟨_, List.mem_singleton.mpr rfl, rfl⟩, rfl, rfl⟩,
    ⟨(fun f hf => by cases hf), (fun w h => by cases h), by decide, by decide⟩, by decide,
    by decide, by decide, by decide, by decide⟩

def linked0 : SeamPort := { st := .linked, credits := 256, nonce := 3 }

/-- A PROOF whose signature checks (R222) is one with the port's nonce; without a key none does. -/
theorem meets_SeamFittingResult :
    (inSeq (withPort linked0) 0 hdr0 ∧ (portOf (withPort linked0) 0).st = .linked) ∧
    (∀ i, verify i.pubkey (identBytes 2 i) i.signature = true → i.peerNonce = 3 → proofOk linked0 i = true) ∧
    (proofOk linked0 ident0 = false ∧ ¬ (linked0.farNonce = some ident0.nonce ∧ linked0.proofSent = true)) ∧
    (portTrained linked0 = true ∧ linked0.slow = false ∧ linked0.farNonce = none) ∧
    { linked0 with slow := true }.slow = true ∧
    ({ member0 with retraining := true }.st = .member ∧ (withPort member0).job.pkg.isSome = true) ∧
    (boxesAt (busy pkg0) .fitting = [] ∧ inTraining { linked0 with st := .training } = true ∧ inTraining { member0 with retrainDue := true } = true ∧
      (8 = fullWidth 0 ∧ 2 * 4 = fullWidth 0) ∧ (busy pkg0).pins.startup ≠ 7 ∧ 0 ≠ fullWidth 0 ∧ 2 * 0 ≠ fullWidth 0 ∧ { linked0 with fails := 1 }.fails < 2 ∧
      2 ≤ { linked0 with fails := 2 }.fails ∧ { linked0 with st := .training }.st = .training) ∧
    ({ linked0 with testDue := true }.testDue = true ∧ (busy pkg0).dev.suspect = none) :=
  ⟨⟨⟨by decide, by decide, by decide⟩, by decide⟩, fun i h n => by unfold proofOk; rw [Bool.and_eq_true]; exact ⟨h, by rw [n]; decide⟩,
    ⟨by unfold proofOk; rw [Bool.and_eq_false_iff]; exact .inr (by decide), by decide⟩, by decide, rfl, by decide, by decide, by decide⟩

/-! ### Witnesses: hemline and Ethernet -/

def flow0 : Flow :=
  { st := .opened, kind := .dataset, port := 0, session := 1, payload := 4096, enc := false, stream := 3, farFlow := 9, farAddr := 77
    window := false, txNext := 0, out := [], cum := 0, sack := [], held := [], unacked := 0, ece := 0, fenceDone := 0, naks := []
    acks := 0, rate := 100000000, alpha := 1, good := 0, perAcked := 0, perEce := 0, backoff := 0, rtt := 0, lowered := none
    counts := [0, 0, 0, 0, 0], reason := .asked }
def sess0 : Session := { port := 0, ctrl := 5, prk := [], epoch := 0, grace := none, provisioning := false }
/-- `busy pkg0` with E0 up, a session, and flow `v` in context 5. -/
def withFlow (v : Flow) : State :=
  { busy pkg0 with host := { ports := [(0, { up := true })], flows := [(5, v)], sessions := [(1, sess0)] } }
def hem0 : HemHdr :=
  { type := .ctrl, fenceW := false, fenceAll := false, ackReq := false, enc := false, dstFlow := 9, psn := 0, srcFlow := 5
    length := 0, offset := 0, step := 0, epoch := 0 }
def out0 : TxPkt := { psn := 0, kind := .keyUpdate, hdr := hem0, payload := [] }
def heldW : HeldPkt := { psn := 0, fenceW := true, fenceAll := false, deps := [], act := .fence }

theorem frame0_ip : pkt0.frame.ip = linkLocal pkt0.port := by unfold pkt0 frame0; dsimp only
/-- `k` with the tag of its flow's session (R240, R372). -/
def tagged (k : Pkt) (y : HemType) (bs : List Byte) : Pkt := { k with tag := pktTag [] k y bs }
theorem tagged_good (k : Pkt) (y : HemType) (bs : List Byte) : (tagged k y bs).tag = pktTag [] (tagged k y bs) y bs := by
  unfold tagged pktTag pktNonce pktHead; rfl
/-- The next packet on context 5 with payload `bs`. -/
def pktFor (y : HemType) (bs : List Byte) : Pkt :=
  tagged { pkt0 with length := bs.length, frame := { frame0 with len := 118 + bs.length, udpLen := bs.length + 56 } } y bs
/-- A packet without a tag has a wrong one. -/
theorem untagged_bad (k : Pkt) (y : HemType) (bs : List Byte) (h : k.tag = []) : k.tag ≠ pktTag [] k y bs := by
  rw [h]; intro e
  have l := congrArg List.length e
  unfold pktTag gcmTag beBytes at l
  simp at l

theorem pktFor_ok (y : HemType) (bs : List Byte) (h : bs.length ≤ 4096) (v : Flow) : frameOk (withFlow v) (pktFor y bs) := by
  refine ⟨?_, ?_, ?_, ⟨rfl, .inr frame0_ip, rfl⟩, rfl, rfl⟩
  · show 118 + bs.length ≤ 9216; omega
  · show 0 + (118 + bs.length) ≤ 0x400000; omega
  · unfold frameVlan; split
    · intro i h; cases h
    · rename_i n; exact absurd rfl n
theorem pktFor_takes (y : HemType) (bs : List Byte) (h : bs.length ≤ 4096) (v : Flow) (e : v.st ≠ .failed) (p : v.port = 0)
    (f : v.farAddr = 77) (n : v.session = 1) : flowTakes (withFlow v) (pktFor y bs) v y bs := by
  refine ⟨rfl, pktFor_ok y bs h v, rfl, e, p, f, ?_, by rw [n]; rfl⟩
  unfold goodTag; rw [n]; exact tagged_good _ y bs
theorem pktFor_next (y : HemType) (bs : List Byte) (h : bs.length ≤ 4096) : plainNext (withFlow flow0) (pktFor y bs) flow0 y bs :=
  ⟨pktFor_takes y bs h flow0 (by decide) rfl rfl rfl, rfl, rfl, rfl, rfl, rfl, rfl, by show (0 : Nat) ≠ 2 ^ 31; decide⟩

theorem meets_PacketCheckResult :
    ((hostPortOf (withFlow flow0) pkt0.port).up = true ∧ flowOf (withFlow flow0) { pkt0 with dstFlow := 6 }.dstFlow = none) ∧
    (let k := fun f : FrameIn => { pkt0 with frame := f }
     ¬ frameShort (withFlow flow0) (k { frame0 with len := 9217 }) ∧ ¬ frameRoom (k { frame0 with fill := 0x400000 }) ∧
      ¬ frameVlan (withFlow flow0) (k { frame0 with vid := some 5 }) ∧
      ¬ frameOurs (withFlow flow0) (k { frame0 with mac := false }) ∧ ¬ frameFormed (k { frame0 with version := 2 })) ∧
    (frameOk (withFlow flow0) (pktFor .fence []) ∧ flow0.farAddr ≠ { frame0 with src := 78 }.src ∧
      { flow0 with kind := .ctrl }.kind = .ctrl ∧ flow0.kind ≠ .ctrl) ∧
    (¬ goodTag (withFlow flow0) pkt0 flow0 .fence [] ∧ goodTag (withFlow flow0) (pktFor .fence []) flow0 .fence []) ∧
    epochOk (withFlow flow0) flow0.session 1 = false ∧ flowTakes (withFlow flow0) (pktFor .fence []) flow0 .fence [] ∧
    ({ pkt0 with psn := 6 }.psn < { flow0 with cum := 7 }.cum ∧ 9 ∈ { flow0 with sack := [9] }.sack) ∧
    (flow0.cum + 1024 ≤ { pkt0 with psn := 1024 }.psn ∧ 1024 ∉ flow0.sack ∧ pkt0.rsv = false) ∧
    (flow0.cum ≤ 1023 ∧ 1023 < flow0.cum + 1024 ∧ 1023 ∉ flow0.sack) := by
  refine ⟨by decide, ⟨by unfold frameShort; decide, by unfold frameRoom; decide,
      fun h => absurd ((show ∀ i, some 5 = some i → i = 0 from h) 5 rfl) (by decide), fun h => absurd h.1 (by decide), fun h => absurd h.2 (by decide)⟩,
    ⟨pktFor_ok _ _ (by decide) _, by decide, rfl, by decide⟩, ⟨untagged_bad _ _ _ rfl, tagged_good _ _ _⟩, by decide,
    pktFor_takes _ _ (by decide) flow0 (by decide) rfl rfl rfl, by decide, by decide, by decide⟩

theorem meets_PacketActionResult :
    ((∀ bs, bs.length ≤ 4096 → ∀ y, plainNext (withFlow flow0) (pktFor y bs) flow0 y bs) ∧ flow0.kind = .dataset ∧ flow0.window = false ∧
      (withFlow flow0).snap.rest = none ∧ (withFlow flow0).job.pkg = some pkg0 ∧
      (∃ d, ingestStream pkg0 flow0.stream = some d ∧ 0 < d.slotBytes ∧ { pkt0 with offset := 0x10000 }.offset + 0x10000 ≤ d.slots * d.slotBytes ∧
        (beBytes 4 d.records).length ≤ 4096 ∧
        pkt0.step < (withFlow flow0).job.step + d.slots ∧ (withFlow flow0).job.step ≤ pkt0.step) ∧
      plainWrites (withFlow flow0)) ∧
    ((List.replicate 4096 0#8).length ≤ flow0.payload ∧ pkt0.offset % 64 = 0) ∧
    (∀ e ∈ (withFlow flow0).host.slots, ∀ n, e.2 ≠ .held n) ∧ flow0.acks < 2 ^ 31 ∧
    ((boxOf (withFlow flow0) 15).st = .free ∧ 4000 + [0#8].length ≤ 4096) ∧ flow0.out = [] ∧
    { flow0 with out := [out0] }.out ≠ [] ∧
    (plainNext (withFlow { flow0 with kind := .ctrl }) (pktFor .ctrl (ctrlInBytes 15 false false 4000 [0#8])) { flow0 with kind := .ctrl }
      .ctrl (ctrlInBytes 15 false false 4000 [0#8])) :=
  ⟨⟨fun bs h y => pktFor_next y bs h, rfl, rfl, rfl, rfl, ⟨_, rfl, by decide⟩,
      rfl, rfl, rfl, rfl, by decide, fun p h => by cases h; exact ⟨fun r hr => (by cases hr), fun l hl => (by cases hl)⟩⟩, ⟨by rw [List.length_replicate]; decide, rfl⟩,
    (fun e he => by cases he), by decide, by decide, rfl, by decide,
    pktFor_takes _ _ (by decide) _ (by decide) rfl rfl rfl, rfl, rfl, rfl, rfl, rfl, rfl, by show (0 : Nat) ≠ 2 ^ 31; decide⟩

def ack0 : AckBody := { cum := 0, ece := 0, nakCode := 0, nakPsn := 0, fenceDone := 0, sack := [] }
/-- An ACK packet, and one with a reserved bit set. -/
def pktAck (rsv : List Nat) : Pkt :=
  tagged { pkt0 with length := 144, rsvBits := rsv, frame := { frame0 with len := 262, udpLen := 200 } } .ack (ackInBytes ack0)
theorem pktAck_takes (rsv : List Nat) : flowTakes (withFlow flow0) (pktAck rsv) flow0 .ack (ackInBytes ack0) := by
  refine ⟨rfl, ⟨by show 262 ≤ 9216; decide, by show 0 + 262 ≤ 0x400000; decide, ?_, ⟨rfl, .inr frame0_ip, rfl⟩, rfl, rfl⟩,
    rfl, by decide, rfl, rfl, tagged_good _ _ _, rfl⟩
  unfold frameVlan; split
  · intro i h; cases h
  · rename_i n; exact absurd rfl n

theorem meets_FenceAndAckResult :
    (let v := { flow0 with cum := 1, held := [heldW] }
     flowOf (withFlow v) 5 = some v ∧ v.held.find? (fun x => x.psn == heldW.psn) = some heldW ∧ behindFence v heldW.psn = false ∧
      fenceMet (withFlow v) v heldW = true ∧ heldW.fenceAll = false ∧ heldW.fenceW = true) ∧
    (let h := { heldW with fenceAll := true }
     let v := { flow0 with cum := 1, held := [h] }
     v.held.find? (fun x => x.psn == h.psn) = some h ∧ behindFence v h.psn = false ∧ fenceMet (withFlow v) v h = true) ∧
    (flowTakes (withFlow flow0) (pktAck []) flow0 .ack (ackInBytes ack0) ∧ (pktAck []).rsv = false) ∧
    (flowTakes (withFlow flow0) (pktAck [1]) flow0 .ack (ackInBytes ack0) ∧ (pktAck [1]).rsv = true) :=
  ⟨by decide, by decide, ⟨pktAck_takes _, rfl⟩, pktAck_takes _, rfl⟩

theorem meets_FlowTimerResult :
    flowOf (withFlow flow0) 5 = some flow0 ∧ 0 < { flow0 with unacked := 1 }.unacked ∧ flow0.acks < 2 ^ 31 ∧
    ({ flow0 with out := [out0] }.out ≠ [] ∧ flow0.st ≠ .failed) ∧ ((hostPortOf (withFlow flow0) 0).up = true ∧ (hostPortOf (withFlow flow0) 0).paused = 0) ∧ ({ flow0 with perAcked := 4, perEce := 1 }.perAcked ≠ 0 ∧ flow0.perEce = 0) ∧
    { flow0 with st := .closing }.st = .closing ∧
    (let n : Snap := { id := 1, portable := false, layout := 0, frozen := false, session := 1, flows := [5], remote := 0, mailbox := 0
                       step := 0, captured := true, chunks := [], staged := [], unsent := [], manifest := 0, block := 0, variant := 0 }
     snapStarved { withFlow { flow0 with st := .failed } with snap := { snap := some n } } 5 = true) :=
  ⟨rfl, by decide, by decide, by decide, by decide, by decide, rfl, by decide⟩

/-- Context 5 as an EMIT flow of stream 4: the 64 bytes of the EMIT descriptor leave in one packet. -/
theorem meets_StreamMoverResult_flow :
    let v := { flow0 with kind := .emit, stream := 4 }
    streamRuns (withFlow v) pkg0 ∧ openFlows (withFlow v) .emit 4 = [5] ∧ v.st = .opened ∧ v.kind = .emit ∧
      (withFlow v).shut.movers = [] ∧ (chunks 4096 64 (memBytes (viewMem (withFlow v)) 4096 64)).length = 1 ∧
      v.txNext + 1 < 2 ^ 32 - 1 ∧ v.txNext + 1 ≤ 2 ^ 31 ∧ (hostPortOf (withFlow v) 0).paused = 0 :=
  ⟨⟨⟨rfl, by decide⟩, by decide⟩, by decide, rfl, rfl, rfl, by decide +kernel, by decide, by decide, rfl⟩

/-- E0 has address 10.0.0.1 in its IPv4-mapped form. -/
def sAddr : State :=
  { withFlow flow0 with mgmt := { settings := [(settingKey 0x137 0, { value := 0x0A000001, ext := 0xFFFF })] } }

theorem meets_EthernetAndLinkResult :
    ((hostPortOf sAddr 0).up = true ∧ 0x0A000001 + 0xFFFF * 2 ^ 32 ∈ portAddrs sAddr 0 ∧
      0x0A000002 + 0xFFFF * 2 ^ 32 ∉ portAddrs sAddr 0 ∧ linkLocal 0 = linkLocal 0) ∧
    (∃ n, n ≠ linkLocal 0 ∧ n ∉ portAddrs sAddr 0) ∧
    (sAddr.nowUs < (hostPortOf sAddr 0).second + 1000000 ∧ 100 ≤ { hostPortOf sAddr 0 with echoes := 100 }.echoes ∧ (hostPortOf sAddr 0).echoes < 100 ∧ (hostPortOf sAddr 0).paused = 0) ∧
    Nat.land 0 (setting sAddr 0x135 0) = 0 ∧
    ((setting sAddr 0x130 0 < 9217 ∧ ¬ setting sAddr 0x130 0 < frame0.len) ∧ (0x400000 < 0x400000 + frame0.len ∧ ¬ 0x400000 < frame0.fill + frame0.len) ∧
      setting sAddr 0x131 0 = 0 ∧ frame0.mac = true ∧ frame0.ip = linkLocal 0 ∧ (hostPortOf sAddr 0).rxFill ≤ 0x300000) ∧
    (setting { sAddr with mgmt := { settings := [(settingKey 0x134 0, { value := 1 })] } } 0x134 0 = 1 ∧ setting sAddr 0x134 0 ≠ 1) ∧
    hostLanes { sAddr with pins := { sAddr.pins with pwrGood := true } } = true := by
  refine ⟨⟨by decide, by decide, by decide, rfl⟩, ?_, by decide, by decide,
    ⟨by decide, by decide, rfl, rfl, frame0_ip, by decide⟩, by decide, by decide⟩
  by_cases h : 0 = linkLocal 0
  · exact ⟨1, by rw [← h]; decide, by decide⟩
  · exact ⟨0, h, by decide⟩

def half0 : HalfOpen :=
  { port := 0, addr := 77, ctrlFlow := 2, flow := 6, prior := [], prk := [], chain := [] }
def sHalf : State :=
  { withFlow flow0 with host := { (withFlow flow0).host with half := [half0] } }

/-- A SETUP in its frame; an ephemeral key that is a point of the curve: its base point. -/
def setupIn : Setup := { setup0 with frame := { frame0 with udpLen := 152 }, ephemeral := ecBytes (some p384g) }
theorem setupIn_arrives : setupArrives sHalf setupIn := by
  refine ⟨rfl, by decide, by decide, ?_, rfl, .inr frame0_ip, rfl, rfl, rfl⟩
  split
  · intro i h; cases h
  · rename_i n; exact absurd rfl n
theorem base_point : validPoint (ecBytes (some p384g)) = true := by decide +kernel

/-- Whether a client's chain is accepted and its FINISH checks are uninterpreted (log entry 5): of two clauses each names an
answer, and one of them is met. -/
theorem meets_SessionResult :
    ((({} : Mailbox)).st = .free ∧ { ({} : Mailbox) with st := .claimed 1 }.st = .claimed 1 ∧
      { ({} : Mailbox) with st := .busy 1, rung := true }.st = .busy 1 ∧ ({} : Mailbox).orphan = false) ∧
    (setupArrives sHalf setupIn ∧ setupWithin { sHalf with nowUs := 2000000 } setupIn ∧
      ¬ setupWithin { sHalf with host := { sHalf.host with ports := [(0, { up := true, setups := 10 ^ 9 })] } } setupIn ∧
      sHalf.host.half.length < 16 ∧ sHalf.host.sessions.length < 64 ∧
      halfOf sHalf setupIn = some half0 ∧ halfOf sHalf { setupIn with frame := { frame0 with src := 9 } } = none ∧
      sHalf.host.flows.length + sHalf.host.half.length < flowContexts) ∧
    (¬ noOwner { sHalf with pins := { sHalf.pins with slotId := 0x3F } } ∧ noOwner { sHalf with pins := { sHalf.pins with slotId := 3 } }) ∧
    (validPoint setupIn.ephemeral = true ∧ validPoint setup0.ephemeral = false ∧ setupIn.chain.length ≤ 7936) ∧
    (∀ c k m g, (clientOk sHalf c = true ∨ clientOk sHalf c = false) ∧ (verify k m g = true ∨ verify k m g = false)) ∧
    (tabFind sHalf.host.sessions 1 = some sess0 ∧ { sess0 with epoch := 0xFFFE }.epoch < 0xFFFF ∧
      { sess0 with grace := some 0 }.grace = some 0) := by
  refine ⟨by decide, ⟨setupIn_arrives, by unfold setupWithin; decide, by unfold setupWithin; decide, by decide, by decide, by decide,
    by decide, by decide⟩, ⟨by unfold noOwner; decide, by unfold noOwner; decide⟩, ⟨base_point, by decide +kernel, by decide⟩,
    fun c k m g => ⟨?_, ?_⟩, by decide⟩
  · cases clientOk sHalf c <;> decide
  · cases verify k m g <;> decide

/-! ### Single steps: results computed by hand from the spec -/

/-- The next state, if the outcome is one. -/
def nxt (o : Host.Outcome State Fault Refusal) : Option State := match o with
  | .next t => some t
  | _ => none
/-- What `f` reads in the next state. -/
def after {α : Type} (o : Host.Outcome State Fault Refusal) (f : State → α) : Option α := (nxt o).map f
/-- V1 and P1 of the first lane of panel 0. -/
def v1 (t : State) : Option W32 := (panelOf t 0).chain.bind (fun c => c.lanes[0]?.bind (fun l => l.v[1]?))
def p1 (t : State) : Option Bool := (panelOf t 0).chain.bind (fun c => c.lanes[0]?.bind (fun l => l.p[0]?))
/-- A chain whose lane 0 has V2 = 1.5, V3 = 2.25, V4 = −0.5. -/
def sVals : State :=
  onPanel { chain := some { chain0 with
    lanes := [{ lane0 with v := [0#32, 0#32, 0x3FC00000#32, 0x40100000#32, 0xBF000000#32] ++ List.replicate 11 0#32 }] } }

-- R101: 1.5 + 2.25 = 3.75; 1.5 − 2.25 = −0.75; 1.5 × 2.25 = 3.375; 1.5 × 2.25 − 0.5 = 2.875; |1.5|; −1.5.
theorem test_fadd : after (exec (.fadd 0 nargs) sVals) v1 = some (some 0x40700000#32) := by decide
theorem test_fsub : after (exec (.fsub 0 nargs) sVals) v1 = some (some 0xBF400000#32) := by decide
theorem test_fmul : after (exec (.fmul 0 nargs) sVals) v1 = some (some 0x40580000#32) := by decide
theorem test_ffma : after (exec (.ffma 0 nargs) sVals) v1 = some (some 0x40380000#32) := by decide
theorem test_fneg : after (exec (.fneg 0 nargs) sVals) v1 = some (some 0xBFC00000#32) := by decide
theorem test_fabs : after (exec (.fabs 0 { nargs with va := 4 }) sVals) v1 = some (some 0x3F000000#32) := by decide
theorem test_fmin : after (exec (.fmin 0 { nargs with va := 4 }) sVals) v1 = some (some 0xBF000000#32) := by decide
theorem test_fmax_imm : after (exec (.fmax 0 { nargs with bimm := true, imm := 0x40400000#32 }) sVals) v1 =
    some (some 0x40400000#32) := by decide
-- R101: FCMP writes a predicate by SUB: 0 equal, 1 less. V2 is less than V3.
theorem test_fcmp : after (exec (.fcmp 0 { nargs with sub := 1 }) sVals) p1 = some (some true) := by decide
-- R101: IADD wraps modulo 2^32; a shift takes the low 5 bits of its amount.
theorem test_iadd_wraps : after (exec (.iadd 0 { nargs with va := 4, bimm := true, imm := 0x41000001#32 }) sVals) v1 =
    some (some 1#32) := by decide
theorem test_ishl_amount : after (exec (.ishl 0 { nargs with bimm := true, imm := 33#32 }) sVals) v1 =
    some (some 0x7F800000#32) := by decide
theorem test_ishr : after (exec (.ishr 0 { nargs with bimm := true, imm := 28#32 }) sVals) v1 = some (some 3#32) := by decide
-- R40, R101: F2I rounds 2.25 to 2 and saturates; I2F of −1 is −1.0.
theorem test_f2i : after (exec (.f2i 0 { nargs with va := 3 }) sVals) v1 = some (some 2#32) := by decide
-- R33, R101: 1.00390625 lies halfway between two L16 values; the even one is 1.0.
theorem test_cvt16_even : l16ToF32 (l16OfF32 0x3F808000#32) = 0x3F800000#32 := by decide
-- R99: a lane whose predicate is clear keeps its register.
theorem test_fcmp_equal : after (exec (.fcmp 0 { nargs with sub := 0 }) sVals) p1 = some (some false) := by decide
theorem test_predicated : after (exec (.fadd 0 { nargs with pred := 1 }) sVals) v1 = some (some 0#32) := by decide

-- R113: RFIN_MEAN adds PART into TOTAL and multiplies by INV_N = 1.0; RCLR clears.
theorem test_rfin_mean :
    after (exec (.rfinMean (slot 4)) (onPanel { rows := [(8190, { total := 0x3F800000#32, part := 0x40000000#32, seen := true })] }))
      (fun t => (pocketRow t 0 8190).result) = some 0x40400000#32 := by decide
-- R112: a record sent to its own panel's partner arrives with PART in TOTAL.
theorem test_rchain_recv :
    after (exec (.rchainRecv (slot 4)) (onPanel { rowIn := [(1, { total := 5#32 }), (1, { total := 6#32 })] }))
      (fun t => ((pocketRow t 0 8190).total, (pocketRow t 0 8191).total)) = some (5#32, 6#32) := by decide

-- R171: COPY moves its 64 bytes: both addresses are in units of 256 bytes.
theorem test_copy :
    after (exec (.copy (mov 8)) { busy pkg0 with mem := memPut [] 4096 [1#8, 2#8] }) (fun t => memBytes t.mem 0x1100 3) =
      some [1#8, 2#8, 0#8] := by decide

-- R167: a LOOP with counter 2 jumps and leaves 1; with counter 1 it falls through.
theorem test_loop :
    after (exec (.loop 0 7 3) { busy pkg0 with shut := { ctrs := [2, 0, 0, 0], addr := 9 } }) (fun t => (t.shut.addr, t.shut.ctrs)) =
      some (7, [1, 0, 0, 0]) ∧
    after (exec (.loop 0 7 3) { busy pkg0 with shut := { ctrs := [1, 0, 0, 0], addr := 9 } }) (fun t => (t.shut.addr, t.shut.ctrs)) =
      some (10, [0, 0, 0, 0]) := by decide +kernel
-- R165: a stitch takes one cycle and its GAP.
theorem test_next_gap : after (exec (.next 3) (busy pkg0)) (fun t => (t.shut.addr, t.shut.cycles)) = some (1, 4) := by decide +kernel
-- R74: NMICRO is 2, so MICRO 0 goes to 1, and adding once more stops the job.
theorem test_micro :
    after (exec .microAdd { busy pkg0 with shut := { micro := 0 } }) (fun t => t.shut.micro) = some 1 ∧
    after (exec .microAdd { busy pkg0 with shut := { micro := 1 } }) (fun t => t.job.fault) = some (some .microLimit) := by decide
-- R180: the step counter moves at STEP_CLOSE; it waits while an APPLY is open.
theorem test_step_close :
    after (exec (.stepClose 0) { busy pkg0 with fence := { passed := true } }) (fun t => t.job.step) = some 1 ∧
    after (exec (.stepClose 0) (withMovers [mover0 .apply])) (fun t => (t.job.step, t.shut.movers.length)) = some (0, 1) := by decide

-- R216: a flit out of sequence is discarded and asks for a NAK.
theorem test_out_of_sequence :
    after (exec (.gateFlit 0 { hdr0 with seq := 5 } false) (withPort member0)) (fun t => ((portOf t 0).nak, (portOf t 0).rxNext)) =
      some (true, 0) := by decide +kernel
-- R216: one in sequence is accepted.
theorem test_in_sequence :
    after (exec (.reservedFlit 0 { hdr0 with type := 7 }) (withPort member0)) (fun t => ((portOf t 0).rxNext, (portOf t 0).stat.rxFlits)) =
      some (1, 1) := by decide +kernel
-- R254: a frame of another VLAN counts in VLAN, and its packet does nothing.
theorem test_vlan_drop :
    after (exec (.hemlineFence { pkt0 with frame := { frame0 with vid := some 5 } }) sAddr)
      (fun t => ((hostPortOf t 0).stat.vlan, (flowOf t 5).map (fun v => v.cum))) = some (1, some 0) := by decide +kernel

-- R387: with the latch set 72 V does not bring the module up.
theorem test_latch :
    after (exec (.power72vPresent ⟨3, false⟩) { State.reset with pins := { latch := true } }) (fun t => t.dev.st) = some .off ∧
    after (exec (.power72vPresent ⟨3, false⟩) State.reset) (fun t => (t.dev.st, t.pins.slotId)) = some (.standby, 3) := by decide
-- R394: IDCODE.
theorem test_idcode : after (exec .idcode { State.reset with pins := { v72 := true } }) (fun t => t.pins.tapDr) = some 0x1A9094C7 := by
  decide
-- R221: twice the base point of P-384, from the standard.
theorem test_p384_double : ecAdd (some p384g) (some p384g) =
    some (0x08D999057BA3D2D969260045C55B97F089025959A6F434D651D207D19FB96E9E4FE0E86EBE0E64F85B96A9C75295DF61,
      0x8E80F1FA5B1B3CEDB7BFE8DFFD6DBA74B275D875BC6CC43E904E505F256AB4255FFD43E94D39E22D61501E700A940E80) := by decide +kernel
-- A block's step takes the front of its queue.
theorem test_step_front :
    after (step { State.reset with pending := [.idcode, .bypass] }) (fun t => t.pending) = some [.bypass] := by decide
theorem test_step_idle : State.reset.pending = [] := by decide

/-! ### A job package that passes every check -/

/-- Zero bytes. -/
def z (n : Nat) : List Byte := List.replicate n 0#8
/-- A package of one rank: three stitches (STEP_OPEN, FENCE, STEP_CLOSE with HALT), one panel set, one empty descriptor,
one variant at G1 with its three grade points, and the fabric plan (R165, R170, R171, R178, R181, R225). -/
def pkgBytes : List Byte :=
  words [0x4B574C39, 1, 1, 1, 1, 3, 1, 3, 0, 0, 0, 0, 6, 0, 0, 0] ++
  words [1, 0, 160, 384, 2, 0, 544, 64, 3, 0, 608, 64, 7, 0, 672, 32, 8, 0, 704, 12, 12, 0, 716, 808] ++
  words [3 * 2 ^ 26] ++ z 124 ++ words [4 * 2 ^ 26, 1] ++ z 120 ++ words [5 * 2 ^ 26 + 4, 2] ++ z 120 ++
  words [1] ++ z 124 ++ words [1] ++ z 32 ++ words [1, 2, 0x10100] ++ z 12 ++ words [7] ++ z 780 ++ words [1, 1]
/-- A device that is READY. -/
def ready : State :=
  { State.reset with dev := { st := .ready }, pins := { v72 := true, rails := [.vser, .vcore], pwrGood := true, verified := true, startup := 9 } }
/-- Mailbox 0 holds a rung request of session 1. -/
def asks (s : State) (op : Nat) (body : List Byte) : State :=
  { s with mgmt := { s.mgmt with rings := [0], boxes := [(0,
    { st := .busy 1, rung := true, req := memPut [] 0 (leBytes 4 op ++ leBytes 4 body.length ++ leBytes 8 0 ++ body) })] } }
/-- The window of its load, all bytes received. -/
def window0 : LoadWindow :=
  { kind := 0, session := 1, len := 1524, stream := 0, start := 0, digest := sha384 pkgBytes, got := [(0, 1524)], buf := [] }
/-- The package has been loaded; its JOB_LOAD_COMMIT is rung. -/
def shelf : State := asks { ready with mem := memPut [] (snapShareAddr ready 0) pkgBytes, load := some window0 } 0x101 []
/-- A state that holds no write and whose memory holds no error reads its memory. -/
theorem viewMem_plain {s : State} (c : memClean s = true) (h : s.snap.heldWrites = []) : viewMem s = s.mem := by
  simp [viewMem, decodedMem, heldIn, c, h]
theorem shelf_bytes : packageBytes shelf 1524 = pkgBytes := by
  have l : pkgBytes.length = 1524 := by decide +kernel
  have b := memBytes_memPut [] (snapShareAddr ready 0) pkgBytes
  rw [l] at b
  have e : packageBytes shelf 1524 = memBytes (memPut [] (snapShareAddr ready 0) pkgBytes) (snapShareAddr ready 0) 1524 := by
    unfold packageBytes memBytes
    apply List.map_congr_left
    intro i hi
    have hi : i < 1524 := by simpa using hi
    have a : snapShareAddr shelf i = snapShareAddr ready 0 + i := by
      have n : max (snapShareBytes shelf) 1 = 134217728 := by decide
      have n' : max (snapShareBytes ready) 1 = 134217728 := by decide
      have x : i / 134217728 = 0 := by omega
      have y : i % 134217728 = i := by omega
      unfold snapShareAddr; dsimp only; rw [n, n', x, y]; rfl
    have v : viewMem shelf = shelf.mem := viewMem_plain rfl rfl
    have w : shelf.mem = memPut [] (snapShareAddr ready 0) pkgBytes := by unfold shelf asks; with_reducible rfl
    rw [a, v, w]
  rw [e, b]
theorem shelf_front : frontFail pkgBytes = none := by decide +kernel
theorem shelf_entry : entryFail shelf pkgBytes = none := by decide +kernel
theorem shelf_cross : 
    let dir := readDirectory pkgBytes
    let p := readPackage pkgBytes
    panelSetFails dir p ++ fitFails dir p ++ kindFails dir p ++ operandFails dir p ++ variantFails dir p ++ openFails pkgBytes dir p
    ++ pointFails pkgBytes dir p ++ chainFails dir p ++ applyFails dir p ++ spoolFails dir p ++ layerFails dir p ++ addressFails dir p
    ++ writeFails dir p ++ mapFails dir p = [] := by decide +kernel
theorem shelf_sched : schedFails (readDirectory pkgBytes) (readPackage pkgBytes) = [] := by decide +kernel
theorem shelf_variants : (readPackage pkgBytes).variants.map (fun v => v.grade) = [1] := by decide +kernel
/-- The package passes where the module's grade 1 is available: V_cal is each module's own (log entry 4). -/
theorem shelf_fits (h : vCal 1 ≤ 640) : packageFail shelf pkgBytes = none := by
  have g : gradeFails shelf (readDirectory pkgBytes) (readPackage pkgBytes) = [] := by
    have a : gradeAvailable shelf 1 = true := decide_eq_true (by show vCal 1 + 40 + 0 ≤ 680; omega)
    have b : setting shelf 0x144 0 = 0 := by decide
    have c : (readPackage pkgBytes).variants.any (fun v => gradeAvailable shelf v.grade) = true := by
      obtain ⟨v, hv, hg⟩ := List.map_eq_singleton_iff.mp shelf_variants
      rw [hv]; simp [hg, a]
    unfold gradeFails failIf; rw [c, b]; rfl
  unfold packageFail; rw [shelf_front, shelf_entry]; dsimp only
  have := shelf_cross; dsimp only at this
  unfold crossFails; dsimp only; rw [this, g, shelf_sched]; rfl

/-! ### Witnesses: requests -/

def held : State := { busy pkgVar with job := { pkg := some pkgVar, held := true } }
def online (s : State) : State := { s with host := { ports := [(0, { up := true })], flows := [(5, flow0)], sessions := [(1, sess0)] } }

theorem meets_RequestCheckOrder :
    (atHead (asks ready 1 []) 0 (plain .identify 1 0) ∧ (∃ r ∈ requests, r.op = 1)) ∧
    bodyLen 0 (asks ready 1 [0#8]) (boxOf (asks ready 1 [0#8]) 0) = false ∧
    (let b := boxOf (asks ready 0x403 (words [2])) 0
     reqLen b ≤ 4080 ∧ reqDrain.len ready b = true ∧ reqDrain.rsv b = true) ∧
    (let b := boxOf (asks ready 0x102 []) 0
     reqRelease.len ready b = true ∧ hdrRsv b = false ∧ reqRelease.rsv b = false ∧
       stateFault (asks ready 0x102 []) b reqRelease.st = some .wrongState) ∧
    (let s := asks ready 0x7FFF []
     s.mgmt.rings.head? = some 0 ∧ (boxOf s 0).rung = true ∧ (boxOf s 0).orphan = false ∧ opKnown (reqOp (boxOf s 0)) = false) := by
  unfold atHead; decide

theorem meets_StatusRequestsResult :
    ∀ e ∈ [(asks ready 1 [], plain .identify 1 0), (asks ready 0x104 [], plain .jobStatus 0x104 0),
        (asks ready 0x502 [], plain .sensorRead 0x502 0), (asks ready 0x504 (words [0, 169]), counted .lifetimeRead 0x504 8 4 169),
        (asks ready 0x605 (words [0, 339]), counted .calRead 0x605 8 4 339),
        (asks ready 0x900 (words [0, 4076]), counted .certRead 0x900 8 4 4076),
        (asks ready 0x901 (words [1, 0, 0, 0, 0, 0, 0, 0]), plain .attest 0x901 32), (asks ready 0x909 [], plain .fwStatus 0x909 0),
        (asks ready 0x604 (words [1, 0x140]), reqConfigGet)], accepted e.1 0 e.2 := by
  unfold accepted atHead; decide
theorem meets_StatusRequestsResult_settings : knownSetting 0x140 0 = true ∧ knownSetting 0xFFFF 0 = false ∧
    reqBytes (boxOf (asks ready 0x901 (words [1, 0, 0, 0, 0, 0, 0, 0])) 0) 0 32 ≠ List.replicate 32 0#8 := by decide

def sMark : State := { ready with mgmt := { markNext := 2, marks := [⟨1, 3, 0, [], []⟩] } }
theorem meets_RecordRequestsResult :
    (∀ e ∈ [(asks ready 0x700 (words [0, 0, 127, 0xFFFF]), reqEvents), (asks ready 0x703 (words [0, 0, 126]), reqFray),
        (asks ready 0x704 (words [0, 63]), counted .verdictRead 0x704 8 4 63),
        (asks ready 0x705 (words [0, 63]), counted .drainRecordRead 0x705 8 4 63),
        (asks ready 0x90A (words [0, 18]), counted .clearRecordRead 0x90A 8 4 18),
        (asks ready 0x709 (words [255, 0, 127]), counted .traceRead 0x709 12 8 127),
        (asks ready 0x709 (words [256, 0, 127]), counted .traceRead 0x709 12 8 127),
        (asks (online ready) 0x202 (words [5]), plain .flowStatus 0x202 4),
        (asks sMark 0x702 (words [1, 1, 193, 63]), reqCounters)], accepted e.1 0 e.2) ∧
    ownFlow (asks (online ready) 0x202 (words [5])) (boxOf (asks (online ready) 0x202 (words [5])) 0) 5 = some flow0 ∧
    classUnits 0 = 0 ∧ (classUnits 1 ≠ 0 ∧ 193 + 63 ≤ classUnits 1 ∧ 1 < sMark.mgmt.markNext) ∧ markComplete ⟨1, 3, 0, [], []⟩ = false ∧
    markComplete ⟨1, 3, 0, List.replicate 1186 (1, 0, []), []⟩ = true := by
  unfold accepted atHead; refine ⟨by decide, by decide, by decide, by decide, by decide, ?_⟩
  unfold markComplete; rw [List.length_replicate]; decide

theorem meets_LoadRefusedWhileBusy :
    (let s := asks (busy pkg0) 0x101 []
     atHead s 0 reqLoadCommit ∧ reqLen (boxOf s 0) ≤ 4080 ∧ reqLoadCommit.len s (boxOf s 0) = true ∧ hdrRsv (boxOf s 0) = false ∧
      reqLoadCommit.rsv (boxOf s 0) = false ∧ opAllowed s (boxOf s 0) = true ∧ s.dev.st = .running) ∧
    (let s := asks { busy pkg0 with dev := { st := .filling } } 0x100 (words (List.replicate 16 0))
     atHead s 0 reqLoadBegin ∧ reqLoadBegin.len s (boxOf s 0) = true ∧ s.dev.st = .filling ∧ jobLoaded s = true) := by
  unfold atHead; decide +kernel

theorem meets_LoadRequestsResult :
    (let s := asks ready 0x100 (words (1524 :: List.replicate 15 0))
     accepted s 0 reqLoadBegin ∧ s.load = none ∧ loadWaits s = false ∧ 0 < windowLen (boxOf s 0) ∧
      windowLen (boxOf s 0) ≤ 128 * snapShareBytes s ∧ accepted (asks ready 0x100 (words (List.replicate 16 0))) 0 reqLoadBegin) ∧
    (let s := asks ready 0x108 (words (64 :: List.replicate 15 0))
     accepted s 0 reqBaseBegin ∧ (256 * reqWord (boxOf s 0) 8) % 0x10000 = 0 ∧
      256 * reqWord (boxOf s 0) 8 + windowLen (boxOf s 0) ≤ lpddrEnd ∧ meetsStaging s (256 * reqWord (boxOf s 0) 8) 64 = false) ∧
    accepted (asks ready 0x101 []) 0 reqLoadCommit ∧ coversTo [(0, 1523)] 1524 = false := by
  unfold accepted atHead; decide +kernel

theorem window0_digest : window0.digest = sha384 pkgBytes := by unfold window0; with_reducible rfl

theorem meets_LoadRequestsResult_package :
    accepted shelf 0 reqLoadCommit ∧ received shelf window0 0 ∧ sha384 (packageBytes shelf window0.len) = window0.digest ∧
    (vCal 1 ≤ 640 → packageFail shelf (packageBytes shelf window0.len) = none) ∧ mustFit shelf = false ∧
    unmatched shelf (readPackage pkgBytes) = [] ∧ shelf.base = none ∧ packageFail shelf [] = some ⟨0, 0, 0, .badPackage⟩ := by
  have e : packageBytes shelf window0.len = pkgBytes := shelf_bytes
  refine ⟨by unfold accepted atHead; decide +kernel, ⟨rfl, rfl, by decide, by decide⟩, by rw [e, window0_digest],
    by rw [e]; exact shelf_fits, by decide, by decide +kernel, rfl, by decide⟩

theorem meets_LoadRequestsResult_others :
    (let w := { window0 with kind := 1, len := 0 }
     let s := asks { ready with load := some w } 0x109 []
     accepted s 0 reqBaseCommit ∧ received s w 1) ∧
    mustFit { shelf with ports := [(0, { st := .training })], pins := { shelf.pins with upAt := some 0 } } = true ∧
    unmatched shelf { pkg0 with plan := { plan0 with ports := [⟨1, 0, 1, 5, 0⟩] } } = [0] :=
  ⟨⟨by unfold accepted atHead; decide +kernel, rfl, rfl, by decide, by decide⟩, by decide, by decide⟩

theorem meets_JobReleaseAndEnd :
    (accepted (asks held 0x102 []) 0 reqRelease ∧ held.job.invalid = false) ∧
    (accepted (asks (busy pkg0) 0x103 (words [1])) 0 reqJobEnd ∧ (busy pkg0).job.held = false) ∧
    (accepted (asks held 0x103 (words [0])) 0 reqJobEnd ∧ mayEnd held) ∧
    accepted (asks { ready with dev := { st := .filling } } 0x103 (words [0])) 0 reqJobEnd := by
  unfold accepted atHead mayEnd; decide

/-- A variant of the recipe is available where the module's grade 1 is (log entry 4). -/
theorem meets_RecipeFlagsRemapResult :
    (accepted (asks (busy pkgVar) 0x105 (words [0])) 0 reqRecipe ∧ (busy pkgVar).job.pkg = some pkgVar ∧
      compiled (busy pkgVar) pkgVar 1 false = [] ∧ (vCal 1 ≤ 640 → compiled (busy pkgVar) pkgVar 0 false ≠ [])) ∧
    (accepted (asks (busy pkg0) 0x106 (words [0x3FBFF, 0xFFFF])) 0 reqFlags ∧
      accepted (asks (busy pkg0) 0x106 (words [1, 4095])) 0 reqFlags ∧ 4095 < tensorTags) ∧
    (accepted (asks held 0x107 (words (List.replicate 16 1))) 0 reqRemap ∧ held.dev.st ≠ .filling ∧
      pkgVar.plan.ranks[1]? = some (1, false) ∧ pkgVar.plan.ranks[2]? = none ∧
      ∀ q ∈ allPorts, carries (portOf held q) (remapOf (boxOf (asks held 0x107 (words (List.replicate 16 1))) 0)) = false) := by
  refine ⟨⟨by unfold accepted atHead; decide, rfl, by decide, fun h => ?_⟩, by unfold accepted atHead; decide +kernel,
    by unfold accepted atHead; decide +kernel⟩
  have a : gradeAvailable (busy pkgVar) 1 = true := decide_eq_true (by show vCal 1 + 40 + 0 ≤ 680; omega)
  have e : compiled (busy pkgVar) pkgVar 0 false = [(0, var0)] := by
    show [((var0, 0) : Variant × Nat)].filterMap _ = _
    rw [List.filterMap_cons_some (b := (0, var0)) (by
      dsimp only; rw [show gradeAvailable (busy pkgVar) var0.grade = true from a]; rfl)]; rfl
  rw [e]; exact List.cons_ne_nil _ _

def strangerPort : SeamPort := { st := .stranger, far := some ident0 }
theorem meets_RecipeFlagsRemapResult_port :
    (∃ r : Remap, r.rank = 1 ∧ carries strangerPort r = true) ∧ bindable strangerPort = true ∧
    (let v := { strangerPort with st := .member, peerRank := some 2 }
     ∃ r : Remap, r.rank = 1 ∧ carries v r = true ∧ bindable v = false ∧ v.peerRank ≠ some r.rank ∧
      { v with peerRank := some 1 }.peerRank = some r.rank) :=
  ⟨⟨{ rank := 1, id := 5, key := sha384 ident0.pubkey, sw := 0 }, rfl, by simp [carries, strangerPort, ident0]⟩, by decide,
    { rank := 1, id := 5, key := sha384 ident0.pubkey, sw := 0 }, rfl, by simp [carries, strangerPort, ident0], by decide⟩

theorem meets_FlowRequestsResult :
    (let s := asks (online (busy pkg0)) 0x200 (words [1, 0, 4096, 0, 0, 0, 0, 0, 9, 3])
     let r := openReq (boxOf s 0)
     accepted s 0 (plain .flowOpen 0x200 40) ∧ mayOpen s r = true ∧ openRange s r = true ∧ sessionFlows s 1 < 16384 ∧
      streamFlows s (kindOf r.kind) r.stream < 64 ∧ (freeContext s).isSome = true) ∧
    mayOpen ready (openReq {}) = false ∧ openRange (busy pkg0) (openReq {}) = false ∧
    (let s := asks (online (busy pkg0)) 0x201 (words [5])
     accepted s 0 (plain .flowClose 0x201 4) ∧ ownFlow s (boxOf s 0) 5 = some flow0 ∧ flow0.kind ≠ .ctrl ∧ s.job.endDue = false ∧
      ownFlow s (boxOf s 0) 6 = none) ∧
    (flow0.st = .opened ∧ flow0.out = [] ∧ flow0.held = [] ∧ { flow0 with out := [out0] }.out ≠ []) ∧
    (let s := asks (online ready) 0x903 []
     accepted s 0 (plain .keyUpdate 0x903 0) ∧ tabFind s.host.sessions (fromSession (boxOf s 0)) = some sess0 ∧ sess0.epoch < 0xFFFF ∧
      sess0.grace = none ∧ (flowOf s sess0.ctrl = some flow0 ∧ flow0.txNext + 16 ≤ 2 ^ 31) ∧
      0xFFFF ≤ { sess0 with epoch := 0xFFFF }.epoch ∧ { sess0 with grace := some 0 }.grace.isSome = true) := by
  unfold accepted atHead; decide
theorem meets_FlowRequestsResult_end :
    let s := asks (online ready) 0x904 []
    accepted s 0 (plain .sessionEnd 0x904 0) ∧ (tabFind s.host.sessions (fromSession (boxOf s 0))).isSome = true ∧
      ∀ e ∈ s.host.flows, e.2.session = fromSession (boxOf s 0) → e.2.held = [] := by
  unfold accepted atHead
  exact ⟨by decide, by decide, fun e h _ => by cases h with | head => rfl | tail _ h => cases h⟩

/-! ### Witnesses: snapshots, device, settings, trust -/

def snapFlow : Flow := { flow0 with kind := .snapshot }
def snap0 : Snap :=
  { id := 1, portable := false, layout := 0, frozen := false, session := 1, flows := [5], remote := 0, mailbox := 0, step := 0
    captured := true, chunks := [], staged := [], unsent := [], manifest := 0, block := 0, variant := 0 }
def chunk0 : Chunk := { off := 0, region := 0, entry := 0, len := 64, index := 0, digest := 0, st := 0 }
def man0 : Manifest :=
  { ok := true, portable := false, layout := 0, snapId := 1, step := 0, rank := 0, nranks := 2, variant := 0, pkgDigest := 0
    baseDigest := 0, streams := [], chunks := [chunk0, chunk0], cert := [], signature := [], signed := [] }
def rest0 : RestoreRun :=
  { snapId := 1, stream := 0, authoritative := false, overrides := none, mlen := 8, mbuf := [], mgot := [], man := some man0
    step := 0, lines := [(0, [0])], matched := [1] }
def snapBody : List Byte := words ([1, 0, 2 ^ 31 + 5] ++ List.replicate 13 0)
def withSnapFlow (s : State) : State := { s with host := { flows := [(5, snapFlow)], sessions := [(1, sess0)] } }

theorem meets_SnapshotRequestsResult :
    (let s := asks (withSnapFlow (busy pkg0)) 0x300 snapBody
     accepted s 0 reqSnapshot ∧ snapAsked s (boxOf s 0) ∧ s.job.invalid = false ∧ s.job.held = false) ∧
    (let s := asks (withSnapFlow held) 0x300 snapBody
     accepted s 0 reqSnapshot ∧ snapAsked s (boxOf s 0) ∧ s.job.held = true) ∧
    (snapFlowOk (busy pkg0) 1 5 = false ∧ (withSnapFlow { busy pkg0 with job := { pkg := some pkg0, invalid := true } }).job.invalid = true) ∧
    (let s := asks { busy pkg0 with snap := { snap := some snap0 } } 0x301 []
     accepted s 0 reqCancel ∧ s.snap.snap.isSome = true ∧ s.snap.heldWrites = []) := by
  unfold accepted atHead snapAsked; decide +kernel

theorem meets_RestoreAndCopyResult :
    (let s := asks held 0x302 (words [1, 0, 0x1000000, 0])
     accepted s 0 reqRestore ∧ s.job.pkg = some pkgVar ∧ reqWord (boxOf s 0) 8 = 0x1000000 ∧ usesStream pkgVar 0 = false) ∧
    (let s := { busy pkg0 with snap := { snap := some snap0, guarded := [3] } }
     s.snap.snap = some snap0 ∧ nextPage s = some 3 ∧ s.snap.guarded.head? = some 3 ∧ memClean s = true ∧ s.snap.heldWrites = [] ∧
      (stageSlot s snap0 (stageChannel 3)).isSome = true ∧
      stageSlot { s with mgmt := { settings := [(settingKey 0x120 0, { value := 0 })] } } snap0 (stageChannel 3) = none) ∧
    (let s := { held with snap := { rest := some rest0 } }
     s.snap.rest = some rest0 ∧ rest0.man = some man0 ∧ man0.chunks[0]? = some chunk0 ∧
      64 * (tabGet [] rest0.lines 0).length = chunk0.len ∧ 0 ∉ rest0.matched ∧ memClean s = true ∧ heldCases s = false) ∧
    heldCases { withHub { cases := [case0] } with snap := { rest := some rest0 } } = true ∧
    (∀ j, j < man0.chunks.length → j = 0 ∨ j ∈ rest0.matched) ∧ (∃ j, j < man0.chunks.length ∧ j ≠ 0 ∧ j ∉ { rest0 with matched := [] }.matched) := by
  refine ⟨by unfold accepted atHead; decide, by decide +kernel, by decide, by decide, by decide, 1, by decide⟩

/-- How long the device certificate is is each module's own (log entry 4). -/
theorem meets_SnapshotRequestsResult_manifest : (imageChunks pkg0 snap0).length = 1 ∧
    (deviceCert.length ≤ 2 ^ 20 → manifestLen pkg0 1 ≤ 0x1000000) ∧ ∀ p, 0x1000000 < manifestLen p 0x40000 := by
  refine ⟨by decide, fun h => ?_, fun p => ?_⟩
  · unfold manifestLen roundUp ceilDiv; rw [show (ingestStreams pkg0).length = 1 from by decide]; omega
  · unfold manifestLen; omega

def based : State := { ready with base := some ⟨0, 64, 0⟩ }
theorem meets_DeviceStateRequests :
    (∀ e ∈ [(asks based 0x400 [], reqSpare), (asks { ready with dev := { st := .spare } } 0x401 [], reqSpareExit),
        (asks based 0x402 (words [71, 72] ++ List.replicate 48 0#8), reqFill), (asks based 0x402 (words [72, 72] ++ List.replicate 48 0#8), reqFill),
        (asks ready 0x403 (words [1]), reqDrain), (asks { ready with dev := { st := .drained } } 0x404 [], reqUndrain),
        (asks ready 0x405 [], reqSelfTest), (asks ready 0x406 [], reqHibernate)], accepted e.1 0 e.2) ∧
    (let s := asks { ready with dev := { st := .hibernate }, health := { selfRefresh := true } } 0x407 []
     accepted s 0 reqWake ∧ s.health.selfRefresh = true) ∧
    (72 ≤ 72 ∧ 71 < 72 ∧ based.base.map BaseRegion.digest = some (beNat (List.replicate 48 0#8)) ∧
      ready.base.map BaseRegion.digest ≠ some 0) ∧
    (ready.dev.drain = none ∧ heldCases ready = false ∧ heldCases (withHub { cases := [case0] }) = true ∧ boxesAt ready .jobEnd = []) := by
  unfold accepted atHead; decide +kernel

theorem meets_BudgetAndReportResult :
    (let s := asks ready 0x500 (words [1, 1000 + 65536 * 1200, 100, 0])
     accepted s 0 reqBudget ∧ fieldOf (reqWord (boxOf s 0) 4) 0 16 = 1000 ∧
      fieldOf (reqWord (boxOf s 0) 4) 16 16 = 1200 ∧ fieldOf (reqWord (boxOf s 0) 8) 0 16 = 100 ∧
      s.power.seq < 1 ∧ ∀ a, s.power.accepted = some a → a + 100000 ≤ s.nowUs) ∧
    (∃ a, { ready.power with accepted := some 0 }.accepted = some a ∧ ready.nowUs < a + 100000) ∧
    (let s := asks ready 0x501 (words [1, 8000 + 65536 * 10000, 100000, 0])
     accepted s 0 reqReport ∧ fieldOf (reqWord (boxOf s 0) 4) 0 16 = 8000 ∧ fieldOf (reqWord (boxOf s 0) 4) 16 16 = 10000 ∧
      fieldOf (reqWord (boxOf s 0) 8) 0 24 = 100000 ∧ s.therm.seq < 1 ∧
      ∀ a, s.therm.accepted = some a → a + 100000 ≤ s.nowUs) ∧
    accepted (asks ready 0x503 []) 0 reqSensorClear :=
  ⟨⟨by unfold accepted atHead; decide, by decide, by decide, by decide, by decide, fun a h => by cases h⟩,
    ⟨0, rfl, by decide⟩, ⟨by unfold accepted atHead; decide, by decide, by decide, by decide, by decide, fun a h => by cases h⟩,
    by unfold accepted atHead; decide⟩

def txn0 : Txn := { st := .opened, number := 1, owner := 1 }
def sTxn (s : State) (es : List TxnEntry) : State := { s with mgmt := { txn := { txn0 with staged := es } } }
def setRamp : TxnEntry := { num := 0, id := 0x140, index := 0, pfx := 0, value := 20, ext := 0 }

theorem meets_TransactionResult :
    (accepted (asks ready 0x600 []) 0 (plain .txnBegin 0x600 0) ∧ ready.mgmt.txn.st = .idle ∧ txn0.st ≠ .idle) ∧
    (let s := asks (sTxn ready []) 0x601 (words [1, 0x140, 0, 20, 0, 0, 0])
     accepted s 0 reqTxnSet ∧ ownsTxn s 0 ∧ ∀ e ∈ entriesOf (boxOf s 0) s.mgmt.txn.count, knownSetting e.id e.index = true) ∧
    (let s := asks (sTxn ready []) 0x601 (words [1, 0xFFFF, 0, 20, 0, 0, 0])
     accepted s 0 reqTxnSet ∧ ((entriesOf (boxOf s 0) s.mgmt.txn.count).find? (fun e => !(knownSetting e.id e.index))).isSome = true) ∧
    (accepted (asks (sTxn ready []) 0x603 []) 0 (plain .txnRollback 0x603 0) ∧ ownsTxn (asks (sTxn ready []) 0x603 []) 0) := by
  unfold accepted atHead ownsTxn; decide +kernel

theorem meets_TransactionResult_commit :
    (let s := asks (sTxn ready [setRamp]) 0x602 (words [1])
     accepted s 0 (plain .txnCommit 0x602 4) ∧ ownsTxn s 0 ∧ reqWord (boxOf s 0) 0 = s.mgmt.txn.number ∧
      commitFault s s.mgmt.txn.staged = none ∧ jobLoaded s = false ∧ s.snap.snap = none) ∧
    (let s := sTxn (busy pkg0) [setRamp]
     commitFault s s.mgmt.txn.staged = none ∧ jobLoaded s = true ∧ s.job.held = false ∧ s.fence.abandoned = false ∧
      s.fence.poisons = [] ∧ poisoned { s with fence := { abandoned := true } } = true) ∧
    (commitFault ready [{ setRamp with value := 0xFFFFFFFF }]).isSome = true ∧
    (let s := { ready with mgmt := { txn := { txn0 with st := .pending } } }
     s.mgmt.txn.st = .pending ∧ atCommitPoint s = true) := by
  unfold accepted atHead ownsTxn; decide +kernel

theorem meets_MarkAlertNoteResult :
    (∀ e ∈ [(asks ready 0x701 [], plain .markRequest 0x701 0), (asks ready 0x706 (words [0xFF]), reqCauses),
        (asks ready 0x707 (words [0xFFFF]), reqWatch), (asks ready 0x708 (words [15, 0, 64]), reqNotes),
        (asks ready 0x708 (words [16, 0, 0]), reqNotes)], accepted e.1 0 e.2) ∧
    (let s := { ready with mgmt := { notes := [(15, { watcher := some 2 })] } }
     (noteQueueOf s 15).watcher = some 2 ∧ 2 ≠ 1 ∧ bitOf 0x8000 15 = true) ∧
    (∀ k w, k < 16 → bitOf 0xFFFF k = true → (noteQueueOf ready k).watcher = some w → w = 1) ∧
    (noteQueueOf ready 15).watcher = none :=
  ⟨by unfold accepted atHead; decide +kernel, by decide, (fun k w _ _ h => by cases h), by decide⟩

def image0 : Image :=
  { magic := 0x4B574657, svn := 0, key := 0, recovery := false, len := 256, release := 1, bodyDigest := 0, pubkey := []
    signature := [], signed := [], digest := 0, bodyOk := true }

def fwWindow : LoadWindow :=
  { kind := 2, session := 1, len := 0, stream := 0, start := 0, digest := sha384 (memBytes [] 0 0), got := [], buf := [] }
theorem fwWindow_digest : sha384 (memBytes fwWindow.buf 0 fwWindow.len) = fwWindow.digest := by
  unfold fwWindow; with_reducible rfl
def fwLoaded : State := asks { ready with load := some fwWindow } 0x906 []

/-- Whether an image verifies rests on the digests of the ROM's keys (log entry 5): the other hypotheses of that clause are
met here. -/
theorem meets_TrustRequestsResult :
    (∀ e ∈ [(asks ready 0x902 (words [0]), reqOwner), (asks ready 0x902 (words [5] ++ List.replicate 260 0#8), reqOwner),
        (asks ready 0x905 (words (256 :: List.replicate 15 0)), reqFwBegin), (asks ready 0x907 [], reqFwActivate),
        (asks ready 0x908 [], plain .fwConfirm 0x908 0), (asks ready 0x800 (words [0x200, 0x7FFFF, 7, 1, 0]), reqInject),
        (asks ready 0x801 (words [11]), plain .portRetrain 0x801 4)], accepted e.1 0 e.2) ∧
    ((boxOf (asks ready 0x902 (words [0])) 0).provisioning = false ∧ (∀ k ∈ [ecBytes (some p384g)], validPoint k = true) ∧ validPoint (List.replicate 49 0#8) = false) ∧
    (ready.fw.trial = false ∧ ready.load = none ∧ 0 < 256 ∧ 256 ≤ 2 ^ 30) ∧
    (accepted fwLoaded 0 reqFwCommit ∧ fwLoaded.load = some fwWindow ∧ fwWindow.kind = 2 ∧ coversTo fwWindow.got fwWindow.len = true ∧
      sha384 (memBytes fwWindow.buf 0 fwWindow.len) = fwWindow.digest ∧
      imageFault fwLoaded.fw (readImage (memBytes fwWindow.buf 0 fwWindow.len)) = some .badImage) ∧
    (let s := { ready with fw := { running := some 0, slotA := some image0, trial := true, committed := true } }
     runningImage { s with fw := { s.fw with image := some image0 } } = some image0 ∧ s.fw.trial = true ∧ s.fw.committed = true) ∧
    (0 < 128 ∧ 0x7FFFF < unitLines true ∧ injectPattern true 7 [1#8, 0#8, 0#8, 0#8, 0#8, 0#8, 0#8, 0#8] = some [(71, 1#8)]) ∧
    (portOf { ready with ports := [(11, { st := .down })] } 11).st = .down := by
  refine ⟨by unfold accepted atHead; decide +kernel, ⟨by decide, fun k h => by cases List.mem_singleton.mp h; exact base_point, by decide +kernel⟩, by decide, ⟨by unfold accepted atHead; decide, rfl, rfl, by decide, fwWindow_digest, by decide⟩,
    by decide, by decide, by decide⟩

/-! ### Witnesses: upkeep, power, heat, start-up, the whole machine -/

def uncorrectable : List (Nat × Byte) := [(0, 1#8), (1, 2#8), (2, 3#8), (3, 4#8), (4, 5#8)]
def sScrub (es : Tab (List (Nat × Byte))) : State := { ready with health := { scrubbing := true, errors := es } }

theorem meets_ScrubAndRatesResult :
    ((sScrub []).health.scrubbing = true ∧ tabFind (sScrub []).health.errors 7 = none) ∧
    eccDecode [(71, 1#8)] = .corrected 1 ∧ eccDecode uncorrectable = .uncorrectable ∧
    (tabFind (sScrub [(unitLine true 0 0, uncorrectable)]).health.errors (unitLine true 0 0) = some uncorrectable ∧
      (sScrub []).health.poison = [] ∧ (sScrub []).job.pkg = none ∧ (sScrub []).base = none) ∧
    (ready.pins.rails ≠ [] ∧ 6 ≤ ready.pins.startup) ∧
    (let g := fun n => (List.replicate n ready.nowUs).filter (fun x => decide (ready.nowUs < x + 3600000000))
     setting ready 0x122 0 < (g (setting ready 0x122 0 + 1)).length ∧ (g 0).length ≤ setting ready 0x122 0) := by decide +kernel

def working (w : Work) : State := { ready with dev := { st := .running, work := w } }
theorem meets_ClearingAndScanResult :
    ((working .jobClear).dev.work = .jobClear ∧
      ((Work.jobClear, Work.jobScan) ∈ [(Work.jobClear, Work.jobScan), (.drainClear, .drainScan), (.resetClear, .resetSign)]) ∧
      (working .jobClear).dev.suspect = none) ∧
    (scanKind (working .jobScan).dev.work = some (0, 279) ∧ sound (working .jobScan) ∧ (working .jobScan).dev.st ≠ .draining) ∧
    (let s := { ready with dev := { st := .draining, work := .drainScan, suspect := some (6, 0xFFFF) } }
     scanKind s.dev.work = some (1, 535) ∧ s.dev.st = .draining ∧ s.dev.signDue = false) ∧
    ((⟨[12], [], [], []⟩ : ScanResult).fails.head? = some 12 ∧ boltSound (working .selfScan) ∧
      (∀ k ∈ (working .selfScan).dev.scanA, k < 535 → k ∉ (working .selfScan).dev.scanB) ∧
      (3 < 279 ∧ 3 ∈ ({ (working .jobScan).dev with scanA := [3] }).scanA ∧ 3 ∈ (⟨[], [], [], [3]⟩ : ScanResult).badB)) ∧
    (let s := { working .selfScan with health := { errors := [(unitLine true 0 0, [(71, 1#8)])] } }
     (scanKind s.dev.work).map Prod.snd = some 535 ∧ s.health.poison = [] ∧ boltBase ≤ 64 * unitLine true 0 0 ∧
      eccDecode [(71, 1#8)] = .corrected 1) ∧
    (let s := { ready with dev := { st := .spare } }
     s.dev.st = .spare ∧ s.dev.work = .none) := by unfold sound boltSound; decide +kernel

theorem meets_ClearSignedAndLockstep :
    ((working .jobSign).dev.work = .jobSign ∧ sound (working .jobSign)) ∧
    ((working .drainSign).dev.work = .drainSign ∧ (working .drainSign).dev.signDue = false) ∧ (working .resetSign).dev.work = .resetSign ∧
    ((boxOf { working .jobSign with mgmt := { boxes := [(0, { st := .busy 1, waits := some .jobEnd })] } } 0).orphan = false ∧
      0 ∈ boxesAt { working .jobSign with mgmt := { boxes := [(0, { st := .busy 1, waits := some .jobEnd })] } } .jobEnd) ∧
    (ready.pins.v72 = true ∧ ready.pins.resetLow = false ∧ ready.dev.st = .ready ∧ heldCases ready = false ∧ slotOk ready.fw 0 = false ∧
      slotOk ready.fw 1 = false) := by unfold sound; decide

theorem meets_PowerWindowResult :
    (ready.pins.v72 = true ∧ boxesAt ready .fitting = []) ∧
    (limitOf ready.power < 8001 * 1000 ∧ 98 * limitOf ready.power ≤ 100 * (7840 * 1000) ∧ 100 * (7839 * 1000) < 98 * limitOf ready.power) ∧
    ({ ready.power with next := some (1000, 1200) }.next = some (1000, 1200) ∧ ready.power.next = none ∧
      { ready.power with fallback := false }.fallback = false) ∧
    (100 ≤ { ready.power with unmetRun := 100, lastP := 1 }.unmetRun ∧ { ready.power with lastP := 1 }.lastLimit < 1 * 1000) ∧ { ready.power with hold := 100, fallback := false }.hold ≠ 0 ∧
    ((∀ a, ready.power.accepted = some a → ready.nowUs < a + 1000 * ready.power.hold) ∧
      (let s := { ready with nowUs := 100000, power := { ready.power with accepted := some 0, hold := 100 } }
       s.power.accepted = some 0 ∧ 0 + 1000 * s.power.hold ≤ s.nowUs)) ∧
    (∀ n a, ready.snap.snap = some n → snapFlows ready n = [] → ready.snap.starvedAt = some a →
      ready.nowUs + 100 < a + 1000 * setting ready 0x139 0) ∧
    (let s := { ready with nowUs := 10 ^ 12, snap := { snap := some snap0, starvedAt := some 0 } }
     s.snap.snap = some snap0 ∧ snapFlows s snap0 = [] ∧ 0 + 1000 * setting s 0x139 0 ≤ s.nowUs + 100) :=
  ⟨by decide, by decide, by decide, by decide, by decide, ⟨(fun a h => nomatch (show (none : Option Nat) = some a from h)), by decide⟩,
    (fun n a h => nomatch (show (none : Option Snap) = some n from h)), by decide⟩

def hot (v : Int) : State := { ready with therm := { sensors := [(0, some v)] } }
theorem meets_SensorSampleResult :
    junction { ready.therm with sensors := takeReadings ready [] } = none ∧
    ∀ v ∈ [(929 : Int), 930, 949, 950, 1049, 1050, 1149, 1150],
      junction { (hot v).therm with sensors := takeReadings (hot v) [] } = some (v, 0) := by decide +kernel

/-- A panel of 90 °C and 83.9 °C. -/
def apart0 : State := { ready with therm := { sensors := [(0, some 900), (1, some 839)] } }
theorem apart0_trim : trimmed apart0 ⟨0, 900 - sensorOffset 0, true⟩ = some 900 := by
  have t : toSigned (setting apart0 0x155 0) = 0 := by decide
  simp [trimmed, t]
theorem meets_SensorSampleResult_pair :
    let rs : List SensorRead := [⟨0, 900 - sensorOffset 0, true⟩]
    (apart0.pins.v72 = true ∧ apart0.pins.resetLow = false ∧ apart0.pins.tripped = false) ∧ (∃ r ∈ rs, r.sensor / 2 = 0) ∧
    (∃ a, tabGet none (takeReadings apart0 rs) 0 = some a ∧ tabGet none (takeReadings apart0 rs) 1 = some (839 : Int) ∧
      60 < (a - 839).natAbs ∧ (a - 839).natAbs ≤ 150) ∧
    (150 < ((900 : Int) - 749).natAbs ∧ ((900 : Int) - 840).natAbs ≤ 60) := by
  refine ⟨by decide, ⟨_, List.mem_singleton.mpr rfl, rfl⟩, ⟨900, ?_, ?_, by decide⟩, by decide⟩ <;>
    simp only [takeReadings, List.foldl_cons, List.foldl_nil, apart0_trim]
  · exact tabGet_tabPut_self none apart0.therm.sensors 0 (some 900)
  · rw [tabGet_tabPut_ne _ _ _ _ _ (by decide)]; rfl

theorem meets_ThermalEventsResult :
    (tabGet none apart0.therm.sensors (2 * 0) = some (900 : Int) ∧ tabGet none apart0.therm.sensors (2 * 0 + 1) = some (839 : Int) ∧
      (tabGet (⟨none, none, none, false⟩ : SkewWatch) apart0.therm.skews 0).high = none ∧ (⟨none, none, none, true⟩ : SkewWatch).told = true ∧
      (let s := { apart0 with nowUs := 1000001, therm := { apart0.therm with skews := [(0, { high := some 0, wide := some 0 })] } }
       (tabGet (⟨none, none, none, false⟩ : SkewWatch) s.therm.skews 0).high = some 0 ∧ 0 + 1000000 < s.nowUs ∧ (tabGet (⟨none, none, none, false⟩ : SkewWatch) s.therm.skews 0).told = false ∧
        (∃ x, (tabGet (⟨none, none, none, false⟩ : SkewWatch) s.therm.skews 0).wide = some x ∧ x + 1000000 < s.nowUs) ∧ 0 ∉ s.therm.suspects)) ∧
    (let s := { ready with nowUs := 10000000, therm := { forced := true, coolSince := some 0 } }
     s.therm.forced = true ∧ s.therm.coolSince = some 0 ∧ 0 + 10000000 ≤ s.nowUs ∧ s.therm.q = 0 ∧ ready.therm.coolSince = none) ∧
    (let s := { ready with nowUs := 10 ^ 12, therm := { ready.therm with fresh := true, accepted := some 0 } }
     s.therm.fresh = true ∧ s.therm.accepted = some 0 ∧ 0 + setting s 0x154 0 * 1000000 ≤ s.nowUs) ∧
    (let s := { ready with nowUs := 60000000, therm := { ready.therm with skewSince := some 0 } }
     s.therm.skewSince = some 0 ∧ 0 + 60000000 ≤ s.nowUs ∧ s.therm.skewTold = false ∧ ready.therm.skewSince = none) := by
  refine ⟨⟨rfl, rfl, rfl, rfl, rfl, by decide, rfl, ⟨0, rfl, by decide⟩, by decide⟩, by decide, by decide, by decide⟩

/-- Module without firmware: present 72 V, PWR_EN asserted, no image in either slot. -/
def bare : State := { State.reset with dev := { st := .standby }, pins := { v72 := true, pwrEn := true, startup := 1 } }

/-- Whether a slot verifies rests on the digests of the ROM's keys (log entry 5): the clauses on it start from there. -/
theorem slotOk_of {f : Firmware} {i : Image} (e : f.slotA = some i) (h : (imageFault f i).isNone = true) :
    slotOk f 0 = true := by simp [slotOk, slotImage, e, h]

theorem meets_ThetaRule :
    (let s := { ready with therm := { ready.therm with fresh := true, means := List.replicate 10 1500, tjSum := 700, tjN := 1 } }
     s.pins.v72 = true ∧ s.pins.resetLow = false ∧ s.therm.fresh = true ∧ 15000 ≤ s.therm.means.foldl (· + ·) 0 ∧ s.therm.means.length = 10 ∧
      (∀ m ∈ s.therm.means, 20 * (10 * m - s.therm.means.foldl (· + ·) 0) ≤ s.therm.means.foldl (· + ·) 0 ∧
        20 * (s.therm.means.foldl (· + ·) 0 - 10 * m) ≤ s.therm.means.foldl (· + ·) 0) ∧ 0 < s.therm.tjN) ∧
    ready.therm.fresh = false ∧
    (bare.pins.v72 = true ∧ bare.pins.resetLow = false ∧ bare.pins.verified = false ∧ bare.fw.recovery = false ∧
      bare.dev.st = .standby ∧ bare.fw.repair = false ∧ bare.fw.fallback = false) ∧
    (∀ i, (imageFault { bare.fw with slotA := some i } i).isNone = true → slotOk { bare.fw with slotA := some i } 0 = true) :=
  ⟨by decide, rfl, by decide, fun _ h => slotOk_of rfl h⟩

theorem meets_PinchAndClockResult :
    (15 < 16 ∧ (hubOf ready 15).pinched = false) ∧
    ((hubOf { ready with hubs := [(15, { pinched := true })] } 15).pinched = true ∧ ready.power.switching = none) ∧
    ((let s := { ready with power := { ready.power with pinchWarn := 1 }, hubs := [(15, { pinchTimes := [0, 0] })] }
      s.power.pinchWarn < ((hubOf s 15).pinchTimes.filter (fun x => decide (s.nowUs < x + 1000000))).length) ∧ ready.power.pinchTold = none ∧ { ready.power with pinchTold := some 0 }.pinchTold = some 0 ∧
      ready.nowUs < 0 + 1000000) ∧
    ({ ready.power with switching := some (1, 2, 0) }.switching = some (1, 2, 0) ∧ anyPinch ready = false ∧ 1 < 2) := by decide

theorem meets_FirmwareStartResult :
    (State.reset.pins.v72 = false ∧ { State.reset.pins with latch := true }.latch = true ∧ State.reset.pins.latch = false) ∧
    (bare.pins.v72 = true ∧ bare.pins.resetLow = false ∧ bare.pins.verified = false ∧ bare.fw.recovery = false ∧
      bare.dev.st = .standby ∧ slotOk bare.fw bare.fw.active = false ∧ slotOk bare.fw (1 - bare.fw.active) = false) ∧
    (mayBoot { bare with pins := { bare.pins with pwrEn := true } } ∧ { bare.pins with verified := true }.verified = true) := by
  unfold mayBoot; decide

def starting (n : Nat) : State := { State.reset with dev := { st := .boot }, pins := { v72 := true, rails := [.vser, .vcore], startup := n } }
theorem meets_StartUpResult :
    ((starting 4).dev.st = .boot ∧ (starting 4).pins.startup = 4) ∧
    ((starting 5).pins.startup = 5 ∧ runsRecovery (starting 5) = false ∧ 127 ∉ ([0] : List Nat) ∧ (listedChannels (starting 5)).length ≤ 1024) ∧
    (starting 6).pins.startup = 6 ∧
    (let s := { starting 7 with ports := [(0, { st := .training })] }
     (portOf s 0).st = .training ∧ boxesAt s .fitting = [] ∧ ∀ q, q < 12 → q ≠ 0 → (portOf s q).st ≠ .training) ∧
    (let s := { starting 8 with ports := [(0, { st := .linked })], pins := { (starting 8).pins with trainedAt := some 0 } }
     (portOf s 0).st = .linked ∧ (∀ x, s.pins.trainedAt = some x → s.nowUs < x + 5000000) ∧
      (∀ q, q < 12 → (portOf (starting 8) q).st ≠ .linked) ∧
      { s with nowUs := 5000000 }.pins.trainedAt = some 0 ∧ 0 + 5000000 ≤ { s with nowUs := 5000000 }.nowUs) ∧
    ((starting 8).pins.startup = 8 ∧ sound (starting 8) ∧ (starting 8).dev.replace = false ∧
      { (starting 8).dev with lostJob := true }.lostJob = true) ∧
    (let s := { starting 8 with dev := { st := .boot, suspect := some (6, 0xFFFF) } }
     s.dev.st = .boot ∧ heldCases s = false ∧ (drainCause s).isSome = true) := by unfold sound; decide

theorem meets_ResetAndRailsResult :
    (ready.pins.v72 = true ∧ ready.pins.resetLow = false ∧ ready.dev.st ≠ .standby) ∧ State.reset.pins.v72 = false ∧ 9 < 10 ∧ 10 ≤ 10 ∧
    ({ ready.pins with resetLow := true }.resetLow = true ∧ ready.pins.pwrGood = true) ∧
    ((∃ a, { ready.pins with railFault := some 0 }.railFault = some a ∧ ready.nowUs < a + 60000000) ∧
      (∀ a, ready.pins.railFault = some a → a + 60000000 ≤ ready.nowUs)) ∧
    (let s := { ready with dev := { st := .boot }, fw := { trial := true, running := some 0 } }
     s.fw.trial = true ∧ s.fw.running = some s.fw.active ∧ s.dev.st = .boot ∧ s.pins.resetLow = false) :=
  ⟨by decide, rfl, by decide, by decide, by decide, ⟨⟨0, rfl, by decide⟩, fun a h => by cases h⟩, by decide⟩

def lost : State := { bare with fw := { recovery := true } }
theorem meets_RecoveryAndTestPort :
    (lost.pins.v72 = true ∧ lost.pins.resetLow = false ∧ lost.fw.recovery = true ∧ { lost.pins with latch := true }.latch = true) ∧
    crc32 [0#8] ≠ 0 ∧ crc32 [0#8] = 0xD202EF8D ∧ 0x800000 < { lost.fw with received := 0x800000 }.received + 1 ∧
    (leNat (memBytes (memPut lost.fw.recBuf 0 [0#8]) 8 4) ≤ 1 ∧ 1 < leNat (memBytes (memPut lost.fw.recBuf 8 [2#8]) 8 4)) ∧
    (imageFault lost.fw (readImage [])).isSome = true ∧
    (setting lost 0x172 0 ≠ 1 ∧ setting { lost with mgmt := { settings := [(settingKey 0x172 0, { value := 1 })] } } 0x172 0 = 1) := by
  decide +kernel

theorem meets_StepKeepsQueue : ∃ t, step { State.reset with pending := [.pwrEnAssert] } = .next t ∧ t.pending = [] := ⟨_, rfl, rfl⟩
theorem meets_StepKeepsMemoryForm : Memory.wf [(0, 1#8), (5, 2#8)] = true ∧ Memory.wf [(5, 1#8), (0, 2#8)] = false ∧
    Memory.wf [(0, 0#8)] = false := by decide

/-! ### Single steps: requests, power and heat -/

/-- Mailbox 0's reply, its first `n` bytes. -/
def reply0 (n : Nat) (t : State) : List Byte := memBytes (boxOf t 0).reply 0 n

-- R336, R358: the reply of MARK_REQUEST repeats the OP, has length 4 and status OK, and names mark 1.
theorem test_mark_request :
    after (exec (.markRequest 0) (asks ready 0x701 [])) (fun t => (reply0 20 t, t.mgmt.markNext)) =
      some ([1#8, 7#8, 0#8, 0#8, 4#8, 0#8, 0#8, 0#8] ++ z 8 ++ [1#8, 0#8, 0#8, 0#8], 2) := by decide
-- R346: the first transaction has number 1, and a second BEGIN is refused.
theorem test_txn_begin :
    after (exec (.txnBegin 0) (asks ready 0x600 [])) (fun t => (t.mgmt.txn.st, t.mgmt.txn.number)) = some (.opened, 1) ∧
    after (exec (.txnBegin 0) (asks { ready with mgmt := { txn := { st := .opened } } } 0x600 []))
      (fun t => leNat (memBytes (boxOf t 0).reply 12 2)) = some 0x11 := by decide
-- R338: a body where none is allowed is BAD_LENGTH.
theorem test_bad_length :
    after (exec (.identify 0) (asks ready 1 [0#8])) (fun t => leNat (memBytes (boxOf t 0).reply 12 2)) = some 0x02 := by decide
-- R265: a lower SEQ than the last is stale, and is counted.
theorem test_stale_budget :
    after (exec (.powerBudget 0) (asks ready 0x500 (words [0, 1000 + 65536 * 1200, 0, 0]))) (fun t => t.power.refusedN) = some 1 := by
  decide
-- R268: at 800 W input and a limit of 400 W half of 64 cycles idle.
theorem test_idle_duty :
    after (exec (.powerWindow 8000 0 0 0) { ready with power := { ready.power with hard := 4000, soft := 4000 } })
      (fun t => t.power.q) = some 32 := by decide
-- R291: from 95.0 °C the duty rises by 4; from 115.0 °C the device trips.
theorem test_sensor_sample :
    after (exec (.sensorSample []) (hot 950)) (fun t => t.therm.q) = some 4 ∧
    after (exec (.sensorSample []) (hot 1150)) (fun t => (t.dev.st, t.pins.rails)) = some (.safe, []) := by decide +kernel

end Sys2Proof.Tests
end

section
/-! SUPPORT. What leaves the memory health of R195 to R203 alone: sending, replies, snapshots, poison and the
recording of a suspect. -/

namespace Sys2Proof.Machine

open Sys2Proof.Config

/-- A fold whose steps leave the memory health alone leaves it alone. -/
theorem foldl_health {α : Type} {f : State → α → State} (hf : ∀ t a, (f t a).health = t.health) (l : List α)
    (s : State) : (l.foldl f s).health = s.health :=
  List.foldlRecOn l f (motive := fun t => t.health = s.health) rfl fun t ht a _ => (hf t a).trans ht

/-! ### Sending and replies -/

theorem Sends.health {s t : State} (h : Sends s t) : t.health = s.health := by rw [h]

@[simp] theorem hostSend_health (s : State) (f : Nat) (k : TxKind) (w : Send) : (hostSend s f k w).health = s.health :=
  (hostSend_sends s f k w).health

@[simp] theorem sendPkt_health (s : State) (f : Nat) (v : Flow) (h : HemHdr) (bs : List Byte) (r : Option CloseReason) :
    (sendPkt s f v h bs r).health = s.health := rfl

@[simp] theorem modFlow_health (s : State) (f : Nat) (g : Flow → Flow) : (modFlow s f g).health = s.health := by
  unfold modFlow; split <;> rfl

@[simp] theorem closeFlow_health (s : State) (f : Nat) : (closeFlow s f).health = s.health := by
  unfold closeFlow; split <;> rfl

@[simp] theorem closeIfDone_health (s : State) (f : Nat) : (closeIfDone s f).health = s.health := by
  unfold closeIfDone
  split
  · rfl
  · split <;> simp

@[simp] theorem sendAck_health (s : State) (f : Nat) (nak : Option (Nat × Nat)) : (sendAck s f nak).health = s.health := by
  unfold sendAck
  split
  · rfl
  · split <;> simp

@[simp] theorem refuseHeld_health (s : State) (f : Nat) : (refuseHeld s f).health = s.health := by
  unfold refuseHeld
  split
  · rfl
  · exact foldl_health (fun t h => sendAck_health t f _) _ s

@[simp] theorem closeFlows_health (s : State) (p : Nat → Flow → Bool) : (closeFlows s p).health = s.health :=
  foldl_health (fun t e => by simp) _ s

@[simp] theorem hostPoison_health (s : State) (p : Poison) : (hostPoison s p).health = s.health :=
  foldl_health (fun t e => by simp) _ s

theorem spread_health (flows : State → List Nat) (mk : Nat → List Byte → TxKind × Send) :
    ∀ (n turn off : Nat) (bs : List Byte) (s : State), (spread flows mk n turn off bs s).1.health = s.health
  | 0, _, _, _, _ => rfl
  | n + 1, turn, off, bs, s => by
    simp only [spread]
    split
    · rfl
    · split
      · rfl
      · rw [spread_health flows mk n]; simp

@[simp] theorem reply_health (s : State) (m : Nat) (st : Status) (body : List Byte) :
    (reply s m st body).health = s.health := by
  unfold reply
  dsimp only
  split
  · rfl
  · split
    · rfl
    · split
      · rfl
      · exact (sendReplyPkts_sends m _ _ _ _ _ _).health

@[simp] theorem replyOk_health (s : State) (m : Nat) (body : List Byte) : (replyOk s m body).health = s.health :=
  reply_health s m .ok body

@[simp] theorem replyBad_health (s : State) (m : Nat) (st : Status) (a b : Nat) :
    (replyBad s m st a b).health = s.health :=
  reply_health s m st _

@[simp] theorem abortAt_health (s : State) (w : WaitPoint) (st : Status) : (abortAt s w st).health = s.health :=
  foldl_health (fun t m => replyBad_health t m st 0 0) _ s

@[simp] theorem setCause_health (s : State) (c : Cause) : (setCause s c).health = s.health := rfl

@[simp] theorem goState_health (s : State) (st : DevState) : (goState s st).health = s.health := by
  unfold goState; dsimp only; split <;> rfl

/-! ### Snapshots and restores -/

@[simp] theorem pumpSnap_health (s : State) : (pumpSnap s).health = s.health := by
  unfold pumpSnap
  split
  · exact List.foldlRecOn _ _ (motive := fun t : State × List (Nat × Nat × Nat) => t.1.health = s.health) rfl
      fun t ht u _ => (spread_health _ _ _ _ _ _ _).trans ht
  · rfl

@[simp] theorem sendReady_health (s : State) : (sendReady s).health = s.health := by
  unfold sendReady
  split
  · split
    · exact pumpSnap_health _
    · rfl
  · rfl

@[simp] theorem captureAt_health (s : State) (mark : Option Nat) : (captureAt s mark).health = s.health := by
  unfold captureAt
  split
  · split
    · rfl
    · extract_lets b n0 n1 s1
      rw [sendReady_health]
      split
      · exact replyOk_health _ _ _
      · rfl
  · rfl

@[simp] theorem stopSnapshot_health (s : State) (cause : Nat) : (stopSnapshot s cause).health = s.health := by
  unfold stopSnapshot; split <;> simp

@[simp] theorem captureHeld_health (s : State) : (captureHeld s).health = s.health := by
  unfold captureHeld; split <;> simp

@[simp] theorem failRestore_health (s : State) (st : Status) (chunk : List Nat) :
    (failRestore s st chunk).health = s.health := by
  unfold failRestore; split <;> simp

@[simp] theorem endHold_health (s : State) (rest : List HeldWrite) : (endHold s rest).health = s.health := rfl

/-! ### Poison and stops -/

@[simp] theorem abandonWork_health (s : State) : (abandonWork s).health = s.health := by
  unfold abandonWork; dsimp only; split <;> rfl

@[simp] theorem holdJob_health (s : State) : (holdJob s).health = s.health := captureHeld_health _

@[simp] theorem stopJob_health (s : State) (st : Status) (e : Ev) (args : List Nat) :
    (stopJob s st e args).health = s.health := by
  unfold stopJob; split <;> simp

@[simp] theorem overrideStop_health (s : State) (cause : Nat) : (overrideStop s cause).health = s.health := by
  unfold overrideStop; split <;> rfl

@[simp] theorem actOn_health (s : State) (p : Package) (cause : Nat) : (actOn s p cause).health = s.health := by
  unfold actOn
  split
  · split <;> simp
  · split <;> simp
  · simp

@[simp] theorem poisonAction_health (s : State) : (poisonAction s).health = s.health := by
  unfold poisonAction; split <;> simp

@[simp] theorem spreadPoison_health (s : State) (p : Poison) (but : Option Nat) :
    (spreadPoison s p but).health = s.health :=
  (hostPoison_health _ p).trans (foldl_health (fun t q => modPort_health t q _) _ s)

@[simp] theorem takePoison_health (s : State) (p : Poison) : (takePoison s p).health = s.health := by
  unfold takePoison; simp

@[simp] theorem sendPoison_health (s : State) (cause : Nat) : (sendPoison s cause).health = s.health := by
  unfold sendPoison sendPoisonFrom; split <;> simp

@[simp] theorem closeWindow_health (s : State) : (closeWindow s).health = s.health := closeFlows_health s _

@[simp] theorem recordSuspect_health (s : State) (code unit verdict : Nat) :
    (recordSuspect s code unit verdict).health = s.health := by
  unfold recordSuspect nameVerdict; simp only [raiseEv_health]; split <;> rfl

end Sys2Proof.Machine
end

section
/-! SUPPORT. What keeps the place of the patrol scrub (R199): everything that an uncorrectable read can lead to, up to
the drain of R327. -/

namespace Sys2Proof.Machine

open Sys2Proof.Config

/-- From `s` to `t` no unit's scrub goes on to another line, and none completes a pass (R199, R203). -/
def ScrubStays (s t : State) : Prop :=
  ∀ k, (memUnitOf t k).scrubNext = (memUnitOf s k).scrubNext ∧ (memUnitOf t k).scrubPasses = (memUnitOf s k).scrubPasses

theorem ScrubStays.refl (s : State) : ScrubStays s s := fun _ => ⟨rfl, rfl⟩

theorem ScrubStays.trans {a b c : State} (h : ScrubStays a b) (k : ScrubStays b c) : ScrubStays a c :=
  fun u => ⟨(k u).1.trans (h u).1, (k u).2.trans (h u).2⟩

theorem ScrubStays.of_units {s t : State} (h : t.health.units = s.health.units) : ScrubStays s t :=
  fun k => by simp [memUnitOf, h]

theorem ScrubStays.of_health {s t : State} (h : t.health = s.health) : ScrubStays s t := .of_units (congrArg _ h)

theorem foldl_scrubStays {α : Type} {f : State → α → State} (hf : ∀ t a, ScrubStays t (f t a)) (l : List α)
    (s : State) : ScrubStays s (l.foldl f s) :=
  List.foldlRecOn l f (motive := ScrubStays s) (.refl s) fun t ht a _ => ht.trans (hf t a)

theorem modMemUnit_scrubStays (s : State) (u : Nat) {f : MemUnit → MemUnit}
    (hf : ∀ m, (f m).scrubNext = m.scrubNext ∧ (f m).scrubPasses = m.scrubPasses) : ScrubStays s (modMemUnit s u f) := by
  intro k
  rw [memUnitOf_modMemUnit]
  split
  · rename_i h; subst h; exact hf _
  · exact ⟨rfl, rfl⟩

theorem countCorrected_scrubStays (s : State) (u n : Nat) : ScrubStays s (countCorrected s u n) :=
  modMemUnit_scrubStays s u fun _ => ⟨rfl, rfl⟩

/-- The unit of an uncorrectable line counts it (R198). -/
theorem memUnitOf_noteUncorrectable (s : State) (l k : Nat) : memUnitOf (noteUncorrectable s l) k =
    if unitKey (unitOf (64 * l)) = k then
      { memUnitOf s k with
        uncorrectable := sat32 ((memUnitOf s k).uncorrectable + 1)
        life := ((memUnitOf s k).life.1, (memUnitOf s k).life.2.1, (memUnitOf s k).life.2.2 + 1) }
    else memUnitOf s k := by
  unfold noteUncorrectable memUnitOf
  rw [raiseEv_health]
  refine (memUnitOf_modMemUnit _ _ k _).trans ?_
  split
  · rename_i h; subst h; rfl
  · rfl

theorem noteUncorrectable_scrubStays (s : State) (l : Nat) : ScrubStays s (noteUncorrectable s l) := by
  intro k
  rw [memUnitOf_noteUncorrectable]
  split <;> exact ⟨rfl, rfl⟩

/-! ### The drain (R327) -/

theorem putLines_units (s : State) (a : Nat) (bs : List Byte) : (putLines s a bs).health.units = s.health.units := by
  unfold putLines; split <;> rfl

theorem dropBase_units (s : State) : (dropBase s).health.units = s.health.units := by
  unfold dropBase; split <;> rfl

theorem drainWork_units (s : State) : (drainWork s).health.units = s.health.units := by
  unfold drainWork
  split
  · rfl
  · exact dropBase_units s
  · exact dropBase_units s
  · rfl

theorem endJobNow_units (s : State) (retain : Bool) (w : Work) :
    (endJobNow s retain w).health.units = s.health.units := by
  unfold endJobNow; simp

theorem fatalLine_scrubStays (s : State) (l : Nat) : ScrubStays s (fatalLine s l) := by
  refine (noteUncorrectable_scrubStays s l).trans ?_
  unfold fatalLine
  dsimp only
  split
  · split
    · exact .of_health (recordSuspect_health ..)
    · exact .of_health (by simp)
  · exact .refl _

theorem drainHeld_scrubStays (s : State) (w : HeldWrite) : ScrubStays s (drainHeld s w) := by
  unfold drainHeld
  refine (foldl_scrubStays (fun t l => ?_) _ s).trans (.of_units (putLines_units ..))
  split
  · exact fatalLine_scrubStays t l
  · exact .refl t
  · exact countCorrected_scrubStays t _ _

theorem dropHeld_scrubStays (s : State) : ScrubStays s (dropHeld s) :=
  (ScrubStays.of_health (endHold_health s [])).trans (foldl_scrubStays drainHeld_scrubStays _ _)

theorem startDrain_scrubStays (s : State) (code unit : Nat) : ScrubStays s (startDrain s code unit) := by
  unfold startDrain
  extract_lets rec0 rec1 s0 f s1 s3 e d s4
  have hf : f.health = s.health := by simp only [f]; split <;> simp [s0]
  have h1 : ScrubStays s s1 := .of_health (by simp [s1, hf])
  have h3 : ScrubStays s s3 :=
    (h1.trans (.of_health (stopSnapshot_health s1 2))).trans
      ((dropHeld_scrubStays _).trans (.of_health (failRestore_health ..)))
  have h4 : ScrubStays s s4 := h3.trans <| .of_units <| by
    simp only [s4]
    split
    · exact endJobNow_units s3 false .drainClear
    · exact drainWork_units s3
  exact h4.trans (.of_health (goState_health ..))

theorem drainIfDue_scrubStays (s : State) : ScrubStays s (drainIfDue s) := by
  unfold drainIfDue
  split
  · exact .refl s
  · split
    · exact .refl s
    · split
      case h_5 => exact .refl s
      all_goals exact startDrain_scrubStays s _ _

theorem makeSuspect_scrubStays (s : State) (code unit verdict : Nat) : ScrubStays s (makeSuspect s code unit verdict) := by
  unfold makeSuspect
  refine .trans (.of_health ?_) (drainIfDue_scrubStays _)
  split <;> simp

theorem uncorrectable_scrubStays (s : State) (l : Nat) : ScrubStays s (uncorrectable s l) := by
  refine (noteUncorrectable_scrubStays s l).trans ?_
  unfold uncorrectable
  dsimp only
  split
  · exact makeSuspect_scrubStays _ _ _ _
  · split
    · split
      · exact .of_units (dropBase_units _)
      · exact .refl _
    · exact .refl _

end Sys2Proof.Machine
end

section
/-! SUPPORT. SCRUB_READ (R199, R200): what it makes of the line in each case of the decoder, and where the scrub goes. -/

namespace Sys2Proof.Machine

open Sys2Proof.Config Sys2Proof.Claims

theorem exec_scrubRead_scrubbing {s : State} (h : s.health.scrubbing = true) (bolt : Bool) (unit : Nat) (ow : Bool) :
    exec (.scrubRead bolt unit ow) s =
      .next (modMemUnit (scrubLine s (unitKey (unit, bolt))
        (unitLine bolt unit (memUnitOf s (unitKey (unit, bolt))).scrubNext) ow) (unitKey (unit, bolt)) (scrubNextLine bolt)) := by
  rw [exec_scrubRead, execScrubRead, if_pos h]

/-! ### The next line -/

theorem scrubNextLine_scrubNext (bolt : Bool) (u : MemUnit) :
    (scrubNextLine bolt u).scrubNext = if u.scrubNext + 1 < unitLines bolt then u.scrubNext + 1 else 0 := by
  unfold scrubNextLine; split <;> rfl

theorem scrubNextLine_scrubPasses (bolt : Bool) (u : MemUnit) : (scrubNextLine bolt u).scrubPasses =
    if u.scrubNext + 1 < unitLines bolt then u.scrubPasses else sat32 (u.scrubPasses + 1) := by
  unfold scrubNextLine; split <;> rfl

@[simp] theorem scrubNextLine_corrected (bolt : Bool) (u : MemUnit) : (scrubNextLine bolt u).corrected = u.corrected := by
  unfold scrubNextLine; split <;> rfl

@[simp] theorem scrubNextLine_symbols (bolt : Bool) (u : MemUnit) : (scrubNextLine bolt u).symbols = u.symbols := by
  unfold scrubNextLine; split <;> rfl

@[simp] theorem scrubNextLine_uncorrectable (bolt : Bool) (u : MemUnit) :
    (scrubNextLine bolt u).uncorrectable = u.uncorrectable := by
  unfold scrubNextLine; split <;> rfl

/-! ### The write-back -/

/-- An entry into the repair list changes neither memory nor job, no stored error and no unit (R202). -/
@[simp] theorem addRepair_frame (s : State) (l : Nat) : (addRepair s l).mem = s.mem ∧ (addRepair s l).job = s.job ∧
    (addRepair s l).health.errors = s.health.errors ∧ (addRepair s l).health.units = s.health.units := by
  unfold addRepair
  split
  · exact ⟨rfl, rfl, rfl, rfl⟩
  · split <;> exact ⟨rfl, rfl, rfl, rfl⟩

theorem scrubHit_mem (s : State) (k l : Nat) : (scrubHit s k l).mem = s.mem := by
  unfold scrubHit; dsimp only; split <;> simp

theorem scrubHit_job (s : State) (k l : Nat) : (scrubHit s k l).job = s.job := by
  unfold scrubHit; dsimp only; split <;> simp

theorem scrubHit_errors (s : State) (k l : Nat) : (scrubHit s k l).health.errors = s.health.errors := by
  unfold scrubHit; dsimp only; split <;> simp [modMemUnit]

/-- A hit changes no unit but for its list of hits. -/
theorem memUnitOf_scrubHit (s : State) (k l j : Nat) :
    ∃ h, memUnitOf (scrubHit s k l) j = { memUnitOf s j with hits := h } := by
  have key : ∀ f : MemUnit → List (Nat × Nat × Nat),
      ∃ h, memUnitOf (modMemUnit s k fun u => { u with hits := f u }) j = { memUnitOf s j with hits := h } := by
    intro f
    rw [memUnitOf_modMemUnit]
    split
    · rename_i e; subst e; exact ⟨_, rfl⟩
    · exact ⟨_, rfl⟩
  unfold scrubHit
  dsimp only
  split
  · simp only [memUnitOf, addRepair_frame]; exact key _
  · exact key _

/-- The write-back changes no unit but for its list of hits. -/
theorem memUnitOf_scrubBack (s : State) (k l : Nat) (ow : Bool) (bs : List Byte) (j : Nat) :
    ∃ h, memUnitOf (scrubBack s k l ow bs) j = { memUnitOf s j with hits := h } := by
  cases ow with
  | true => exact ⟨_, rfl⟩
  | false => exact memUnitOf_scrubHit _ k l j

theorem scrubBack_job (s : State) (k l : Nat) (ow : Bool) (bs : List Byte) : (scrubBack s k l ow bs).job = s.job := by
  cases ow with
  | true => rfl
  | false => exact scrubHit_job _ k l

theorem scrubBack_errors (s : State) (k l : Nat) (ow : Bool) (bs : List Byte) :
    (scrubBack s k l ow bs).health.errors = if ow then s.health.errors else tabErase s.health.errors l := by
  cases ow with
  | true => rfl
  | false => exact scrubHit_errors _ k l

/-- Writing back the bytes that memory holds changes no byte. -/
theorem memGet_memPut_memBytes (m : Mem) (a n x : Nat) : memGet (memPut m a (memBytes m a n)) x = memGet m x := by
  have hn : (memBytes m a n).length = n := by simp [memBytes]
  by_cases h : x < a ∨ a + n ≤ x
  · exact memGet_memPut_outside _ _ _ _ (by omega)
  · obtain ⟨i, rfl⟩ : ∃ i, x = a + i := ⟨x - a, by omega⟩
    rw [memGet_memPut_inside _ _ _ i (by omega)]
    simp [memBytes]

theorem memGet_scrubBack (s : State) (k l : Nat) (ow : Bool) (a : Nat) :
    memGet (scrubBack s k l ow (memBytes s.mem (64 * l) 64)).mem a = memGet s.mem a := by
  cases ow with
  | true => rfl
  | false => exact (congrArg (memGet · a) (scrubHit_mem _ k l)).trans (memGet_memPut_memBytes _ _ _ _)

/-! ### The line, by what the decoder finds -/

theorem scrubLine_without_error {s : State} {k l : Nat} {ow : Bool} (hp : l ∉ s.health.poison)
    (he : tabFind s.health.errors l = none) : scrubLine s k l ow = s := by
  simp [scrubLine, hp, he]

theorem scrubLine_corrected {s : State} {k l n : Nat} {ow : Bool} {pat : List (Nat × Byte)} (hp : l ∉ s.health.poison)
    (he : tabFind s.health.errors l = some pat) (hd : eccDecode pat = .corrected n) :
    scrubLine s k l ow = scrubBack (countCorrected s k n) k l ow (memBytes s.mem (64 * l) 64) := by
  simp [scrubLine, hp, he, hd]

theorem scrubLine_uncorrectable {s : State} {k l : Nat} {ow : Bool} {pat : List (Nat × Byte)} (hp : l ∉ s.health.poison)
    (he : tabFind s.health.errors l = some pat) (hd : eccDecode pat = .uncorrectable) :
    scrubLine s k l ow = uncorrectable s l := by
  simp [scrubLine, hp, he, hd]

theorem scrubBack_scrubStays (s : State) (k l : Nat) (ow : Bool) (bs : List Byte) :
    ScrubStays s (scrubBack s k l ow bs) := by
  intro j
  obtain ⟨h, e⟩ := memUnitOf_scrubBack s k l ow bs j
  rw [e]
  exact ⟨rfl, rfl⟩

/-- Whatever the scrub makes of the line, the drain of an uncorrectable one included, the units' places stay. -/
theorem scrubLine_scrubStays (s : State) (k l : Nat) (ow : Bool) : ScrubStays s (scrubLine s k l ow) := by
  have back : ∀ n bs, ScrubStays s (scrubBack (countCorrected s k n) k l ow bs) := fun n bs =>
    (countCorrected_scrubStays s k n).trans (scrubBack_scrubStays _ k l ow bs)
  unfold scrubLine
  dsimp only
  split
  · exact uncorrectable_scrubStays s l
  · split
    · exact .refl s
    · split
      · exact .refl s
      · exact back _ _
      · split
        · exact .refl s
        · exact back _ _
      · exact uncorrectable_scrubStays s l

/-- An uncorrectable line without a job or a base region is noted, and nothing else happens (R198). -/
theorem uncorrectable_without_job {s : State} (hj : s.job.pkg = none) (hb : s.base = none) (l : Nat) :
    uncorrectable s l = noteUncorrectable s l := by
  have j : (noteUncorrectable s l).job = s.job := by simp [noteUncorrectable]
  have b : (noteUncorrectable s l).base = s.base := by simp [noteUncorrectable]
  simp [uncorrectable, jobLoaded, j, b, hj, hb]

theorem noteUncorrectable_mem (s : State) (l : Nat) : (noteUncorrectable s l).mem = s.mem := by
  simp [noteUncorrectable]

theorem mem_poison_noteUncorrectable (s : State) (l : Nat) : l ∈ (noteUncorrectable s l).health.poison := by
  simp only [noteUncorrectable, raiseEv_health, modMemUnit]
  split
  · rename_i h; exact List.contains_iff_mem.mp h
  · simp

/-! ### The scrub gone on to the next line -/

theorem sideOnly_modMemUnit (s : State) (k : Nat) (f : MemUnit → MemUnit) : sideOnly s (modMemUnit s k f) :=
  ⟨rfl, rfl, rfl, rfl, rfl, rfl⟩

@[simp] theorem memUnitOf_modMemUnit_self (s : State) (k : Nat) (f : MemUnit → MemUnit) :
    memUnitOf (modMemUnit s k f) k = f (memUnitOf s k) := by
  simp [memUnitOf_modMemUnit]

/-- Going on to the next line changes no unit's count of uncorrectable reads. -/
theorem uncorrectable_scrubNextLine (s : State) (bolt : Bool) (k j : Nat) :
    (memUnitOf (modMemUnit s k (scrubNextLine bolt)) j).uncorrectable = (memUnitOf s j).uncorrectable := by
  rw [memUnitOf_modMemUnit]
  split
  · rename_i h; subst h; exact scrubNextLine_uncorrectable bolt _
  · rfl

theorem scrubRead_place (s : State) (bolt : Bool) (k l : Nat) (ow : Bool) :
    let u := memUnitOf s k
    let v := memUnitOf (modMemUnit (scrubLine s k l ow) k (scrubNextLine bolt)) k
    v.scrubNext = (if u.scrubNext + 1 < unitLines bolt then u.scrubNext + 1 else 0) ∧
      v.scrubPasses = (if u.scrubNext + 1 < unitLines bolt then u.scrubPasses else sat32 (u.scrubPasses + 1)) := by
  obtain ⟨hn, hp⟩ := scrubLine_scrubStays s k l ow k
  simp only [memUnitOf_modMemUnit_self, scrubNextLine_scrubNext, scrubNextLine_scrubPasses, hn, hp, and_self]

theorem scrubRead_corrected {s : State} {k l n : Nat} {pat : List (Nat × Byte)} (hp : l ∉ s.health.poison)
    (he : tabFind s.health.errors l = some pat) (hd : eccDecode pat = .corrected n) (bolt ow : Bool) :
    let u := memUnitOf s k
    let t := modMemUnit (scrubLine s k l ow) k (scrubNextLine bolt)
    (memUnitOf t k).corrected = sat32 (u.corrected + 1) ∧ (memUnitOf t k).symbols = sat32 (u.symbols + n) ∧
      (∀ a, memGet t.mem a = memGet s.mem a) ∧ t.job = s.job ∧
      (ow = false → tabFind t.health.errors l = none) ∧ (ow = true → t.health.errors = s.health.errors) := by
  intro u t
  have ht : t = modMemUnit (scrubBack (countCorrected s k n) k l ow (memBytes s.mem (64 * l) 64)) k (scrubNextLine bolt) := by
    simp only [t, scrubLine_corrected hp he hd]
  have herr : t.health.errors = if ow then s.health.errors else tabErase s.health.errors l := by
    rw [ht]; exact scrubBack_errors ..
  obtain ⟨h, e⟩ := memUnitOf_scrubBack (countCorrected s k n) k l ow (memBytes s.mem (64 * l) 64) k
  have hu : memUnitOf t k = scrubNextLine bolt { memUnitOf (countCorrected s k n) k with hits := h } := by
    rw [ht, memUnitOf_modMemUnit_self, e]
  refine ⟨?_, ?_, fun a => ?_, ?_, fun hw => ?_, fun hw => ?_⟩
  · simp [hu, countCorrected, u]
  · simp [hu, countCorrected, u]
  · rw [ht]; exact memGet_scrubBack (countCorrected s k n) k l ow a
  · rw [ht]; exact scrubBack_job ..
  · simp [herr, hw, tabFind_tabErase]
  · simp [herr, hw]

theorem scrubRead_uncorrectable {s : State} {k l : Nat} {pat : List (Nat × Byte)} (hp : l ∉ s.health.poison)
    (he : tabFind s.health.errors l = some pat) (hd : eccDecode pat = .uncorrectable) (hj : s.job.pkg = none)
    (hb : s.base = none) (bolt ow : Bool) :
    let t := modMemUnit (scrubLine s k l ow) k (scrubNextLine bolt)
    l ∈ t.health.poison ∧ t.mem = s.mem ∧ (memUnitOf t (unitKey (unitOf (64 * l)))).uncorrectable =
      sat32 ((memUnitOf s (unitKey (unitOf (64 * l)))).uncorrectable + 1) := by
  rw [scrubLine_uncorrectable hp he hd, uncorrectable_without_job hj hb]
  refine ⟨mem_poison_noteUncorrectable s l, noteUncorrectable_mem s l, ?_⟩
  rw [uncorrectable_scrubNextLine, memUnitOf_noteUncorrectable, if_pos rfl]

end Sys2Proof.Machine
end

section
/-! SUPPORT. MEM_CE_RATE, LPDDR_TRACKING and REGISTER_ACCESS (R3, R197, R206, R353): the event logged and the cause set. -/

namespace Sys2Proof.Machine

open Sys2Proof.Config Sys2Proof.Claims

theorem bitOf_eq_testBit (v i : Nat) : bitOf v i = v.testBit i := by
  rw [bitOf, Nat.testBit_eq_decide_div_mod_eq]; rfl

/-- A cause that is set holds its bit (R358). -/
theorem bitOf_setCause (s : State) (c : Cause) : bitOf (setCause s c).mgmt.causes (causeBit c) = true := by
  have h : (setCause s c).mgmt.causes = s.mgmt.causes ||| 2 ^ causeBit c := rfl
  rw [h, bitOf_eq_testBit, Nat.testBit_or, Nat.testBit_two_pow_self, Bool.or_true]

theorem pushLog_getLast? (m : Mgmt) (e : Event) : (pushLog m e).log.getLast? = some e := by
  unfold pushLog
  split
  · simp
  · rename_i h
    rw [List.getLast?_drop, if_neg (by simp only [List.length_append, List.length_singleton]; omega)]
    exact List.getLast?_concat

/-- An event raised is the last in the log (R353, R355). -/
theorem raiseEv_logsLast (s : State) (src : Nat) (c : Ev) (args : List Nat) :
    logsLast s (raiseEv s src c args) src c args :=
  ⟨pushLog_getLast? _ _, tabGet_tabPut_self _ _ _ _⟩

theorem raiseEv_sideOnly (s : State) (src : Nat) (c : Ev) (args : List Nat) : sideOnly s (raiseEv s src c args) := by
  simp [sideOnly]

@[simp] theorem memUnitOf_raiseEv (s : State) (src : Nat) (c : Ev) (args : List Nat) (k : Nat) :
    memUnitOf (raiseEv s src c args) k = memUnitOf s k := by
  simp [memUnitOf]

@[simp] theorem memUnitOf_setCause (s : State) (c : Cause) (k : Nat) : memUnitOf (setCause s c) k = memUnitOf s k := rfl

theorem exec_memCeRate_above {s : State} {bolt : Bool} {unit : Nat}
    (h : setting s 0x122 0 < growth s (unitKey (unit, bolt))) :
    ∃ t, exec (.memCeRate bolt unit) s = .next t ∧ sideOnly s t ∧
      memUnitOf t (unitKey (unit, bolt)) = { memUnitOf s (unitKey (unit, bolt)) with ceRate := true, ceTimes := [] } ∧
      bitOf t.mgmt.causes 6 = true ∧ logsLast s t (srcMem bolt unit) .memCeRate [unit] := by
  refine ⟨_, by rw [exec_memCeRate, execMemCeRate]; exact if_pos h, ?_, ?_, bitOf_setCause _ .memCe, ?_⟩
  · exact raiseEv_sideOnly (modMemUnit s (unitKey (unit, bolt)) fun u => { u with ceRate := true, ceTimes := [] })
      (srcMem bolt unit) .memCeRate [unit]
  · simp only [memUnitOf_setCause, memUnitOf_raiseEv, memUnitOf_modMemUnit_self]
  · exact raiseEv_logsLast (modMemUnit s (unitKey (unit, bolt)) _) (srcMem bolt unit) .memCeRate [unit]

theorem exec_memCeRate_below {s : State} {bolt : Bool} {unit : Nat}
    (h : growth s (unitKey (unit, bolt)) ≤ setting s 0x122 0) : exec (.memCeRate bolt unit) s = .next s := by
  rw [exec_memCeRate, execMemCeRate]; exact if_neg (by omega)

theorem exec_lpddrTracking_up {s : State} (hr : s.pins.rails ≠ []) (hs : 6 ≤ s.pins.startup) (ch : Nat) :
    exec (.lpddrTracking ch) s =
      .next (modMemUnit s (256 + ch) (fun u => { u with retrains := sat32 (u.retrains + 1) })) := by
  have h : railsUp s = true := by simp [railsUp, hr]
  rw [exec_lpddrTracking, execLpddrTracking, if_pos ⟨h, hs⟩]

end Sys2Proof.Machine
end

section
/-! SUPPORT. A segment of LPDDR5X as stored (R195): the lengths of its parts, its data lines and its segment word. -/

namespace Sys2Proof.Machine

open Sys2Proof.Config

/-! ### Lengths -/

theorem rsGen_length (n : Nat) : (rsGen n).length = n + 1 := by
  induction n with
  | zero => rfl
  | succ n ih => simp [rsGen, polyMulRoot, ih]

theorem rsDiv_length {g : List Nat} {n : Nat} (hn : 0 < n) (hg : g.length = n + 1) :
    ∀ (data rem : List Nat), rem.length = n → (rsDiv g data rem).length = n
  | [], _, h => h
  | _ :: ds, _, h => rsDiv_length hn hg ds _ (by simp [hg, h]; omega)

theorem rsCheck_length {n : Nat} (hn : 0 < n) (data : List Byte) : (rsCheck n data).length = n := by
  rw [rsCheck, List.length_map]
  exact rsDiv_length hn (rsGen_length n) _ _ List.length_replicate

@[simp] theorem xorBytes_length (bs : List Byte) (pat : List (Nat × Byte)) : (xorBytes bs pat).length = bs.length := by
  simp [xorBytes]

@[simp] theorem memBytes_length (m : Mem) (a n : Nat) : (memBytes m a n).length = n := by simp [memBytes]

@[simp] theorem leBytes_length (n v : Nat) : (leBytes n v).length = n := by
  induction n generalizing v with
  | zero => rfl
  | succ n ih => simp [leBytes, ih]

theorem storedWord_length (s : State) (l : Nat) : (storedWord s l).length = 72 := by
  simp [storedWord, rsCheck_length]

theorem length_flatMap_range {α : Type} {f : Nat → List α} {c : Nat} (hf : ∀ i, (f i).length = c) (n : Nat) :
    ((List.range n).flatMap f).length = n * c := by
  induction n with
  | zero => simp
  | succ n ih => rw [List.range_succ, List.flatMap_append, List.length_append, ih, Nat.succ_mul]; simp [hf]

/-- Piece `j` of equal pieces put together. -/
theorem take_drop_flatMap_range {α : Type} {f : Nat → List α} {c : Nat} (hf : ∀ i, (f i).length = c) {n j : Nat}
    (hj : j < n) : (((List.range n).flatMap f).drop (c * j)).take c = f j := by
  obtain ⟨m, rfl⟩ : ∃ m, n = j + (m + 1) := ⟨n - j - 1, by omega⟩
  have hl : ((List.range j).flatMap f).length = c * j := by rw [length_flatMap_range hf, Nat.mul_comm]
  rw [List.range_add, List.flatMap_append, List.drop_left' hl, List.range_succ_eq_map]
  simp only [List.map_cons, List.flatMap_cons, Nat.add_zero]
  exact List.take_left' (hf j)

theorem dataLine_length (s : State) (l : Nat) : ((storedWord s l).take 64).length = 64 := by
  simp [storedWord_length]

theorem checkArea_length (s : State) (ch seg : Nat) : (checkArea s ch seg).length = 128 := by
  have h : ∀ j, ((storedWord s (segmentLine ch seg j)).drop 64).length = 8 := fun j => by simp [storedWord_length]
  simp [checkArea, length_flatMap_range h, rsCheck_length]

theorem segmentBytes_length (s : State) (ch seg : Nat) : (segmentBytes s ch seg).length = 1024 := by
  rw [segmentBytes, List.length_append, length_flatMap_range (fun _ => dataLine_length s _), checkArea_length]

/-! ### Data lines -/

theorem tabGet_of_tabFind_none {α : Type} (d : α) (k : Nat) : ∀ {t : Tab α}, tabFind t k = none → tabGet d t k = d
  | [], _ => rfl
  | (j, v) :: t, h => by
    by_cases hj : j = k
    · simp [tabFind, hj] at h
    · simp only [tabFind, tabGet, hj, if_false] at h ⊢
      exact tabGet_of_tabFind_none d k h

@[simp] theorem xorBytes_nil (bs : List Byte) : xorBytes bs [] = bs := by
  simp [xorBytes, tabGet]

/-- A line without a stored error stores its bytes (R194). -/
theorem dataLine_without_error {s : State} {l : Nat} (h : tabFind s.health.errors l = none) :
    (storedWord s l).take 64 = memBytes s.mem (64 * l) 64 := by
  simp only [storedWord, tabGet_of_tabFind_none [] l h, xorBytes_nil]
  exact List.take_left' (memBytes_length _ _ _)

/-- Data line `j` of a segment lies at byte 64j (R195). -/
theorem segmentBytes_dataLine (s : State) (ch seg : Nat) {j : Nat} (hj : j < 14) :
    ((segmentBytes s ch seg).drop (64 * j)).take 64 = (storedWord s (segmentLine ch seg j)).take 64 := by
  have hf : ∀ i, ((storedWord s (segmentLine ch seg i)).take 64).length = 64 := fun _ => dataLine_length s _
  have hl := length_flatMap_range hf 14
  rw [segmentBytes, List.drop_append_of_le_length (by omega), List.take_append_of_le_length (by rw [List.length_drop]; omega)]
  exact take_drop_flatMap_range hf hj

/-! ### The segment word -/

/-- The number whose bits below `n` are those of `p`. -/
def bitSum (p : Nat → Bool) (n : Nat) : Nat := ((List.range n).map (fun j => if p j then 2 ^ j else 0)).sum

theorem bitSum_succ (p : Nat → Bool) (n : Nat) : bitSum p (n + 1) = bitSum p n + if p n then 2 ^ n else 0 := by
  simp [bitSum, List.range_succ]

theorem bitSum_lt (p : Nat → Bool) (n : Nat) : bitSum p n < 2 ^ n := by
  induction n with
  | zero => simp [bitSum]
  | succ n ih => rw [bitSum_succ, Nat.pow_succ]; split <;> omega

theorem testBit_bitSum (p : Nat → Bool) {n j : Nat} (hj : j < n) : (bitSum p n).testBit j = p j := by
  induction n with
  | zero => omega
  | succ n ih =>
    have top : (bitSum p n).testBit n = false := Nat.testBit_lt_two_pow (bitSum_lt p n)
    rw [bitSum_succ]
    rcases Nat.lt_succ_iff_lt_or_eq.mp hj with h | rfl
    · split
      · rw [Nat.add_comm, Nat.testBit_two_pow_add_gt h]; exact ih h
      · exact ih h
    · cases hp : p j with
      | true => simp [Nat.add_comm, Nat.testBit_two_pow_add_eq, top]
      | false => simpa using top

theorem segmentWord_eq_bitSum (s : State) (ch seg : Nat) :
    segmentWord s ch seg = bitSum (fun j => s.health.poison.contains (segmentLine ch seg j)) 14 := rfl

end Sys2Proof.Machine
end

section
namespace Sys2Proof.Machine

open Sys2Proof.Config Sys2Proof.Claims

/-- Settles O45. The scrub goes on whatever the line holds, for even the drain that an uncorrectable line starts
(R198, R321, R327) keeps every unit's place (`scrubLine_scrubStays`). That REGISTER_ACCESS changes nothing but the
log, with its operand as the source, is log entry 61. -/
theorem scrubAndRatesResult : Obligations.ScrubAndRatesResult := by
  intro s bolt unit k u l
  refine ⟨fun hs ow => ⟨_, exec_scrubRead_scrubbing hs bolt unit ow, ?_⟩,
    ⟨exec_memCeRate_above, exec_memCeRate_below⟩, fun hr hs => ?_, ?_, fun ch seg j a _ hj ha => ⟨⟨?_, ?_⟩, ?_⟩⟩
  · obtain ⟨hnext, hpasses⟩ := scrubRead_place s bolt k l ow
    refine ⟨hnext, hpasses, fun he hp => ?_, fun pat n he hp hd => scrubRead_corrected hp he hd bolt ow,
      fun pat he hp hd hj hb => scrubRead_uncorrectable hp he hd hj hb bolt ow⟩
    rw [scrubLine_without_error hp he]
    exact ⟨sideOnly_modMemUnit .., rfl, by simp [k, u]⟩
  · exact ⟨_, exec_lpddrTracking_up hr hs unit, sideOnly_modMemUnit .., memUnitOf_modMemUnit_self .., rfl⟩
  · exact ⟨_, rfl, raiseEv_sideOnly .., raiseEv_dev .., raiseEv_health .., raiseEv_logsLast ..⟩
  · unfold storageByte; omega
  · unfold storageCheck; omega
  · refine ⟨segmentBytes_length s ch seg, fun he => ?_, ?_, ?_⟩
    · rw [segmentBytes_dataLine s ch seg hj, dataLine_without_error he]
    · rw [bitOf_eq_testBit, segmentWord_eq_bitSum, testBit_bitSum _ hj]
    · exact bitSum_lt _ 14

end Sys2Proof.Machine
end

section
/-! SUPPORT. The answer to a request that started: the reply stands in its mailbox, and nothing but sending it
changes the device (R335 to R338). -/

namespace Sys2Proof.Machine

open Sys2Proof.Config Sys2Proof.Claims

/-- The mailbox of a request that was taken is answered as the one that was rung: taking it changes RUNG alone. -/
theorem repliedBox_takeRing (s : State) (m : Nat) (st : Status) (body : List Byte) :
    repliedBox (boxOf (takeRing s m) m) st body = { boxOf s m with
      rung := false, waits := none, reply := memPut [] 0 (replyBytes (boxOf s m) st body)
      sent := some (replyBytes (boxOf s m) st body).length } := by
  simp [repliedBox, replyBytes, reqOp, reqTag]

/-- A reply to a request that has just been taken changes nothing else (R335). -/
theorem reply_takeRing_onlyReply {s : State} {m : Nat} (h : (boxOf s m).orphan = false) (st : Status) (body : List Byte) :
    onlyReply s (reply (takeRing s m) m st body) m := by
  have hs := reply_sends (takeRing s m) m st body (by simpa using h)
  refine ⟨by rw [Sends] at hs; rw [hs]; rfl, fun k hk => ?_⟩
  rw [hs.box, boxOf_setBox, if_neg (Ne.symm hk), boxOf_takeRing, if_neg (Ne.symm hk)]

theorem reply_takeRing_answered {s : State} {m : Nat} (h : (boxOf s m).orphan = false) (st : Status) (body : List Byte) :
    answered s (reply (takeRing s m) m st body) m st body := by
  rw [answered, (reply_sends (takeRing s m) m st body (by simpa using h)).box, boxOf_setBox, if_pos rfl,
    repliedBox_takeRing]

/-- A request whose length and reserved fields are right is refused by the state check (R338 step 4). -/
theorem serve_refuses_state {op : Nat} {l : State → Mailbox → Bool} {r : Mailbox → Bool} {own : State → Option Status}
    {act : State → Nat → Mailbox → State} {m : Nat} {s : State} {x : Status} (hring : s.mgmt.rings.head? = some m)
    (hrung : (boxOf s m).rung = true) (hop : reqOp (boxOf s m) = op) (hlen : reqLen (boxOf s m) ≤ 4080)
    (hbody : l s (boxOf s m) = true) (hhdr : hdrRsv (boxOf s m) = false) (hrsv : r (boxOf s m) = false)
    (hx : stateFault s (boxOf s m) own = some x) : serve op l r own act m s = .next (replyBad (takeRing s m) m x 0 0) :=
  serve_refuses hring hrung hop (by simp [hlen, hbody, hhdr, hrsv, hx])

/-- A job load meets a job that is loaded, running or being cleared (R19). -/
theorem jobLoadState_busy {s : State}
    (h : s.dev.st = .running ∨ s.dev.st = .filling ∧ (jobLoaded s = true ∨ s.dev.work ≠ .none)) :
    jobLoadState s = some .busyJob ∧ reachable s = true := by
  rcases h with h | ⟨h, hw⟩
  · simp [jobLoadState, flagged, reachable, h]
  · simp [jobLoadState, flagged, reachable, h, hw]

end Sys2Proof.Machine
end

section
/-! SUPPORT. The counterexample to O35: a state whose table of mailboxes lists one mailbox twice. -/

namespace Sys2Proof.Machine

open Sys2Proof.Config Sys2Proof.Claims

/-- A package without contents. -/
def bareJob : Package :=
  { lz7 := false, nmicro := 1, ntags := 0, seed := 0, digest := 0, rankDigest := 0, baseDigest := none, psets := [], descs := []
    stitches := [], chains := [], needle := [], chalk := [], variants := [], escal := [], ranges := [], layers := []
    plan := { rank := 0, nranks := 1, jobId := 0, ports := [], ranks := [], groups := [], gates := [] }, regions := [] }

/-- A snapshot that waits for its capture. -/
def waitingSnap : Snap :=
  { id := 0, portable := false, layout := 0, frozen := false, session := 1, flows := [], remote := 0, mailbox := 0, step := 0
    captured := false, chunks := [], staged := [], unsent := [], manifest := 0, block := 0, variant := 0 }

/-- A held job whose state is INVALID, with a snapshot not yet captured; JOB_END (OP 0x103, 4 bytes) stands rung in mailbox
0, which the table of mailboxes lists a second time, as waiting for the snapshot. -/
def listedTwice : State :=
  { State.reset with
    dev := { st := .running }
    job := { pkg := some bareJob, held := true, invalid := true }
    snap := { snap := some waitingSnap }
    mgmt := { rings := [0]
              boxes := [(0, { st := .busy 1, rung := true, req := [(0, 3#8), (1, 1#8), (4, 4#8)] }),
                        (0, { st := .busy 1, waits := some .snapshot })] } }

theorem listedTwice_accepted : accepted listedTwice 0 reqJobEnd := by
  unfold accepted atHead; decide

/-- Holding the INVALID job ends its snapshot (R313), and every mailbox listed as waiting for it is answered ABORTED:
mailbox 0 too, so that its JOB_END no longer waits. -/
theorem listedTwice_jobEnd : ∃ t, exec (.jobEnd 0) listedTwice = .next t ∧ (boxOf t 0).waits = none :=
  ⟨_, rfl, by decide⟩

end Sys2Proof.Machine
end

section
/-! SUPPORT. The counterexample to O46: a full scan pass of a device that holds a write over the line with the error. -/

namespace Sys2Proof.Machine

open Sys2Proof.Config Sys2Proof.Claims

/-- A READY device that runs a full scan pass. The first bolt line holds an error of one byte, and a held write covers
the line (R303). -/
def heldOverError : State :=
  { State.reset with
    dev := { st := .ready, work := .selfScan }
    health := { errors := [(boltBase / 64, [(71, 1#8)])] }
    snap := { heldWrites := [{ addr := boltBase, bytes := List.replicate 64 1#8 }] } }

/-- A read of the line delivers the bytes of the held write, in which the decoder finds no error: the march test counts
nothing. -/
theorem heldOverError_scanDone : ∃ t, exec (.scanDone ⟨[], [], [], []⟩) heldOverError = .next t ∧
    (memUnitOf t (unitKey (unitOf (64 * (boltBase / 64))))).corrected = 0 :=
  ⟨_, rfl, by decide⟩

end Sys2Proof.Machine
end

section
/-! SUPPORT. What a replying device, an abandoned step with its held job, and a drain leave alone (R20, R161, R162, R321,
R327, R335). -/

namespace Sys2Proof.Machine

open Sys2Proof.Config

/-- A fold whose steps are related to their states by a preorder relates its end to its beginning. -/
theorem foldl_related {α : Type} {R : State → State → Prop} (hrefl : ∀ s, R s s) (htrans : ∀ {a b c}, R a b → R b c → R a c)
    {f : State → α → State} (hf : ∀ t a, R t (f t a)) (l : List α) (s : State) : R s (l.foldl f s) :=
  List.foldlRecOn l f (motive := R s) (hrefl s) fun t ht a _ => htrans ht (hf t a)

/-! ### Flows that close -/

theorem closeFlow_sends (s : State) (f : Nat) : Sends s (closeFlow s f) := by
  unfold closeFlow
  split
  · exact .refl s
  · exact (sendPkt_sends ..).trans rfl

theorem closeIfDone_sends (s : State) (f : Nat) : Sends s (closeIfDone s f) := by
  unfold closeIfDone
  split
  · exact .refl s
  · split
    · exact closeFlow_sends s f
    · exact .refl s

theorem sendAck_sends (s : State) (f : Nat) (nak : Option (Nat × Nat)) : Sends s (sendAck s f nak) := by
  unfold sendAck
  split
  · exact .refl s
  · split
    · exact (setFlow_sends ..).trans (closeIfDone_sends ..)
    · exact (setFlow_sends ..).trans (sendPkt_sends ..)

theorem refuseHeld_sends (s : State) (f : Nat) : Sends s (refuseHeld s f) := by
  unfold refuseHeld
  split
  · exact .refl s
  · exact foldl_related Sends.refl Sends.trans (fun t _ => sendAck_sends t f _) _ s

theorem modFlow_sends (s : State) (f : Nat) (g : Flow → Flow) : Sends s (modFlow s f g) := by
  unfold modFlow
  split
  · exact .refl s
  · exact setFlow_sends ..

theorem closeFlows_sends (s : State) (p : Nat → Flow → Bool) : Sends s (closeFlows s p) :=
  foldl_related Sends.refl Sends.trans
    (fun t _ => (refuseHeld_sends t _).trans ((modFlow_sends ..).trans (closeFlow_sends ..))) _ s

/-! ### Replies -/

/-- From `s` to `t` only what replies change: mailboxes, and what sending their packets changes (R335). -/
def Replies (s t : State) : Prop :=
  t = { s with
    host := { s.host with ports := t.host.ports, flows := t.host.flows, sessions := t.host.sessions }
    mgmt := { s.mgmt with boxes := t.mgmt.boxes, log := t.mgmt.log, dropped := t.mgmt.dropped, seqs := t.mgmt.seqs } }

theorem Replies.refl (s : State) : Replies s s := rfl

theorem Replies.trans {a b c : State} (h : Replies a b) (k : Replies b c) : Replies a c := by
  unfold Replies at *; rw [h] at k; exact k

theorem Sends.replies {s t : State} (h : Sends s t) : Replies s t := by
  unfold Sends at h; unfold Replies; rw [h]

theorem reply_replies (s : State) (m : Nat) (st : Status) (body : List Byte) : Replies s (reply s m st body) := by
  cases h : (boxOf s m).orphan with
  | true => simp only [reply, h, if_true]; rfl
  | false => exact Replies.trans (b := setBox s m _) rfl (reply_sends s m st body h).replies

theorem releaseAt_replies (s : State) (w : WaitPoint) (body : Mailbox → List Byte) : Replies s (releaseAt s w body) :=
  foldl_related Replies.refl Replies.trans (fun t m => reply_replies t m .ok _) _ s

theorem abortAt_replies (s : State) (w : WaitPoint) (st : Status) : Replies s (abortAt s w st) :=
  foldl_related Replies.refl Replies.trans (fun t m => reply_replies t m st _) _ s

/-- Without mailboxes none waits. -/
theorem abortAt_of_no_boxes {s : State} (h : s.mgmt.boxes = []) (w : WaitPoint) (st : Status) : abortAt s w st = s := by
  simp [abortAt, boxesAt, h]

/-! ### An abandoned step and a held job -/

/-- From `s` to `t` only what abandoning a step, holding the job and ending its snapshot change; a device without mailboxes
in use has none in use after it (R162, R180, R301). -/
def Halts (s t : State) : Prop :=
  t = { s with
    free := t.free, job := t.job, shut := t.shut, panels := t.panels, fence := t.fence, ports := t.ports, coll := t.coll
    snap := t.snap
    host := { s.host with ports := t.host.ports, flows := t.host.flows, sessions := t.host.sessions }
    mgmt := { s.mgmt with boxes := t.mgmt.boxes, log := t.mgmt.log, dropped := t.mgmt.dropped, seqs := t.mgmt.seqs } } ∧
  (s.mgmt.boxes = [] → t.mgmt.boxes = [])

theorem Halts.refl (s : State) : Halts s s := ⟨rfl, id⟩

theorem Halts.trans {a b c : State} (h : Halts a b) (k : Halts b c) : Halts a c := by
  obtain ⟨h, hb⟩ := h
  obtain ⟨k, kb⟩ := k
  refine ⟨?_, fun e => kb (hb e)⟩
  rw [h] at k; exact k

theorem Replies.halts {s t : State} (h : Replies s t) (hb : s.mgmt.boxes = [] → t.mgmt.boxes = []) : Halts s t := by
  refine ⟨?_, hb⟩
  unfold Replies at h; rw [h]

theorem Sends.halts {s t : State} (h : Sends s t) : Halts s t :=
  h.replies.halts fun e => by rw [h]; exact e

theorem Halts.frame {s u : State} (h : Halts s u) : u.dev = s.dev ∧ u.fw = s.fw ∧ u.hubs = s.hubs := by
  obtain ⟨h, -⟩ := h
  rw [h]
  exact ⟨rfl, rfl, rfl⟩

theorem abortAt_halts (s : State) (w : WaitPoint) (st : Status) : Halts s (abortAt s w st) :=
  (abortAt_replies s w st).halts fun e => by rw [abortAt_of_no_boxes e, e]

theorem stopSnapshot_halts (s : State) (cause : Nat) : Halts s (stopSnapshot s cause) := by
  unfold stopSnapshot
  split
  · exact .refl s
  · exact Halts.trans (b := { s with snap := _ }) ⟨rfl, id⟩ ((raiseEv_sends _ _ _ _).halts.trans (abortAt_halts _ _ _))

theorem spread_sends (flows : State → List Nat) (mk : Nat → List Byte → TxKind × Send) :
    ∀ (n turn off : Nat) (bs : List Byte) (s : State), Sends s (spread flows mk n turn off bs s).1
  | 0, _, _, _, s => .refl s
  | n + 1, turn, off, bs, s => by
    simp only [spread]
    split
    · exact .refl s
    · split
      · exact .refl s
      · exact (hostSend_sends s _ _ _).trans (spread_sends flows mk n _ _ _ _)

theorem pumpSnap_halts (s : State) : Halts s (pumpSnap s) := by
  unfold pumpSnap
  split
  · refine Halts.trans (List.foldlRecOn _ _ (motive := fun t : State × List (Nat × Nat × Nat) => Halts s t.1) (.refl s)
      fun t ht u _ => ht.trans (spread_sends _ _ _ _ _ _ _).halts) ⟨rfl, id⟩
  · exact .refl s

theorem sendReady_halts (s : State) : Halts s (sendReady s) := by
  unfold sendReady
  split
  · split
    · exact Halts.trans ⟨rfl, id⟩ (pumpSnap_halts _)
    · exact .refl s
  · exact .refl s

theorem captureAt_halts (s : State) (mark : Option Nat) : Halts s (captureAt s mark) := by
  unfold captureAt
  split
  · split
    · exact .refl s
    · rename_i n p _ _ _
      extract_lets b n0 n1 snap s1
      refine .trans (.trans (b := s1) ⟨rfl, id⟩ ?_) (sendReady_halts _)
      split
      · rename_i hwaits
        refine (reply_replies s1 _ _ _).halts fun e => ?_
        have hbox : boxOf s1 n.mailbox = {} := by rw [boxOf, e, tabGet]
        simp [hbox] at hwaits
      · exact .refl s1
  · exact .refl s

theorem captureHeld_halts (s : State) : Halts s (captureHeld s) := by
  unfold captureHeld
  split
  · exact stopSnapshot_halts s 2
  · exact captureAt_halts s none

theorem holdJob_halts (s : State) : Halts s (holdJob s) := Halts.trans ⟨rfl, id⟩ (captureHeld_halts _)

theorem stopJob_halts (s : State) (st : Status) (e : Ev) (args : List Nat) : Halts s (stopJob s st e args) := by
  unfold stopJob
  split
  · exact holdJob_halts s
  · refine .trans (.trans ?_ (holdJob_halts _)) (raiseEv_sends ..).halts
    exact ⟨rfl, id⟩

theorem overrideStop_halts (s : State) (cause : Nat) : Halts s (overrideStop s cause) := by
  unfold overrideStop; split <;> exact ⟨rfl, id⟩

theorem actOn_halts (s : State) (p : Package) (cause : Nat) : Halts s (actOn s p cause) := by
  unfold actOn
  split
  · split
    · exact ⟨rfl, id⟩
    · exact stopJob_halts _ _ _ _
  · split
    · exact stopJob_halts _ _ _ _
    · exact .refl s
  · exact holdJob_halts s

theorem poisonAction_halts (s : State) : Halts s (poisonAction s) := by
  unfold poisonAction
  split
  · exact (overrideStop_halts _ _).trans ((actOn_halts _ _ _).trans ⟨rfl, id⟩)
  · exact .refl s

theorem abandonWork_halts (s : State) : Halts s (abandonWork s) := by
  unfold abandonWork; dsimp only; split <;> exact ⟨rfl, id⟩

theorem takePoison_halts (s : State) (p : Poison) : Halts s (takePoison s p) := by
  unfold takePoison
  refine .trans (.trans ?_ (abandonWork_halts _)) (poisonAction_halts _)
  exact ⟨rfl, id⟩

theorem hostPoison_halts (s : State) (p : Poison) : Halts s (hostPoison s p) :=
  foldl_related Halts.refl Halts.trans (fun t _ => (hostSend_sends t ..).halts) _ s

theorem spreadPoison_halts (s : State) (p : Poison) (but : Option Nat) : Halts s (spreadPoison s p but) := by
  unfold spreadPoison
  refine .trans ?_ (hostPoison_halts _ p)
  exact foldl_related Halts.refl Halts.trans (f := fun t q => seamSend t q (.poison p)) (fun _ _ => ⟨rfl, id⟩) _ s

theorem sendPoisonFrom_halts (s : State) (cause origin : Nat) : Halts s (sendPoisonFrom s cause origin) := by
  unfold sendPoisonFrom
  extract_lets p s1
  refine .trans ?_ (takePoison_halts _ p)
  have h1 : Halts s s1 := (spreadPoison_halts s p none).trans (raiseEv_sends ..).halts
  clear_value s1
  exact h1.trans ⟨rfl, id⟩

theorem sendPoison_halts (s : State) (cause : Nat) : Halts s (sendPoison s cause) := by
  unfold sendPoison
  split
  · exact sendPoisonFrom_halts s cause _
  · exact .refl s

/-! ### What a drain leaves alone -/

/-- From `s` to `t` only what the recording of a suspect and a drain change, which neither name another suspect nor file a
clear record; a device without mailboxes in use has none in use after it (R321, R327). -/
def Drains (s t : State) : Prop :=
  t = { s with
    free := t.free, mem := t.mem, health := t.health, job := t.job, load := t.load, base := t.base, shut := t.shut
    panels := t.panels, hubs := t.hubs, fence := t.fence, ports := t.ports, coll := t.coll, snap := t.snap
    dev := { t.dev with clears := s.dev.clears, clearSeq := s.dev.clearSeq }
    pins := { s.pins with alert := t.pins.alert, driven := t.pins.driven }
    host := { s.host with ports := t.host.ports, flows := t.host.flows, sessions := t.host.sessions, slots := t.host.slots }
    mgmt := { s.mgmt with boxes := t.mgmt.boxes, settings := t.mgmt.settings, log := t.mgmt.log, dropped := t.mgmt.dropped
                          seqs := t.mgmt.seqs, causes := t.mgmt.causes } } ∧
  (s.mgmt.boxes = [] → t.mgmt.boxes = []) ∧ (∀ c, s.dev.suspect = some c → t.dev.suspect = some c)

theorem Drains.refl (s : State) : Drains s s := ⟨rfl, id, fun _ => id⟩

theorem Drains.trans {a b c : State} (h : Drains a b) (k : Drains b c) : Drains a c := by
  obtain ⟨h, hb, hs⟩ := h
  obtain ⟨k, kb, ks⟩ := k
  refine ⟨?_, fun e => kb (hb e), fun x e => ks x (hs x e)⟩
  rw [h] at k; exact k

theorem Halts.drains {s t : State} (h : Halts s t) : Drains s t := by
  obtain ⟨h, hb⟩ := h
  refine ⟨?_, hb, fun c e => ?_⟩
  · rw [h]
  · rw [h]; exact e

theorem Sends.drains {s t : State} (h : Sends s t) : Drains s t := h.halts.drains

theorem recordSuspect_drains (s : State) (code unit verdict : Nat) : Drains s (recordSuspect s code unit verdict) := by
  unfold recordSuspect
  refine .trans ?_ (raiseEv_sends ..).drains
  split
  · exact ⟨rfl, id, fun _ => id⟩
  · rename_i h
    exact ⟨rfl, id, fun c e => by simp [h] at e⟩

theorem noteUncorrectable_drains (s : State) (l : Nat) : Drains s (noteUncorrectable s l) := by
  unfold noteUncorrectable
  refine .trans ?_ (raiseEv_sends ..).drains
  exact ⟨rfl, id, fun _ => id⟩

theorem fatalLine_drains (s : State) (l : Nat) : Drains s (fatalLine s l) := by
  unfold fatalLine
  dsimp only
  split
  · split
    · exact (noteUncorrectable_drains s l).trans (recordSuspect_drains ..)
    · exact (noteUncorrectable_drains s l).trans ((recordSuspect_drains ..).trans (sendPoison_halts _ 5).drains)
  · exact noteUncorrectable_drains s l

theorem putLines_drains (s : State) (a : Nat) (bs : List Byte) : Drains s (putLines s a bs) := by
  unfold putLines; split <;> exact ⟨rfl, id, fun _ => id⟩

theorem drainHeld_drains (s : State) (w : HeldWrite) : Drains s (drainHeld s w) := by
  unfold drainHeld
  refine .trans (foldl_related Drains.refl Drains.trans (fun t l => ?_) _ s) (putLines_drains ..)
  split
  · exact fatalLine_drains t l
  · exact .refl t
  · exact ⟨rfl, id, fun _ => id⟩

theorem dropHeld_drains (s : State) : Drains s (dropHeld s) :=
  Drains.trans (b := endHold s []) ⟨rfl, id, fun _ => id⟩ (foldl_related Drains.refl Drains.trans drainHeld_drains _ _)

theorem failRestore_drains (s : State) (st : Status) (chunk : List Nat) : Drains s (failRestore s st chunk) := by
  unfold failRestore
  split
  · exact .refl s
  · refine .trans ?_ (raiseEv_sends ..).drains
    exact ⟨rfl, id, fun _ => id⟩

theorem goState_drains (s : State) (st : DevState) : Drains s (goState s st) := by
  unfold goState; dsimp only; split <;> exact ⟨rfl, id, fun _ => id⟩

theorem dropBase_drains (s : State) : Drains s (dropBase s) := by
  unfold dropBase; split <;> exact ⟨rfl, id, fun _ => id⟩

theorem drainWork_drains (s : State) : Drains s (drainWork s) := by
  unfold drainWork
  split
  · exact ⟨rfl, id, fun _ => id⟩
  · exact (dropBase_drains s).trans ⟨rfl, id, fun _ => id⟩
  · exact (dropBase_drains s).trans ⟨rfl, id, fun _ => id⟩
  · exact ⟨rfl, id, fun _ => id⟩

theorem endJobNow_drains (s : State) (retain : Bool) (w : Work) : Drains s (endJobNow s retain w) := by
  unfold endJobNow
  extract_lets e s1 s2
  have h2 : Drains s s2 := ((raiseEv_sends ..).trans (closeFlows_sends s1 _)).drains
  exact h2.trans ⟨rfl, id, fun _ => id⟩

theorem closeWindow_drains (s : State) : Drains s (closeWindow s) := by
  unfold closeWindow
  exact (closeFlows_sends ..).drains.trans ⟨rfl, id, fun _ => id⟩

theorem setCause_drains (s : State) (c : Cause) : Drains s (setCause s c) := ⟨rfl, id, fun _ => id⟩

theorem startDrain_drains (s : State) (code unit : Nat) : Drains s (startDrain s code unit) := by
  unfold startDrain
  extract_lets rec0 rec1 s0 f s1 s3 e d s4
  have h0 : Drains s s0 := ((abortAt_halts s _ _).trans (abortAt_halts _ _ _)).drains
  have hf : Drains s0 f := by
    simp only [f]
    split
    · exact (raiseEv_sends ..).drains
    · exact .refl s0
  have h1 : Drains f s1 := (closeWindow_drains f).trans ((raiseEv_sends ..).drains.trans (setCause_drains ..))
  have h3 : Drains s1 s3 :=
    (stopSnapshot_halts s1 2).drains.trans ((dropHeld_drains _).trans (failRestore_drains ..))
  have he : Drains s3 e := endJobNow_drains s3 false .drainClear
  have h4 : Drains s3 s4 := by
    clear_value e s3
    simp only [s4]
    split
    · exact he.trans ⟨rfl, id, fun _ => id⟩
    · exact drainWork_drains s3
  refine .trans (.trans (h0.trans (hf.trans (h1.trans (h3.trans h4)))) ?_) (goState_drains ..)
  clear_value s4 rec1
  exact ⟨rfl, id, fun _ => id⟩

theorem drainIfDue_drains (s : State) : Drains s (drainIfDue s) := by
  unfold drainIfDue
  split
  · exact .refl s
  · split
    · exact .refl s
    · split
      case h_5 => exact .refl s
      all_goals exact startDrain_drains s _ _

end Sys2Proof.Machine
end

section
/-! SUPPORT. The recording of a suspect and the drain that follows (R321, R326, R327). -/

namespace Sys2Proof.Machine

open Sys2Proof.Config Sys2Proof.Claims

/-! ### Entering a state -/

@[simp] theorem goState_dev (s : State) (st : DevState) : (goState s st).dev = { s.dev with st := st } := by
  unfold goState; dsimp only; split <;> rfl

@[simp] theorem goState_mem (s : State) (st : DevState) : (goState s st).mem = s.mem := by
  unfold goState; dsimp only; split <;> rfl

@[simp] theorem goState_job (s : State) (st : DevState) : (goState s st).job = s.job := by
  unfold goState; dsimp only; split <;> rfl

@[simp] theorem boxOf_goState (s : State) (st : DevState) (m : Nat) : boxOf (goState s st) m = boxOf s m := by
  unfold goState; dsimp only; split <;> rfl

/-! ### Drains and suspects -/

@[simp] theorem startDrain_st (s : State) (code unit : Nat) : (startDrain s code unit).dev.st = .draining := by
  simp [startDrain]

theorem drainWork_job (s : State) : (drainWork s).job = s.job := by
  unfold drainWork dropBase
  split
  · rfl
  · dsimp only; split <;> rfl
  · dsimp only; split <;> rfl
  · rfl

/-- A drain ends the job, if one is loaded (R327 step 3). -/
theorem startDrain_pkg (s : State) (code unit : Nat) : (startDrain s code unit).job.pkg = none := by
  unfold startDrain
  extract_lets rec0 rec1 s0 f s1 s3 e d s4
  have h4 : s4.job.pkg = none := by
    simp only [s4]
    split
    · rfl
    · rename_i h
      rw [drainWork_job]
      simpa [jobLoaded] using h
  simpa using h4

/-- A suspect device in service that holds no case drains at once (R326). -/
theorem drainIfDue_inService {s : State} {c : Nat × Nat} (hc : s.dev.suspect = some c) (hcases : heldCases s = false)
    (hst : s.dev.st = .ready ∨ s.dev.st = .running ∨ s.dev.st = .spare ∨ s.dev.st = .filling) :
    drainIfDue s = startDrain s c.1 c.2 := by
  obtain ⟨code, unit⟩ := c
  rcases hst with h | h | h | h <;> simp [drainIfDue, drainCause, hc, hcases, h]

theorem drainIfDue_sound {s : State} (h : sound s) : drainIfDue s = s := by
  obtain ⟨hsus, hdr⟩ := h
  simp [drainIfDue, drainCause, hsus, hdr]

@[simp] theorem recordSuspect_suspect (s : State) (code unit verdict : Nat) :
    (recordSuspect s code unit verdict).dev.suspect = some (s.dev.suspect.getD (code, unit)) := by
  unfold recordSuspect nameVerdict
  cases h : s.dev.suspect <;> simp [h]

theorem recordSuspect_service (s : State) (code unit verdict : Nat) :
    (recordSuspect s code unit verdict).dev.st = s.dev.st ∧ (recordSuspect s code unit verdict).hubs = s.hubs := by
  unfold recordSuspect nameVerdict
  split <;> exact ⟨rfl, rfl⟩

/-- The state in which a suspect device asks whether its drain is due: what recording leaves, after poison. -/
theorem makeSuspect_eq_drainIfDue (s : State) (code unit verdict : Nat) :
    ∃ u, Halts (recordSuspect s code unit verdict) u ∧ makeSuspect s code unit verdict = drainIfDue u := by
  unfold makeSuspect
  dsimp only
  split
  · exact ⟨_, sendPoison_halts .., rfl⟩
  · exact ⟨_, .refl _, rfl⟩

theorem makeSuspect_drains (s : State) (code unit verdict : Nat) : Drains s (makeSuspect s code unit verdict) := by
  obtain ⟨u, hu, e⟩ := makeSuspect_eq_drainIfDue s code unit verdict
  rw [e]
  exact (recordSuspect_drains ..).trans (hu.drains.trans (drainIfDue_drains u))

/-- The first cause recorded stays (R321). -/
theorem makeSuspect_suspect (s : State) (code unit verdict : Nat) :
    (makeSuspect s code unit verdict).dev.suspect = some (s.dev.suspect.getD (code, unit)) := by
  obtain ⟨u, hu, e⟩ := makeSuspect_eq_drainIfDue s code unit verdict
  obtain ⟨-, -, hkept⟩ := hu.drains.trans (drainIfDue_drains u)
  rw [e]
  exact hkept _ (recordSuspect_suspect ..)

theorem heldCases_of_hubs {s t : State} (h : t.hubs = s.hubs) : heldCases t = heldCases s := by
  simp only [heldCases, h]

theorem makeSuspect_inService {s : State} (hcases : heldCases s = false)
    (hst : s.dev.st = .ready ∨ s.dev.st = .running ∨ s.dev.st = .spare ∨ s.dev.st = .filling) (code unit verdict : Nat) :
    (makeSuspect s code unit verdict).dev.st = .draining ∧ (makeSuspect s code unit verdict).job.pkg = none := by
  obtain ⟨u, hu, e⟩ := makeSuspect_eq_drainIfDue s code unit verdict
  obtain ⟨hst', hhubs⟩ := recordSuspect_service s code unit verdict
  obtain ⟨hdev, -, hub⟩ := hu.frame
  have hs : u.dev.suspect = some (s.dev.suspect.getD (code, unit)) := by rw [hdev, recordSuspect_suspect]
  rw [e, drainIfDue_inService hs (by rw [heldCases_of_hubs (hub.trans hhubs), hcases]) (by rw [hdev, hst']; exact hst)]
  exact ⟨startDrain_st .., startDrain_pkg ..⟩

end Sys2Proof.Machine
end

section
/-! SUPPORT. CLEAR_SIGNED: the clear record, the waiting JOB_ENDs, and the state that the device enters (R20, R327, R331,
R344, R376). -/

namespace Sys2Proof.Machine

open Sys2Proof.Config Sys2Proof.Claims

/-! ### Replies to waiting requests -/

theorem boxOf_reply_self {s : State} {m : Nat} (h : (boxOf s m).orphan = false) (st : Status) (body : List Byte) :
    boxOf (reply s m st body) m = repliedBox (boxOf s m) st body := by
  rw [(reply_sends s m st body h).box, boxOf_setBox, if_pos rfl]

theorem boxOf_reply_ne {s : State} {m k : Nat} (h : m ≠ k) (st : Status) (body : List Byte) :
    boxOf (reply s m st body) k = boxOf s k := by
  cases ho : (boxOf s m).orphan with
  | true => simp [reply, ho, freeBox, h]
  | false => rw [(reply_sends s m st body ho).box, boxOf_setBox, if_neg h]

/-- A request that is answered again with the same reply has that reply. -/
@[simp] theorem repliedBox_repliedBox (b : Mailbox) (st : Status) (body : List Byte) :
    repliedBox (repliedBox b st body) st body = repliedBox b st body := rfl

theorem boxOf_foldl_replyOk {b : Mailbox} {m : Nat} (ho : b.orphan = false) (body : List Byte) :
    ∀ (l : List Nat) (t : State), boxOf t m = repliedBox b .ok body ∨ boxOf t m = b ∧ m ∈ l →
      boxOf (l.foldl (fun t k => replyOk t k body) t) m = repliedBox b .ok body
  | [], _, h => by simpa using h
  | k :: l, t, h => by
    refine boxOf_foldl_replyOk ho body l _ ?_
    by_cases hk : k = m
    · subst hk
      refine .inl ?_
      rcases h with h | ⟨h, -⟩
      · exact (boxOf_reply_self (by rw [h]; exact ho) _ _).trans (by rw [h, repliedBox_repliedBox])
      · exact (boxOf_reply_self (by rw [h]; exact ho) _ _).trans (by rw [h])
    · refine h.imp (boxOf_reply_ne hk _ _).trans fun ⟨e, hm⟩ => ?_
      exact ⟨(boxOf_reply_ne hk _ _).trans e, (List.mem_cons.mp hm).resolve_left (Ne.symm hk)⟩

/-- Every request that waits for a point is answered as the point comes (R335). -/
theorem releaseAt_answered {s : State} {w : WaitPoint} {m : Nat} (hm : m ∈ boxesAt s w) (ho : (boxOf s m).orphan = false)
    (body : List Byte) : answered s (releaseAt s w (fun _ => body)) m .ok body :=
  boxOf_foldl_replyOk ho body _ s (.inr ⟨rfl, hm⟩)

/-! ### The clear record -/

theorem lastN_concat_getLast? {α : Type} (n : Nat) (l : List α) (a : α) :
    (lastN (n + 1) (l ++ [a])).getLast? = some a := by
  unfold lastN
  rw [List.getLast?_drop, if_neg (by simp only [List.length_append, List.length_singleton]; omega), List.getLast?_concat]

/-- `r` is the clear record of a kind that state `s` signs (R376). -/
def clearRecordOf (s : State) (kind : Nat) (r : ClearRec) : Prop :=
  r.kind = kind ∧ r.seq = s.dev.clearSeq + 1 ∧ r.clearOk = s.dev.clearOk ∧ r.scanOk = s.dev.scan.fails.isEmpty ∧
    r.baseDigest = baseDigestOf s ∧ r.energy = (if kind = 2 then 0 else energyCount s) ∧
    r.pkgDigest = if kind = 2 then 0 else s.dev.endDigest

/-- State `t` has filed the clear record of a kind that `s` signs, with the next number (R376). -/
def files (s t : State) (kind : Nat) : Prop :=
  t.dev.clearSeq = s.dev.clearSeq + 1 ∧ ∃ r, t.dev.clears.getLast? = some r ∧ clearRecordOf s kind r

theorem signClear_boxes (s : State) (kind : Nat) : (signClear s kind).mgmt.boxes = s.mgmt.boxes := by
  unfold signClear
  rw [raiseEv_sends]

theorem signClear_files (s : State) (kind : Nat) : files s (signClear s kind) kind :=
  ⟨rfl, _, lastN_concat_getLast? 63 _ _, rfl, rfl, rfl, rfl, rfl, rfl, rfl⟩

theorem files.of_drains {s t u : State} {kind : Nat} (h : files s t kind) (k : Drains t u) : files s u kind := by
  obtain ⟨k, -⟩ := k
  unfold files
  rw [k]
  exact h

/-- What stands in the device's records alone decides what is filed. -/
theorem files.of_dev {s t u : State} {kind : Nat} (h : files s t kind) (hseq : u.dev.clearSeq = t.dev.clearSeq)
    (hrec : u.dev.clears = t.dev.clears) : files s u kind := by
  unfold files
  rw [hseq, hrec]
  exact h

/-! ### The state that follows -/

theorem enterIdle_drains (s : State) (st : DevState) : Drains s (enterIdle s st) := by
  unfold enterIdle
  extract_lets w
  refine .trans (.trans ?_ (goState_drains _ st)) (drainIfDue_drains _)
  exact ⟨rfl, id, fun _ => id⟩

/-- A device without a suspect and without a drain that is due enters the state that it was to enter. -/
theorem enterIdle_sound {s : State} (h : sound s) (st : DevState) : (enterIdle s st).dev.st = st ∧
    (enterIdle s st).mem = s.mem ∧ (enterIdle s st).dev.lostJob = s.dev.lostJob ∧
    ∀ m, boxOf (enterIdle s st) m = boxOf s m := by
  unfold enterIdle
  extract_lets w
  rw [drainIfDue_sound (by simpa [sound] using h)]
  exact ⟨by simp, by simp, by rw [goState_dev], fun m => by rw [boxOf_goState]; rfl⟩

theorem enterDrained_frame (s : State) : (enterDrained s).dev.st = .drained ∧ sound (enterDrained s) ∧
    (enterDrained s).dev.work = .none ∧ (enterDrained s).mem = s.mem := by
  simp [enterDrained, sound]

/-- The record of a JOB_END is signed: the device enters READY, or SPARE after a fill, and answers every JOB_END. -/
theorem clearSigned_jobSign {s : State} (h : s.dev.work = .jobSign) : ∃ t, exec .clearSigned s = .next t ∧ files s t 0 ∧
    (sound s → t.mem = s.mem ∧ t.dev.st = (if s.dev.fromFill then .spare else .ready) ∧
      ∀ m ∈ boxesAt s .jobEnd, (boxOf s m).orphan = false → answered s t m .ok (leBytes 8 (energyCount s))) := by
  let st : DevState := if s.dev.fromFill then .spare else .ready
  let back : State := { signClear s 0 with dev := { (signClear s 0).dev with st := st } }
  have hans : Replies back (answerEnd back) := releaseAt_replies back .jobEnd _
  have hdev : (answerEnd back).dev = back.dev := by rw [hans]
  refine ⟨enterIdle (answerEnd back) st, by rw [exec_clearSigned, execClearSigned, h], ?_, fun hsound => ?_⟩
  · exact files.of_drains (.of_dev (signClear_files s 0) (by rw [hdev]) (by rw [hdev])) (enterIdle_drains _ st)
  · obtain ⟨hst, hmem, -, hbox⟩ := enterIdle_sound (s := answerEnd back) (by rw [sound, hdev]; exact hsound) st
    have hboxes : back.mgmt.boxes = s.mgmt.boxes := signClear_boxes s 0
    have hat : boxesAt back .jobEnd = boxesAt s .jobEnd := by rw [boxesAt, hboxes, boxesAt]
    have hof : ∀ m, boxOf back m = boxOf s m := fun m => by rw [boxOf, hboxes, boxOf]
    refine ⟨hmem.trans (by rw [hans]; rfl), hst, fun m hm ho => (hbox m).trans ?_⟩
    have hm' := releaseAt_answered (s := back) (hat ▸ hm) (by rw [hof, ho]) (leBytes 8 (energyCount s))
    rw [answered, hof] at hm'
    exact hm'

/-- The record of a drain is signed: the device is DRAINED (R327 step 8). -/
theorem clearSigned_drainSign {s : State} (h : s.dev.work = .drainSign) (hdue : s.dev.signDue = false) :
    ∃ t, exec .clearSigned s = .next t ∧ files s t 1 ∧ t.mem = s.mem ∧ t.dev.st = .drained ∧ sound t ∧ t.dev.work = .none := by
  obtain ⟨hst, hsound, hwork, hmem⟩ := enterDrained_frame (signClear s 1)
  refine ⟨enterDrained (signClear s 1), by simp [exec_clearSigned, execClearSigned, h, hdue],
    (signClear_files s 1).of_dev ?_ ?_, hmem, hst, hsound, hwork⟩
  · simp [enterDrained]
  · simp [enterDrained]

/-- The record of a reset is signed: the device is READY, and the lost job is cleared. -/
theorem clearSigned_resetSign {s : State} (h : s.dev.work = .resetSign) : ∃ t, exec .clearSigned s = .next t ∧ files s t 2 ∧
    (sound s → t.mem = s.mem ∧ t.dev.st = .ready ∧ t.dev.lostJob = false) := by
  let back : State := { signClear s 2 with dev := { (signClear s 2).dev with lostJob := false } }
  refine ⟨enterIdle back .ready, by rw [exec_clearSigned, execClearSigned, h], ?_, fun hsound => ?_⟩
  · exact files.of_drains (t := back) (signClear_files s 2) (enterIdle_drains _ .ready)
  · obtain ⟨hst, hmem, hlost, -⟩ := enterIdle_sound (s := back) hsound .ready
    exact ⟨hmem, hst, hlost⟩

end Sys2Proof.Machine
end

section
/-! SUPPORT. THIMBLE_LOCKSTEP: the cores restart from ROM, and the image that verifies records cause 6 (R322, R367, R379). -/

namespace Sys2Proof.Machine

open Sys2Proof.Config Sys2Proof.Claims

/-! ### The slots -/

/-- Every slot number but 0 names slot B. -/
theorem slotOk_of_ne_zero {f : Firmware} {k : Nat} (h : k ≠ 0) : slotOk f k = slotOk f 1 := by
  simp [slotOk, slotImage, h]

/-- Of the active slot and the other, one verifies just as one of A and B does. -/
theorem slotOk_active_or_other (f : Firmware) :
    (slotOk f f.active = true ∨ slotOk f (1 - f.active) = true) ↔ (slotOk f 0 = true ∨ slotOk f 1 = true) := by
  by_cases h : f.active = 0
  · rw [h]
  · rw [slotOk_of_ne_zero h, show 1 - f.active = 0 by omega]; exact or_comm

@[simp] theorem slotOk_trialBack (f : Firmware) (k : Nat) : slotOk (trialBack f) k = slotOk f k := by
  unfold trialBack; split <;> rfl

/-! ### The firmware begins to run (R263, R287, R350, R367) -/

/-- From `s` to `t` only what starting firmware changes beside the image that runs: the repaired slot, events, ALERT_N with
its causes, the applied V_USER and θ. -/
def Starts (s t : State) : Prop :=
  t = { s with
    fw := { t.fw with running := s.fw.running, recovery := s.fw.recovery }
    pins := { s.pins with alert := t.pins.alert }
    mgmt := { s.mgmt with log := t.mgmt.log, dropped := t.mgmt.dropped, seqs := t.mgmt.seqs, causes := t.mgmt.causes }
    power := { s.power with vUser := t.power.vUser }
    therm := { s.therm with theta := t.therm.theta } }

theorem Starts.refl (s : State) : Starts s s := rfl

theorem Starts.trans {a b c : State} (h : Starts a b) (k : Starts b c) : Starts a c := by
  unfold Starts at *; rw [h] at k; exact k

theorem raiseEv_starts (s : State) (src : Nat) (c : Ev) (args : List Nat) : Starts s (raiseEv s src c args) := by
  unfold raiseEv pushLog Starts; dsimp only; split <;> rfl

theorem repairSlot_running (f : Firmware) (k : Nat) :
    (repairSlot f k).running = f.running ∧ (repairSlot f k).recovery = f.recovery := by
  unfold repairSlot; split <;> exact ⟨rfl, rfl⟩

theorem imageEvents_starts (s : State) (k : Nat) : Starts s (imageEvents s k) := by
  have repair : ∀ u, Starts s u → Starts s
      (if u.fw.repair then raiseEv { u with fw := repairSlot u.fw k } srcThimble .imageRepaired [] else u) := by
    intro u hu
    split
    · refine hu.trans (.trans ?_ (raiseEv_starts ..))
      obtain ⟨hrun, hrec⟩ := repairSlot_running u.fw k
      rw [Starts, ← hrun, ← hrec]
    · exact hu
  unfold imageEvents
  refine repair _ ?_
  split
  · refine .trans ?_ (raiseEv_starts ..)
    rfl
  · exact .refl s

theorem staleStart_starts (s : State) : Starts s (staleStart s) :=
  (raiseEv_starts s srcThimble .coolStale []).trans rfl

theorem gradeEvents_starts (s : State) : Starts s (gradeEvents s) :=
  List.foldlRecOn _ _ (motive := Starts s) (.refl s) fun t ht g _ => by
    split
    · exact ht
    · exact ht.trans (raiseEv_starts ..)

theorem readConfig_starts (s : State) : Starts s (readConfig s []) := rfl

/-- Firmware that begins to run from a slot with no setting lost (R350). -/
theorem runFirmware_starts (s : State) (k : Nat) : Starts { s with
    fw := { s.fw with running := some k, image := slotImage s.fw k, recovery := false }
    pins := { s.pins with verified := true, startup := 3 } } (runFirmware s k []) := by
  have events : ∀ u, Starts u (if runsRecovery u then raiseEv (staleStart u) srcThimble .recoveryEntered []
      else gradeEvents (staleStart (readConfig u []))) := by
    intro u
    split
    · exact (staleStart_starts u).trans (raiseEv_starts ..)
    · exact (readConfig_starts u).trans ((staleStart_starts _).trans (gradeEvents_starts _))
  exact (imageEvents_starts _ k).trans (events _)

/-- With an image that verifies the ROM runs one of the two slots (R367). -/
theorem romVerify_runs {s : State} (h : slotOk s.fw 0 = true ∨ slotOk s.fw 1 = true) :
    ∃ k fw, romVerify [] s = runFirmware { s with fw := fw } k [] := by
  unfold romVerify
  dsimp only
  rcases ha : slotOk s.fw s.fw.active with _ | _
  · have ho := ((slotOk_active_or_other s.fw).mpr h).resolve_left (by simp [ha])
    exact ⟨_, _, by rw [if_neg (by simp), if_pos ho]⟩
  · exact ⟨s.fw.active, s.fw, by rw [if_pos rfl]⟩

theorem romVerify_recovery {s : State} (ha : slotOk s.fw 0 = false) (hb : slotOk s.fw 1 = false) :
    romVerify [] s = { s with fw := { s.fw with recovery := true, received := 0, recBuf := [] } } := by
  have h : ¬ (slotOk s.fw s.fw.active = true ∨ slotOk s.fw (1 - s.fw.active) = true) := by
    rw [slotOk_active_or_other]; simp [ha, hb]
  rw [not_or] at h
  simp [romVerify, h]

/-! ### The restart -/

/-- What a restart of the cores with an image that verifies leaves of the Thimble's volatile state (log entry 62). -/
structure Restarted (s t : State) : Prop where
  suspect : t.dev.suspect = s.dev.suspect
  recovery : t.fw.recovery = false
  verified : t.pins.verified = true
  running : t.fw.running.isSome = true
  boxes : t.mgmt.boxes = []
  rings : t.mgmt.rings = []
  txn : t.mgmt.txn.st = .idle
  half : t.host.half = []
  fallback : t.power.fallback = true
  fresh : t.therm.fresh = false

theorem romVerify_restarted {s : State} (h : slotOk s.fw 0 = true ∨ slotOk s.fw 1 = true) :
    Restarted s (romVerify [] (coresReset s)) ∧ (romVerify [] (coresReset s)).dev = s.dev ∧
      (romVerify [] (coresReset s)).hubs = s.hubs := by
  obtain ⟨k, fw, e⟩ := romVerify_runs (s := coresReset s) (by simpa [coresReset] using h)
  have hr := runFirmware_starts { coresReset s with fw := fw } k
  rw [← e, Starts] at hr
  rw [hr]
  exact ⟨⟨rfl, rfl, rfl, rfl, rfl, rfl, rfl, rfl, rfl, rfl⟩, rfl, rfl⟩

theorem Restarted.tryBoot {s t : State} (h : Restarted s t) : Restarted s (tryBoot t) := by
  unfold Machine.tryBoot
  split
  · exact { h with }
  · exact h

theorem coresRestart_restarted {s : State} (h : slotOk s.fw 0 = true ∨ slotOk s.fw 1 = true) :
    Restarted s (coresRestart s) ∧
      (s.dev.st ≠ .standby → (coresRestart s).dev = s.dev ∧ (coresRestart s).hubs = s.hubs) := by
  obtain ⟨hv, hdev, hhubs⟩ := romVerify_restarted h
  unfold coresRestart
  simp only [hv.recovery, Bool.false_eq_true, if_false]
  split
  · rename_i hst
    exact ⟨hv.tryBoot, fun hne => absurd hst hne⟩
  · exact ⟨{ hv with }, fun _ => ⟨hdev, hhubs⟩⟩

/-- With no image that verifies the ROM is in recovery and powers no compute rail (R379). -/
theorem coresRestart_recovery {s : State} (ha : slotOk s.fw 0 = false) (hb : slotOk s.fw 1 = false) :
    (coresRestart s).fw.recovery = true ∧ (coresRestart s).dev.st = .standby ∧ railsDown (coresRestart s) ∧
      (coresRestart s).dev.suspect = s.dev.suspect := by
  unfold coresRestart
  rw [romVerify_recovery (by simpa [coresReset] using ha) (by simpa [coresReset] using hb)]
  exact ⟨rfl, rfl, ⟨rfl, rfl, rfl, rfl, rfl, rfl, rfl, rfl, rfl, rfl⟩, rfl⟩

/-! ### The suspect that follows -/

/-- The state in which the cores restart: what the poison of the seam edge leaves (R321). -/
theorem exec_thimbleLockstep_powered {s : State} (hv : s.pins.v72 = true) (hr : s.pins.resetLow = false) :
    ∃ u, Halts s u ∧ exec .thimbleLockstep s = .next
      (if (coresRestart u).fw.recovery then coresRestart u else makeSuspect (coresRestart u) 6 0xFFFF 0xFFFFFFFF) := by
  rw [exec_thimbleLockstep, execThimbleLockstep, if_pos (by simp [hv, hr])]
  dsimp only
  split
  · exact ⟨_, sendPoison_halts s 5, rfl⟩
  · exact ⟨s, .refl s, rfl⟩

/-- What the drain of a restarted device leaves of the restart. -/
theorem Restarted.drains {s t u : State} (h : Restarted s t) (k : Drains t u) : u.pins.verified = true ∧
    u.fw.running.isSome = true ∧ (∀ m, boxOf u m = {}) ∧ u.mgmt.rings = [] ∧ u.mgmt.txn.st = .idle ∧ u.host.half = [] ∧
    u.power.fallback = true ∧ u.therm.fresh = false := by
  obtain ⟨k, kboxes, -⟩ := k
  have hboxes : u.mgmt.boxes = [] := kboxes h.boxes
  refine ⟨?_, ?_, fun m => by rw [boxOf, hboxes, tabGet], ?_, ?_, ?_, ?_, ?_⟩
  · rw [k]; exact h.verified
  · rw [k]; exact h.running
  · rw [k]; exact h.rings
  · rw [k]; exact h.txn
  · rw [k]; exact h.half
  · rw [k]; exact h.fallback
  · rw [k]; exact h.fresh

theorem thimbleLockstep_image {s : State} (hv : s.pins.v72 = true) (hr : s.pins.resetLow = false)
    (hslot : slotOk s.fw 0 = true ∨ slotOk s.fw 1 = true) : ∃ t, exec .thimbleLockstep s = .next t ∧
      t.dev.suspect = some (s.dev.suspect.getD (6, 0xFFFF)) ∧ t.pins.verified = true ∧ t.fw.running.isSome = true ∧
      (∀ m, boxOf t m = {}) ∧ t.mgmt.rings = [] ∧ t.mgmt.txn.st = .idle ∧ t.host.half = [] ∧ t.power.fallback = true ∧
      t.therm.fresh = false ∧
      (s.dev.st = .ready ∨ s.dev.st = .running ∨ s.dev.st = .spare ∨ s.dev.st = .filling → heldCases s = false →
        t.dev.st = .draining ∧ t.job.pkg = none) := by
  obtain ⟨u, hu, hexec⟩ := exec_thimbleLockstep_powered hv hr
  obtain ⟨hdev, hfw, hhubs⟩ := hu.frame
  obtain ⟨hre, hkept⟩ := coresRestart_restarted (s := u) (by rw [hfw]; exact hslot)
  rw [hre.recovery, if_neg (by simp)] at hexec
  obtain ⟨hverified, hrun, hbox, hrings, htxn, hhalf, hfall, hfresh⟩ := hre.drains (makeSuspect_drains _ 6 0xFFFF 0xFFFFFFFF)
  refine ⟨_, hexec, ?_, hverified, hrun, hbox, hrings, htxn, hhalf, hfall, hfresh, fun hst hcases => ?_⟩
  · rw [makeSuspect_suspect, hre.suspect, hdev]
  · rw [← hdev] at hst
    obtain ⟨hd, hh⟩ := hkept (by rcases hst with h | h | h | h <;> simp [h])
    exact makeSuspect_inService (by rw [heldCases_of_hubs (hh.trans hhubs), hcases]) (by rw [hd]; exact hst) _ _ _

theorem thimbleLockstep_recovery {s : State} (hv : s.pins.v72 = true) (hr : s.pins.resetLow = false)
    (ha : slotOk s.fw 0 = false) (hb : slotOk s.fw 1 = false) : ∃ t, exec .thimbleLockstep s = .next t ∧
      t.fw.recovery = true ∧ t.dev.st = .standby ∧ railsDown t ∧ t.dev.suspect = s.dev.suspect := by
  obtain ⟨u, hu, hexec⟩ := exec_thimbleLockstep_powered hv hr
  obtain ⟨hdev, hfw, -⟩ := hu.frame
  obtain ⟨hrec, hst, hrails, hsus⟩ := coresRestart_recovery (s := u) (by rw [hfw]; exact ha) (by rw [hfw]; exact hb)
  rw [hrec, if_pos rfl] at hexec
  exact ⟨_, hexec, hrec, hst, hrails, by rw [hsus, hdev]⟩

end Sys2Proof.Machine
end

section
/-! CERTIFICATES. The statements on jobs, their clearing and the Thimble's cores: O33, O35, O46 and O47. -/

namespace Sys2Proof.Machine

open Sys2Proof.Config Sys2Proof.Claims

/-- Settles O33: both requests of a job load go through the same state check, which finds the job (R19, R338 step 4). -/
theorem loadRefusedWhileBusy : Obligations.LoadRefusedWhileBusy := by
  intro s m r hr ⟨hring, hrung, horphan, hop⟩ hlen hbody hhdr hrsv hallowed hbusy
  obtain ⟨hown, hreach⟩ := jobLoadState_busy hbusy
  have hfault : stateFault s (boxOf s m) jobLoadState = some .busyJob := by simp [stateFault, hreach, hallowed, hown]
  refine ⟨replyBad (takeRing s m) m .busyJob 0 0, ?_, reply_takeRing_onlyReply horphan _ _,
    reply_takeRing_answered horphan _ _⟩
  rcases hr with rfl | rfl
  · exact serve_refuses_state hring hrung hop hlen hbody hhdr hrsv hfault
  · exact serve_refuses_state hring hrung hop hlen hbody hhdr hrsv hfault

/-- Refutes O35: the statement is about every state, and so about one whose table lists mailbox 0 twice, the second time
as waiting for a snapshot (`listedTwice`). The snapshot ends with the hold of the INVALID job (R313), its end answers mailbox
0, and JOB_END does not wait. What fails is the clause on the wait, which asks nothing of the table of mailboxes. -/
theorem not_jobReleaseAndEnd : ¬ Obligations.JobReleaseAndEnd := by
  intro h
  obtain ⟨t, ht, -, hwaits, -⟩ := (h listedTwice 0).2 listedTwice_accepted
  obtain ⟨u, hu, hnone⟩ := listedTwice_jobEnd
  cases ht.symm.trans hu
  rw [hnone] at hwaits
  cases hwaits

/-- Refutes O46: its clause on the march test leaves out held writes (R303), and a line that one covers reads as written
(`heldOverError`), so that the error under it is not counted. -/
theorem not_clearingAndScanResult : ¬ Obligations.ClearingAndScanResult := by
  intro h
  obtain ⟨-, -, -, -, hmarch, -⟩ := h
  obtain ⟨t, ht, hcorrected, -⟩ := hmarch heldOverError ⟨[], [], [], []⟩ (boltBase / 64) 1 [(71, 1#8)] rfl rfl rfl
    (by decide) (by decide)
  obtain ⟨u, hu, hzero⟩ := heldOverError_scanDone
  cases ht.symm.trans hu
  rw [hzero] at hcorrected
  exact absurd hcorrected (by decide)

/-- Settles O47. Each record is filed as `signClear` makes it, and neither the drain of an unsound device nor its replies file
another (`files.of_drains`); a restart with an image that verifies ends in `makeSuspect`, whose drain keeps what the restart
has left (`Restarted.drains`). -/
theorem clearSignedAndLockstep : Obligations.ClearSignedAndLockstep := by
  refine ⟨fun s hwork => ?_, fun s hv hr => ⟨thimbleLockstep_image hv hr, thimbleLockstep_recovery hv hr⟩⟩
  rcases hwork with hw | ⟨hw, hdue⟩ | hw
  · obtain ⟨t, hexec, ⟨hseq, r, hlast, hkind, hrseq, hok, hscan, hbase, henergy, hpkg⟩, hsound⟩ := clearSigned_jobSign hw
    refine ⟨t, r, hexec, fun h => (hsound (h.resolve_right (by simp [hw]))).1, hseq, hlast, hrseq, hok, hscan, hbase,
      fun _ => ⟨hkind, henergy, hpkg, fun h => (hsound h).2⟩, by simp [hw], by simp [hw]⟩
  · obtain ⟨t, hexec, ⟨hseq, r, hlast, hkind, hrseq, hok, hscan, hbase, -, -⟩, hmem, hst, hsound, hnone⟩ :=
      clearSigned_drainSign hw hdue
    exact ⟨t, r, hexec, fun _ => hmem, hseq, hlast, hrseq, hok, hscan, hbase, by simp [hw],
      fun _ => ⟨hkind, hst, hsound, hnone⟩, by simp [hw]⟩
  · obtain ⟨t, hexec, ⟨hseq, r, hlast, hkind, hrseq, hok, hscan, hbase, henergy, hpkg⟩, hsound⟩ := clearSigned_resetSign hw
    refine ⟨t, r, hexec, fun h => (hsound (h.resolve_right (by simp [hw]))).1, hseq, hlast, hrseq, hok, hscan, hbase,
      by simp [hw], by simp [hw], fun _ => ⟨hkind, henergy, hpkg, fun h => (hsound h).2⟩⟩

end Sys2Proof.Machine
end

section
/-! SUPPORT. A needle instruction in a pass of a chain (R96, R97, R118): what it finds, how it ends, and how the
instructions on a draw or on a bound tensor run. -/

namespace Sys2Proof.Machine

open Sys2Proof.Config Sys2Proof.Claims

variable {s : State} {q : Nat} {p : Package} {c : ChainRun}

/-- What an instruction of chain `c` finds. -/
def passCtx (s : State) (q : Nat) (p : Package) (c : ChainRun) : NeedleCtx := ⟨p, s, q, c, headTile s q⟩

/-- What an instruction on a bound tensor finds after the wait for its binding (R126). -/
def boundCtx (s : State) (q : Nat) (p : Package) (c : ChainRun) (d : Nat) (t : TensorDesc) : NeedleCtx :=
  { passCtx s q p c with s := bindWait s q c d t }

/-- How an instruction in a pass ends, by its latency, the lanes that it leaves and the state after its own effect. -/
def passOut (s : State) (q : Nat) (c : ChainRun) : Except Fault (Nat × List Lane × State) → Out
  | .error f => .fault f
  | .ok r => .next (afterEffect s r.2.2 q c r.1 r.2.1)

theorem needleDo_inPass (h : inPass s q p c) (k : NeedleCtx → Except Fault (Nat × List Lane × State)) :
    needleDo q s k = passOut s q c (k (passCtx s q p c)) := by
  obtain ⟨⟨hpkg, hrun⟩, hchain, hwait, hpass⟩ := h
  rw [passCtx]
  simp only [needleDo, whenRunning, hpkg, hrun, hchain, hwait, if_true, Bool.false_or, decide_eq_true_eq,
    if_neg (Nat.not_le.mpr hpass)]
  cases k ⟨p, s, q, c, headTile s q⟩ <;> rfl

/-- An instruction with no effect beside the lanes changes its chain and ISSUE alone. -/
theorem afterEffect_self (h : inPass s q p c) (lat : Nat) (ls : List Lane) :
    afterEffect s s q c lat ls = afterInstr s q c lat ls := by
  obtain ⟨-, hchain, -⟩ := h
  simp [afterEffect, afterInstr, modPanel, hchain]

@[simp] theorem afterEffect_mem (s u : State) (q : Nat) (c : ChainRun) (lat : Nat) (ls : List Lane) :
    (afterEffect s u q c lat ls).mem = u.mem := rfl

theorem bindingOf_bound {n d : Nat} {t : TensorDesc} (h : bound s q p c n d t) :
    bindingOf (passCtx s q p c) n = some (d, t) := by
  obtain ⟨hbind, htensor, -⟩ := h
  simp only [bindingOf, passCtx, hbind, htensor, Option.map_some]

/-- An instruction on the draw of its binding (R71, R75, R103). -/
theorem drawOp_bound {a : NArgs} {d : Nat} {t : TensorDesc} (h : inPass s q p c) (hb : bound s q p c a.sub d t)
    (f : TensorDesc → W32 → Lane → W32) :
    drawOp q a f s =
      .next (afterInstr s q c 6 (intoVd a (fun l => f t (chainDraw p c t.tag l) l) c.lanes)) := by
  rw [drawOp, needleDo_inPass h, bindingOf_bound hb, ← afterEffect_self h]
  rfl

/-- An instruction on a bound tensor acts after the wait for its binding (R102, R126). -/
theorem bindOp_bound {a : NArgs} {d : Nat} {t : TensorDesc} (h : inPass s q p c) (hb : bound s q p c a.sub d t)
    (k : NeedleCtx → Nat × TensorDesc → Planes → Except Fault (Nat × List Lane × State)) :
    bindOp q a s k = passOut s q c (k (boundCtx s q p c d t) (d, t) (boundPlanes s q p c d t)) := by
  have hok : planesOk t (bindPlanes (passCtx s q p c) (d, t)) = true := hb.2.2
  rw [bindOp, needleDo_inPass h, bindingOf_bound hb]
  simp only [hok, if_true]
  rfl

/-- A store acts on the active lanes of the pass, in ascending position (R102). -/
theorem storeLanes_eq (x : NeedleCtx) (a : NArgs) (f : State → Lane → State) :
    storeLanes x a f = (actives a x.c).foldl f x.s :=
  List.foldl_filter.symm

end Sys2Proof.Machine
end

section
/-! SUPPORT. What memory reads deliver depends on the bytes, their errors and the held writes alone (R196, R303), so the
wait for a binding does not change it. -/

namespace Sys2Proof.Machine

open Sys2Proof.Config Sys2Proof.Claims

/-- Two states hold the same bytes with the same errors and poison. -/
def SameLines (s t : State) : Prop := t.mem = s.mem ∧ t.health = s.health

theorem SameLines.memClean_eq {s t : State} (h : SameLines s t) : memClean t = memClean s := by
  rw [memClean, h.2]; rfl

theorem SameLines.lineRead_eq {s t : State} (h : SameLines s t) : lineRead t = lineRead s := by
  funext l
  rw [lineRead, h.1, h.2]; rfl

theorem putLines_sameLines {s t : State} (h : SameLines s t) (a : Nat) (bs : List Byte) :
    SameLines (putLines s a bs) (putLines t a bs) := by
  simp only [putLines, h.memClean_eq, h.lineRead_eq, h.1, h.2]
  cases memClean s <;> exact ⟨rfl, rfl⟩

theorem heldIn_sameLines {s t : State} (h : SameLines s t) (hw : t.snap.heldWrites = s.snap.heldWrites) :
    SameLines (heldIn s) (heldIn t) := by
  unfold heldIn
  rw [hw]
  clear hw
  induction s.snap.heldWrites generalizing s t with
  | nil => exact h
  | cons w ws ih => exact ih (putLines_sameLines h w.addr w.bytes)

theorem decodedMem_sameLines {s t : State} (h : SameLines s t) : decodedMem t = decodedMem s := by
  simp only [decodedMem, h.memClean_eq, h.lineRead_eq, h.1, h.2]

theorem viewMem_sameLines {s t : State} (h : SameLines s t) (hw : t.snap.heldWrites = s.snap.heldWrites) :
    viewMem t = viewMem s :=
  decodedMem_sameLines (heldIn_sameLines h hw)

/-- The wait for a binding draws a free value and counts on its panel; nothing else changes (R126, R132). -/
theorem bindWait_eq (s : State) (q : Nat) (c : ChainRun) (d : Nat) (t : TensorDesc) :
    ∃ f ps, bindWait s q c d t = { s with free := f, panels := ps } := by
  unfold bindWait waitExt
  split
  · exact ⟨_, _, rfl⟩
  · exact ⟨s.free, s.panels, rfl⟩

theorem bindWait_flat {s : State} {q : Nat} {c : ChainRun} {d : Nat} {t : TensorDesc} (h : t.spooled = false) :
    bindWait s q c d t = s := by
  simp [bindWait, waitExt, servedExt, h]

theorem viewMem_bindWait (s : State) (q : Nat) (c : ChainRun) (d : Nat) (t : TensorDesc) :
    viewMem (bindWait s q c d t) = viewMem s := by
  obtain ⟨f, ps, hwait⟩ := bindWait_eq s q c d t
  rw [hwait]
  exact viewMem_sameLines ⟨rfl, rfl⟩ rfl

/-- Reading a memory that holds no error changes nothing (R197). -/
theorem touchElems_clean {s : State} (h : memClean s = true) (t : TensorDesc) (pl : Planes) (xs : List Nat) :
    touchElems s t pl xs = s := by
  simp [touchElems, h]

end Sys2Proof.Machine
end

section
/-! SUPPORT. Writes of a step that nothing protects (R21, R95, R134, R303), and the group that a fold writes with them
(R38, R88). -/

namespace Sys2Proof.Machine

open Sys2Proof.Config Sys2Proof.Claims

/-! ### Writes -/

theorem stepGone_plain {s : State} (h : plainWrites s) : stepGone s = false := by
  obtain ⟨habandoned, hjob, -⟩ := h
  simp [stepGone, habandoned, Option.isNone_eq_false_iff.mpr hjob]

theorem inFrozen_plain {s : State} (h : plainWrites s) (a : Nat) : inFrozen s a = false := by
  obtain ⟨-, -, -, -, -, hfrozen⟩ := h
  unfold inFrozen
  split
  · rfl
  · rename_i p hp
    exact List.any_eq_false.mpr fun r hr => by simp [(hfrozen p hp).1 r hr]

theorem hitsWeight_plain {s : State} (h : plainWrites s) (a n : Nat) : hitsWeight s a n = false := by
  obtain ⟨-, -, -, -, -, hfrozen⟩ := h
  unfold hitsWeight
  split
  · rfl
  · rename_i p hp
    have hnone : p.layers.filter (fun l => l.frozen) = [] :=
      List.filter_eq_nil_iff.mpr fun l hl => by simp [(hfrozen p hp).2 l hl]
    simp [frozenWeights, hnone]

theorem anyLine_eq_false {a n : Nat} {f : Nat → Bool} (h : ∀ x, f x = false) : anyLine a n f = false := by
  simp [anyLine, h]

/-- A write that nothing protects changes its bytes of memory alone (R189). -/
theorem stepWrite_plain {s : State} (h : plainWrites s) (a : Nat) (bs : List Byte) :
    stepWrite s a bs = { s with mem := memPut s.mem a bs } := by
  have hgone := stepGone_plain h
  have hfrozen := anyLine_eq_false (a := a) (n := bs.length) (inFrozen_plain h)
  have hweight := hitsWeight_plain h a bs.length
  obtain ⟨-, -, hbase, hpages, hclean, -⟩ := h
  have hinBase : anyLine a bs.length (inBase s) = false := anyLine_eq_false fun x => by simp [inBase, hbase]
  have hpage : anyLine a bs.length (fun x => s.snap.guarded.contains (pageOf x)) = false :=
    anyLine_eq_false fun x => by rw [hpages]; rfl
  simp only [stepWrite, hgone, storeBytes, hinBase, hfrozen, hweight, guardedWrite, hpage, rawWrite, hclean, Bool.or_self,
    Bool.false_eq_true, if_false, if_true]

theorem plainWrites_withMem {s : State} (h : plainWrites s) (m : Mem) : plainWrites { s with mem := m } := h

theorem placePut_flat {s : State} (h : plainWrites s) (a o : Nat) (bs : List Byte) :
    placePut s (.flat a) o bs = { s with mem := memPut s.mem (a + o) bs } := by
  simp [placePut, placePieces, stepWrite_plain h]

/-! ### The bytes of a folded group -/

/-- Memory after the codes of the blocks of a group, the first of them block `b` of a plane at `e0` (R38). -/
def blocksPut (f : Fmt) (e0 b : Nat) (m : Mem) (fbs : List (FoldedBlock × Nat)) : Mem :=
  fbs.foldl (fun m e => memPut m (e0 + 16 * (b + e.2)) (blockBytes f e.1.codes)) m

theorem putBlock_flat {s : State} {t : TensorDesc} {pl : Planes} {e0 : Nat} (h : plainWrites s) (hk : t.kout = 0)
    (he : pl.elem = .flat e0) (b : Nat) (fb : FoldedBlock) :
    putBlock s t pl b fb = { s with mem := memPut s.mem (e0 + 16 * b) (blockBytes t.fmt fb.codes) } := by
  simp only [putBlock, hk, if_true, he, placePut_flat h]

theorem putBlocks_flat {t : TensorDesc} {pl : Planes} {e0 : Nat} (hk : t.kout = 0) (he : pl.elem = .flat e0) (b : Nat)
    (fbs : List (FoldedBlock × Nat)) {s : State} (h : plainWrites s) :
    fbs.foldl (fun u e => putBlock u t pl (b + e.2) e.1) s = { s with mem := blocksPut t.fmt e0 b s.mem fbs } := by
  induction fbs generalizing s with
  | nil => rfl
  | cons x xs ih =>
    rw [List.foldl_cons, putBlock_flat h hk he, ih (plainWrites_withMem h _)]
    rfl

/-- A group is its scale byte, then the codes of its blocks (R38). -/
theorem putGroup_flat_mem {s : State} {t : TensorDesc} {pl : Planes} {e0 c0 : Nat} (h : plainWrites s) (hk : t.kout = 0)
    (he : pl.elem = .flat e0) (hc : pl.scale = .flat c0) (q b : Nat) (g : Byte × List FoldedBlock) :
    (putGroup s t (fun _ => (q, pl)) b g).mem =
      blocksPut t.fmt e0 b (memPut s.mem (c0 + groupOf t b) [g.1]) g.2.zipIdx := by
  simp only [putGroup, hc, placePut_flat h, putBlocks_flat hk he b _ (plainWrites_withMem h _)]
  split <;> rfl

@[simp] theorem setFlag_mem (s : State) (q : Nat) (f : Flag) (tag : Nat) : (setFlag s q f tag).mem = s.mem := by
  unfold setFlag; dsimp only; split <;> rfl

@[simp] theorem setFlagIf_mem (s : State) (b : Bool) (q : Nat) (f : Flag) (tag : Nat) :
    (setFlagIf s b q f tag).mem = s.mem := by
  unfold setFlagIf; split <;> simp

theorem flagReplaced_mem (t : TensorDesc) (ow : Owner) : ∀ (blks : List (List SrcElem)) (b : Nat) (s : State),
    (flagReplaced t ow blks b s).mem = s.mem
  | [], _, _ => rfl
  | _ :: rest, b, _ => (flagReplaced_mem t ow rest (b + 1) _).trans (setFlagIf_mem ..)

/-- After the groups of a piece a fold sets flags; it writes nothing more. -/
theorem foldInto_piece_mem {s : State} {t : TensorDesc} {ow : Owner} {b : Nat} {blks : List (List SrcElem)} {c : Claim}
    {gs : List (Byte × List FoldedBlock)} (h : (foldPieces (foldCfgOf t) [(b, blks)] c).1 = [(b, gs)]) :
    (foldInto s t ow [(b, blks)] c).1.mem = (putGroups t ow gs b s).mem := by
  simp only [foldInto, h, List.foldl_cons, List.foldl_nil]
  split
  · rfl
  · simp [flagReplaced_mem]

/-! ### QNT into a folded tensor -/

/-- The source element of what waits for an index: +0 where nothing does. -/
def sourceOf : Option FoldElem → SrcElem
  | some e => ⟨e.val, e.draw⟩
  | none => ⟨0#32, 0#32⟩

theorem sourceOf_eq (o : Option FoldElem) :
    (o.map (fun e => (⟨e.val, e.draw⟩ : SrcElem))).getD ⟨0#32, 0#32⟩ = sourceOf o := by
  cases o <;> rfl

theorem foldReady_eq (q d micro : Nat) (t : TensorDesc) (pl : Planes) :
    foldReady q d micro t pl = foldedWhenFull q d micro t pl := by
  funext s lg
  simp only [foldedWhenFull, groupSources, sourceOf_eq]
  rfl

/-- A group that is full and that nothing protects: memory takes its scale byte and the codes of its blocks (R38, R88). -/
theorem foldedWhenFull_mem {s : State} {q d micro : Nat} {t : TensorDesc} {pl : Planes} {lg : Nat × Nat} {e0 c0 : Nat}
    {sb : Byte} {fbs : List FoldedBlock} (hfull : groupFull s q d micro t lg) (h : plainWrites s) (hk : t.kout = 0)
    (he : pl.elem = .flat e0) (hc : pl.scale = .flat c0)
    (hfold : (foldPieces (foldCfgOf t) [(firstBlock t lg, groupSources s q d micro t lg)] {}).1 =
      [(firstBlock t lg, [(sb, fbs)])]) :
    (foldedWhenFull q d micro t pl s lg).mem =
      blocksPut t.fmt e0 (firstBlock t lg) (memPut s.mem (c0 + groupOf t (firstBlock t lg)) [sb]) fbs.zipIdx := by
  have hall : (groupIndices t lg.1 lg.2).all
      (fun b => b.all (fun i => (pendingElem (panelOf s q).foldIn d micro i).isSome)) = true :=
    List.all_eq_true.mpr fun b hb => List.all_eq_true.mpr fun i hi => hfull b hb i hi
  rw [foldedWhenFull, if_pos hall, modPanel_mem, foldInto_piece_mem hfold]
  simp only [putGroups, stepGone_plain h, Bool.false_eq_true, if_false, putGroup_flat_mem h hk he hc]

end Sys2Proof.Machine
end

section
/-! SUPPORT. What a write of a step leaves alone in a memory that holds no error: every byte outside it (R102, R189), even
where the write is held (R303) or ends the step (R21, R134). -/

namespace Sys2Proof.Machine

open Sys2Proof.Config Sys2Proof.Claims

/-- From `s` to `t` a memory that holds no error comes to hold none, and byte `n` reads as before. -/
def ByteKept (n : Nat) (s t : State) : Prop :=
  memClean s = true → memClean t = true ∧ memGet t.mem n = memGet s.mem n

variable {n : Nat}

theorem ByteKept.refl (s : State) : ByteKept n s s := fun h => ⟨h, rfl⟩

theorem ByteKept.trans {a b c : State} (h : ByteKept n a b) (k : ByteKept n b c) : ByteKept n a c := fun ha => by
  obtain ⟨hb, hab⟩ := h ha
  obtain ⟨hc, hbc⟩ := k hb
  exact ⟨hc, hbc.trans hab⟩

theorem SameLines.byteKept {s t : State} (h : SameLines s t) : ByteKept n s t := fun hs =>
  ⟨h.memClean_eq.trans hs, by rw [h.1]⟩

/-- A fold whose steps keep a byte keeps it. -/
theorem foldl_byteKept {α : Type} {f : State → α → State} {l : List α} (hf : ∀ x ∈ l, ∀ t, ByteKept n t (f t x))
    (s : State) : ByteKept n s (l.foldl f s) :=
  List.foldlRecOn l f (motive := ByteKept n s) (.refl s) fun t ht x hx => ht.trans (hf x hx t)

theorem rawWrite_byteKept {a : Nat} {bs : List Byte} (h : n < a ∨ a + bs.length ≤ n) (s : State) :
    ByteKept n s (rawWrite s a bs) := fun hs => by
  rw [rawWrite, if_pos hs]
  exact ⟨hs, memGet_memPut_outside bs s.mem a n h⟩

/-- The pieces of a write lie within it. -/
theorem pagePieces_within : ∀ (k a : Nat) (bs : List Byte), ∀ e ∈ pagePieces k a bs,
    a ≤ e.1 ∧ e.1 + e.2.length ≤ a + bs.length
  | 0, _, _, e, he => by simp [pagePieces] at he
  | k + 1, a, bs, e, he => by
    simp only [pagePieces] at he
    split at he
    · obtain rfl := List.mem_singleton.mp he
      exact ⟨Nat.le_refl _, Nat.le_refl _⟩
    · rename_i hlong
      rcases List.mem_cons.mp he with rfl | he
      · simp only [List.length_take]
        omega
      · have := pagePieces_within k _ _ e he
        simp only [List.length_drop] at this
        omega

theorem guardedPiece_byteKept {e : Nat × List Byte} (h : n < e.1 ∨ e.1 + e.2.length ≤ n) (s : State) :
    ByteKept n s (guardedPiece s e) := by
  unfold guardedPiece
  split
  · exact SameLines.byteKept ⟨rfl, rfl⟩
  · exact rawWrite_byteKept h s

theorem guardedWrite_byteKept {a : Nat} {bs : List Byte} (h : n < a ∨ a + bs.length ≤ n) (s : State) :
    ByteKept n s (guardedWrite s a bs) := by
  unfold guardedWrite
  split
  · refine .trans ?_ (foldl_byteKept (fun e he t => guardedPiece_byteKept ?_ t) _)
    · exact SameLines.byteKept ⟨rfl, rfl⟩
    · have := pagePieces_within _ a bs e he
      omega
  · exact rawWrite_byteKept h s

theorem Halts.sameLines {s t : State} (h : Halts s t) : SameLines s t := by
  obtain ⟨h, -⟩ := h
  rw [h]
  exact ⟨rfl, rfl⟩

theorem jobFault_halts (s : State) (st : Status) (e : Ev) (args : List Nat) : Halts s (jobFault s st e args) :=
  (abandonWork_halts s).trans (stopJob_halts ..)

/-- A write leaves the bytes outside it alone, whether it is performed, held or refused (R21, R134, R303). -/
theorem stepWrite_byteKept {a : Nat} {bs : List Byte} (h : n < a ∨ a + bs.length ≤ n) (s : State) :
    ByteKept n s (stepWrite s a bs) := by
  unfold stepWrite
  split
  · exact .refl s
  · unfold storeBytes
    split
    · exact (jobFault_halts ..).sameLines.byteKept
    · split
      · exact (jobFault_halts ..).sameLines.byteKept
      · exact guardedWrite_byteKept h s

/-- A write to a place leaves the bytes outside the place alone (R122, R128). -/
theorem placePut_byteKept {pl : Place} {o : Nat} {bs : List Byte} (h : ¬ placeHas pl o bs.length n) (s : State) :
    ByteKept n s (placePut s pl o bs) := by
  refine List.foldlRecOn _ _ (motive := fun acc : State × List Byte => ByteKept n s acc.1) (.refl s)
    fun acc hacc e he => hacc.trans (stepWrite_byteKept ?_ _)
  have hout : ¬ (e.1 ≤ n ∧ n < e.1 + e.2) := fun hin => h ⟨e, he, hin⟩
  have hlen := List.length_take_le e.2 acc.2
  omega

theorem putWord_byteKept {pl : Planes} {x : Nat} (h : ¬ placeHas pl.elem (4 * x) 4 n) (s : State) (v : F32) :
    ByteKept n s (putWord s pl x v) :=
  placePut_byteKept (by rwa [leBytes_length]) s

theorem putL16_byteKept {pl : Planes} {x : Nat} (h : ¬ placeHas pl.elem (2 * x) 2 n) (s : State) (p : Package)
    (step micro : Nat) (t : TensorDesc) (sr : Bool) (v : F32) : ByteKept n s (putL16 s p step micro t pl sr x v) := by
  have hput : ∀ c, ByteKept n s (placePut s pl.elem (2 * x) (leBytes 2 c)) := fun c =>
    placePut_byteKept (by rwa [leBytes_length]) s
  unfold putL16
  dsimp only
  split
  · exact hput _
  · exact (hput _).trans (SameLines.byteKept ⟨rfl, rfl⟩)

theorem bindWait_byteKept (s : State) (q : Nat) (c : ChainRun) (d : Nat) (t : TensorDesc) :
    ByteKept n s (bindWait s q c d t) := by
  obtain ⟨f, ps, hwait⟩ := bindWait_eq s q c d t
  rw [hwait]
  exact SameLines.byteKept ⟨rfl, rfl⟩

end Sys2Proof.Machine
end

section
/-! SUPPORT. The needle instructions on a bound tensor, one equation for each case (R65, R71, R75, R88, R101, R118). -/

namespace Sys2Proof.Machine

open Sys2Proof.Config Sys2Proof.Claims

variable {s : State} {q : Nat} {p : Package} {c : ChainRun} {a : NArgs} {d : Nat} {t : TensorDesc}

/-! ### Draws and loads -/

theorem exec_rand_bound (h : inPass s q p c) (hb : bound s q p c a.sub d t) :
    exec (.rand q a) s = .next (afterInstr s q c 6 (intoVd a (fun l => chainDraw p c t.tag l) c.lanes)) :=
  drawOp_bound h hb fun _ u _ => u

theorem exec_drop_bound (h : inPass s q p c) (hb : bound s q p c a.sub d t) :
    exec (.drop q a) s = .next (afterInstr s q c 6 (intoVd a (fun l =>
      if (chainDraw p c t.tag l).toNat < t.drop then 0#32 else laneV l a.va) c.lanes)) :=
  drawOp_bound h hb fun t u l => if u.toNat < t.drop then 0#32 else laneV l a.va

theorem exec_cvt16_sr (h : inPass s q p c) (hb : bound s q p c a.sub d t) (hsr : a.sr = true) :
    exec (.cvt16 q a) s = .next (afterInstr s q c 4 (intoVd a (fun l =>
      l16ToF32 (l16OfF32Sr (laneV l a.va) (chainDraw p c t.tag l))) c.lanes)) := by
  rw [exec_cvt16, execCvt16, needleDo_inPass h, if_pos hsr, bindingOf_bound hb, ← afterEffect_self h]
  rfl

theorem exec_ldb_bound (h : inPass s q p c) (hb : bound s q p c a.sub d t) :
    exec (.ldb q a) s = .next (afterEffect s
      (touchElems (bindWait s q c d t) t (boundPlanes s q p c d t) ((actives a c).map Lane.index)) q c 8
      (intoVd a (fun l => readElem (viewMem s) t (boundPlanes s q p c d t) l.index) c.lanes)) := by
  rw [exec_ldb, execLdb, bindOp_bound h hb, ← viewMem_bindWait s q c d t]
  rfl

/-! ### Stores -/

theorem exec_stb_words (h : inPass s q p c) (hb : bound s q p c a.sub d t) (hf : t.fmt = .f32 ∨ t.fmt = .u32) :
    exec (.stb q a) s = .next (afterEffect s
      ((actives a c).foldl (fun u l => putWord u (boundPlanes s q p c d t) l.index (laneV l a.va)) (bindWait s q c d t))
      q c 1 c.lanes) := by
  rw [exec_stb, execStb, bindOp_bound h hb]
  rcases hf with hf | hf <;> simp only [hf, storeLanes_eq] <;> rfl

theorem exec_stb_l16 (h : inPass s q p c) (hb : bound s q p c a.sub d t) (hf : t.fmt = .l16) :
    exec (.stb q a) s = .next (afterEffect s
      ((actives a c).foldl (fun u l => putL16 u p c.step c.micro t (boundPlanes s q p c d t) a.sr l.index (laneV l a.va))
        (bindWait s q c d t)) q c 1 c.lanes) := by
  rw [exec_stb, execStb, bindOp_bound h hb]
  simp only [hf, storeLanes_eq]
  rfl

/-- STB stores F32, U32 and L16 elements alone. -/
theorem stb_fmt {u : State} (h : inPass s q p c) (hb : bound s q p c a.sub d t) (hx : exec (.stb q a) s = .next u) :
    (t.fmt = .f32 ∨ t.fmt = .u32) ∨ t.fmt = .l16 := by
  rw [exec_stb, execStb, bindOp_bound h hb] at hx
  cases hf : t.fmt with
  | f32 => exact .inl (.inl rfl)
  | u32 => exact .inl (.inr rfl)
  | l16 => exact .inr rfl
  | l4 | l8e | l8g | rem8 => simp [hf, passOut] at hx

theorem exec_acc_f32 (h : inPass s q p c) (hb : bound s q p c a.sub d t) (hf : t.fmt = .f32) :
    exec (.acc q a) s = .next (afterEffect s
      ((actives a c).foldl (fun u l => putWord u (boundPlanes s q p c d t) l.index
        (f32Add (readElem (viewMem u) t (boundPlanes s q p c d t) l.index) (laneV l a.va))) (bindWait s q c d t))
      q c 1 c.lanes) := by
  rw [exec_acc, execAcc, bindOp_bound h hb]
  simp only [hf, storeLanes_eq, if_true]
  rfl

/-- ACC adds to F32 elements alone. -/
theorem acc_fmt {u : State} (h : inPass s q p c) (hb : bound s q p c a.sub d t) (hx : exec (.acc q a) s = .next u) :
    t.fmt = .f32 := by
  rw [exec_acc, execAcc, bindOp_bound h hb] at hx
  cases hf : t.fmt with
  | f32 => rfl
  | l4 | l8e | l8g | l16 | rem8 | u32 => simp [hf, passOut] at hx

/-! ### QNT -/

/-- The state after QNT has waited for its binding and for a busy output path (R118, R126). -/
def qntWait (s : State) (q : Nat) (c : ChainRun) (d : Nat) (t : TensorDesc) (phys : Nat) : State :=
  modPanel (bindWait s q c d t) q (fun w => { w with ndl := { w.ndl with waitPhys := sat32 (w.ndl.waitPhys + phys) } })

/-- The elements that QNT sends to the fold unit, the last one first. -/
def qntElems (p : Package) (c : ChainRun) (a : NArgs) (d : Nat) (t : TensorDesc) : List FoldElem :=
  ((actives a c).map (fun l => (⟨d, c.micro, l.index, laneV l a.va,
    if t.sr then chainDraw p c t.tag l else 0#32⟩ : FoldElem))).reverse

/-- The state in which the elements of a QNT wait in the output path (R88). -/
def qntSent (s : State) (q : Nat) (p : Package) (c : ChainRun) (a : NArgs) (d : Nat) (t : TensorDesc) (phys : Nat) : State :=
  modPanel (qntWait s q c d t phys) q (fun w => { w with foldIn := qntElems p c a d t ++ w.foldIn })

theorem exec_qnt_l16 (h : inPass s q p c) (hb : bound s q p c a.sub d t) (phys : Nat) (hf : t.fmt = .l16) :
    exec (.qnt ⟨q, phys⟩ a) s = .next (afterEffect s
      ((actives a c).foldl (fun u l => putL16 u p c.step c.micro t (boundPlanes s q p c d t) t.sr l.index (laneV l a.va))
        (qntWait s q c d t phys)) q c 1 c.lanes) := by
  rw [exec_qnt, execQnt, bindOp_bound h hb]
  simp only [hf, fmtNarrow, storeLanes_eq, Bool.false_eq_true, if_false, if_true]
  rfl

theorem exec_qnt_groups (h : inPass s q p c) (hb : bound s q p c a.sub d t) (phys : Nat) (hf : fmtNarrow t.fmt = true)
    (hk : t.kout = 0) : exec (.qnt ⟨q, phys⟩ a) s = .next (afterEffect s
      ((touchedGroups t (qntElems p c a d t)).foldl (foldedWhenFull q d c.micro t (boundPlanes s q p c d t))
        (qntSent s q p c a d t phys)) q c 1 c.lanes) := by
  rw [exec_qnt, execQnt, bindOp_bound h hb, ← foldReady_eq]
  simp only [hf, hk, if_true]
  rfl

theorem exec_qnt_outliers (h : inPass s q p c) (hb : bound s q p c a.sub d t) (phys : Nat) (hf : fmtNarrow t.fmt = true)
    (hk : t.kout ≠ 0) : exec (.qnt ⟨q, phys⟩ a) s = .next (afterEffect s
      (foldInOrder p d c.micro t (ownInstance t q) (blockCount t)
        (openStore (qntSent s q p c a d t phys) d c.micro t (ownInstance t q) (boundPlanes s q p c d t))) q c 1 c.lanes) := by
  rw [exec_qnt, execQnt, bindOp_bound h hb]
  simp only [hf, hk, if_true, if_false]
  rfl

/-- Until it writes, QNT has changed panels and the count of free values alone. -/
theorem qntSent_eq (s : State) (q : Nat) (p : Package) (c : ChainRun) (a : NArgs) (d : Nat) (t : TensorDesc) (phys : Nat) :
    ∃ f ps, qntSent s q p c a d t phys = { s with free := f, panels := ps } := by
  obtain ⟨f, ps, hwait⟩ := bindWait_eq s q c d t
  rw [qntSent, qntWait, hwait]
  exact ⟨f, _, rfl⟩

/-- The one group that a QNT fills: memory takes its scale byte and the codes of its blocks (R38, R88). -/
theorem qnt_group_mem {u : State} {phys e0 c0 : Nat} {lg : Nat × Nat} {sb : Byte} {fbs : List FoldedBlock}
    (h : inPass s q p c) (hb : bound s q p c a.sub d t) (hf : fmtNarrow t.fmt = true) (hk : t.kout = 0)
    (hone : touchedGroups t (qntElems p c a d t) = [lg]) (hfull : groupFull (qntSent s q p c a d t phys) q d c.micro t lg)
    (hplain : plainWrites s) (he : (boundPlanes s q p c d t).elem = .flat e0)
    (hc : (boundPlanes s q p c d t).scale = .flat c0)
    (hfold : (foldPieces (foldCfgOf t)
        [(firstBlock t lg, groupSources (qntSent s q p c a d t phys) q d c.micro t lg)] {}).1 =
      [(firstBlock t lg, [(sb, fbs)])])
    (hx : exec (.qnt ⟨q, phys⟩ a) s = .next u) :
    u.mem = blocksPut t.fmt e0 (firstBlock t lg) (memPut s.mem (c0 + groupOf t (firstBlock t lg)) [sb]) fbs.zipIdx := by
  rw [exec_qnt_groups h hb phys hf hk, hone] at hx
  cases hx
  obtain ⟨f, ps, hsent⟩ := qntSent_eq s q p c a d t phys
  have hsentPlain : plainWrites (qntSent s q p c a d t phys) := by rw [hsent]; exact hplain
  have hsentMem : (qntSent s q p c a d t phys).mem = s.mem := by rw [hsent]
  rw [afterEffect_mem, List.foldl_cons, List.foldl_nil, foldedWhenFull_mem hfull hsentPlain hk he hc hfold, hsentMem]

/-! ### The memory frame -/

variable {n : Nat}

/-- A store of words leaves the bytes outside the elements of its lanes alone (R102). -/
theorem storeWords_byteKept {pl : Planes} {ls : List Lane} (h : ∀ l ∈ ls, ¬ placeHas pl.elem (4 * l.index) 4 n)
    (v : State → Lane → F32) (u : State) : ByteKept n u (ls.foldl (fun u l => putWord u pl l.index (v u l)) u) :=
  foldl_byteKept (fun l hl u => putWord_byteKept (h l hl) u _) u

/-- A store of L16 elements leaves the bytes outside those of its lanes alone (R102). -/
theorem storeL16_byteKept {pl : Planes} {ls : List Lane} (h : ∀ l ∈ ls, ¬ placeHas pl.elem (2 * l.index) 2 n)
    (step micro : Nat) (sr : Bool) (v : Lane → F32) (u : State) :
    ByteKept n u (ls.foldl (fun u l => putL16 u p step micro t pl sr l.index (v l)) u) :=
  foldl_byteKept (fun l hl u => putL16_byteKept (h l hl) u p step micro t sr _) u

theorem qntWait_byteKept (s : State) (q : Nat) (c : ChainRun) (d : Nat) (t : TensorDesc) (phys : Nat) :
    ByteKept n s (qntWait s q c d t phys) :=
  (bindWait_byteKept s q c d t).trans (SameLines.byteKept ⟨rfl, rfl⟩)

/-- An instruction whose effect keeps a byte keeps it. -/
theorem next_memGet {x : Instr} {u v : State} {lat : Nat} {ls : List Lane}
    (hx : exec x s = .next (afterEffect s u q c lat ls)) (hkept : ByteKept n s u) (hclean : memClean s = true)
    (hv : exec x s = .next v) : memGet v.mem n = memGet s.mem n := by
  cases hx.symm.trans hv
  exact (hkept hclean).2

theorem stb_memGet {v : State} (h : inPass s q p c) (hb : bound s q p c a.sub d t) (hclean : memClean s = true)
    (hout : ∀ l ∈ actives a c, ¬ placeHas (boundPlanes s q p c d t).elem (fmtBytes t.fmt * l.index) (fmtBytes t.fmt) n)
    (hv : exec (.stb q a) s = .next v) : memGet v.mem n = memGet s.mem n := by
  have hwait : ByteKept n s (bindWait s q c d t) := bindWait_byteKept s q c d t
  rcases stb_fmt h hb hv with hf | hf
  · have hbytes : fmtBytes t.fmt = 4 := by rcases hf with hf | hf <;> rw [hf] <;> rfl
    rw [hbytes] at hout
    exact next_memGet (exec_stb_words h hb hf) (hwait.trans (storeWords_byteKept hout _ _)) hclean hv
  · have hbytes : fmtBytes t.fmt = 2 := by rw [hf]; rfl
    rw [hbytes] at hout
    exact next_memGet (exec_stb_l16 h hb hf) (hwait.trans (storeL16_byteKept hout _ _ _ _ _)) hclean hv

theorem acc_memGet {v : State} (h : inPass s q p c) (hb : bound s q p c a.sub d t) (hclean : memClean s = true)
    (hout : ∀ l ∈ actives a c, ¬ placeHas (boundPlanes s q p c d t).elem (fmtBytes t.fmt * l.index) (fmtBytes t.fmt) n)
    (hv : exec (.acc q a) s = .next v) : memGet v.mem n = memGet s.mem n := by
  have hf := acc_fmt h hb hv
  have hbytes : fmtBytes t.fmt = 4 := by rw [hf]; rfl
  rw [hbytes] at hout
  exact next_memGet (exec_acc_f32 h hb hf) ((bindWait_byteKept s q c d t).trans (storeWords_byteKept hout _ _)) hclean hv

theorem qnt_memGet {v : State} {phys : Nat} (h : inPass s q p c) (hb : bound s q p c a.sub d t) (hf : t.fmt = .l16)
    (hclean : memClean s = true)
    (hout : ∀ l ∈ actives a c, ¬ placeHas (boundPlanes s q p c d t).elem (fmtBytes t.fmt * l.index) (fmtBytes t.fmt) n)
    (hv : exec (.qnt ⟨q, phys⟩ a) s = .next v) : memGet v.mem n = memGet s.mem n := by
  have hbytes : fmtBytes t.fmt = 2 := by rw [hf]; rfl
  rw [hbytes] at hout
  have hwait : ByteKept n s (qntWait s q c d t phys) := qntWait_byteKept s q c d t phys
  exact next_memGet (exec_qnt_l16 h hb phys hf) (hwait.trans (storeL16_byteKept hout _ _ _ _ _)) hclean hv

end Sys2Proof.Machine
end

section
/-! CERTIFICATES. The statements on what needle instructions draw, load, quantise and store: O3 and O4. -/

namespace Sys2Proof.Machine

open Sys2Proof.Config Sys2Proof.Claims

/-- Settles O3. The wait for a binding changes nothing that a read delivers (`viewMem_bindWait`), and a write that nothing
protects changes its bytes alone (`stepWrite_plain`), so that the one full group of a QNT leaves its scale byte and its
codes in memory (`qnt_group_mem`). -/
theorem needleDrawLoadQuantise : Obligations.NeedleDrawLoadQuantise := by
  refine ⟨fun s q p c a d t h hb => ?_, fun s q p c a phys d t h hb => ?_⟩
  · refine ⟨exec_rand_bound h hb, exec_drop_bound h hb, exec_cvt16_sr h hb, exec_ldb_bound h hb, fun hclean hflat => ?_⟩
    rw [bindWait_flat hflat, touchElems_clean hclean]
  · refine ⟨exec_qnt_l16 h hb phys, fun hf hk => ⟨exec_qnt_groups h hb phys hf hk, ?_⟩, exec_qnt_outliers h hb phys⟩
    intro lg e0 c0 sb fbs u hone hfull hplain he hc hfold hx
    exact qnt_group_mem h hb hf hk hone hfull hplain he hc hfold hx

/-- Settles O4. Each lane's write keeps every byte outside its element, and so does a write that a hold takes or that ends
the step (`stepWrite_byteKept`). -/
theorem needleStoreResult : Obligations.NeedleStoreResult := by
  refine ⟨fun s q p c a d t h hb => ⟨exec_stb_words h hb, exec_stb_l16 h hb, exec_acc_f32 h hb⟩, ?_⟩
  intro s t q p c a phys d x n h hb hclean hout
  exact ⟨stb_memGet h hb hclean hout, acc_memGet h hb hclean hout, fun hf => qnt_memGet h hb hf hclean hout⟩

end Sys2Proof.Machine
end

section
/-! SUPPORT. A slot on the panels of its set (R95, R166, R172): what issues, and what happens panel by panel. -/

namespace Sys2Proof.Machine

open Sys2Proof.Config Sys2Proof.Claims

/-- A run of parts that all go on is a fold, and keeps what each part keeps. -/
theorem eachDo_eq_foldl {α : Type} {P : State → Prop} {f : State → α → Out} {g : State → α → State} :
    ∀ {l : List α} {s : State}, (∀ t, P t → ∀ a ∈ l, f t a = .next (g t a) ∧ P (g t a)) → P s →
      eachDo f l s = .next (l.foldl g s)
  | [], _, _, _ => rfl
  | a :: l, s, h, hs => by
    obtain ⟨hnext, hkept⟩ := h s hs a List.mem_cons_self
    simp only [eachDo, hnext, List.foldl_cons]
    exact eachDo_eq_foldl (fun t ht b hb => h t ht b (List.mem_cons_of_mem a hb)) hkept

theorem whenRunning_jobRuns {s : State} {p : Package} (h : jobRuns s p) (k : Package → Out) : whenRunning s k = k p := by
  obtain ⟨hpkg, hrun⟩ := h
  simp only [whenRunning, hpkg, hrun, if_true]

theorem whenIssuing_streamRuns {s : State} {p : Package} (h : streamRuns s p) (k : Package → Out) :
    whenIssuing s k = k p := by
  obtain ⟨hjob, hissues⟩ := h
  rw [whenIssuing, whenRunning_jobRuns hjob, if_pos hissues]

theorem stepGone_slotsAct {s : State} {p : Package} (h : slotsAct s p) : stepGone s = false := by
  obtain ⟨⟨⟨hpkg, -⟩, -⟩, habandoned⟩ := h
  simp [stepGone, habandoned, hpkg]

/-- The FIFOs of panels that hold no slot are free. -/
theorem fifoFree_of_not_held {s : State} {ps : List Nat} (h : ∀ q ∈ ps, panelHeld (panelOf s q) = false) :
    fifoFree s ps = true := by
  refine List.all_eq_true.mpr fun q hq => ?_
  have hempty : (panelOf s q).fifo = [] := by
    have := h q hq
    simp only [panelHeld, Bool.or_eq_false_iff, Bool.not_eq_false', List.isEmpty_iff] at this
    exact this.2
  simp [hempty]

theorem panelHeld_enqueue (w : Panel) (f : FifoSlot) : panelHeld { w with fifo := w.fifo ++ [f] } = true := by
  simp [panelHeld]

theorem getD_mem_of_range {ps : List Nat} {j : Nat} (h : j ∈ List.range ps.length) : ps.getD j 0 ∈ ps := by
  rw [← List.getElem_eq_getD (h := List.mem_range.mp h)]
  exact List.getElem_mem _

/-- A slot that every panel of its set holds waits in their FIFOs (R172). -/
theorem onPanels_held {s : State} {ps : List Nat} (hgone : stepGone s = false) (hfree : fifoFree s ps = true)
    {held : Panel → Bool} (hfifo : ∀ w : Panel, ∀ f, held { w with fifo := w.fifo ++ [f] } = true)
    (hheld : ∀ q ∈ ps, held (panelOf s q) = true) (mk : Nat → FifoSlot) (act : State → Nat → Out) :
    onPanels s ps mk held act = .next (allWait s ps mk) := by
  rw [onPanels, if_pos hfree]
  refine eachDo_eq_foldl (P := fun t => stepGone t = false ∧ ∀ q ∈ ps, held (panelOf t q) = true) ?_ ⟨hgone, hheld⟩
  rintro t ⟨htgone, htheld⟩ j hj
  refine ⟨by simp only [htgone, htheld _ (getD_mem_of_range hj), Bool.false_eq_true, if_false, if_true]; rfl, htgone, ?_⟩
  intro r hr
  by_cases h : ps.getD j 0 = r
  · subst h; rw [panelOf_modPanel_self]; exact hfifo _ _
  · rw [panelOf_modPanel_ne _ _ _ _ h]; exact htheld r hr

/-- The panels of a slot are distinct (R170). -/
theorem slotPanels_nodup (s : State) (p : Package) (i : Nat) : (slotPanels s p i).Nodup := by
  unfold slotPanels
  split
  · exact List.nodup_nil
  · exact List.nodup_range.filter _

end Sys2Proof.Machine
end

section
/-! SUPPORT. What reading operands does to a step (R95, R197, R198): either the step is gone, or the planes of every
panel lie where they lay. -/

namespace Sys2Proof.Machine

open Sys2Proof.Config Sys2Proof.Claims

/-! ### Poison abandons the step (R161, R162) -/

theorem Sends.fence {s t : State} (h : Sends s t) : t.fence = s.fence := by rw [h]

theorem Replies.fence {s t : State} (h : Replies s t) : t.fence = s.fence := by rw [h]

@[simp] theorem abortAt_fence (s : State) (w : WaitPoint) (st : Status) : (abortAt s w st).fence = s.fence :=
  (abortAt_replies s w st).fence

@[simp] theorem pumpSnap_fence (s : State) : (pumpSnap s).fence = s.fence := by
  unfold pumpSnap
  split
  · exact List.foldlRecOn _ _ (motive := fun t : State × List (Nat × Nat × Nat) => t.1.fence = s.fence) rfl
      fun t ht u _ => (spread_sends _ _ _ _ _ _ _).fence.trans ht
  · rfl

@[simp] theorem sendReady_fence (s : State) : (sendReady s).fence = s.fence := by
  unfold sendReady
  split
  · split
    · exact pumpSnap_fence _
    · rfl
  · rfl

@[simp] theorem captureAt_fence (s : State) (mark : Option Nat) : (captureAt s mark).fence = s.fence := by
  unfold captureAt
  split
  · split
    · rfl
    · extract_lets b n0 n1 s1
      rw [sendReady_fence]
      split
      · exact (reply_replies _ _ _ _).fence
      · rfl
  · rfl

@[simp] theorem stopSnapshot_fence (s : State) (cause : Nat) : (stopSnapshot s cause).fence = s.fence := by
  unfold stopSnapshot; split <;> simp

@[simp] theorem captureHeld_fence (s : State) : (captureHeld s).fence = s.fence := by
  unfold captureHeld; split <;> simp

@[simp] theorem holdJob_fence (s : State) : (holdJob s).fence = s.fence := captureHeld_fence _

@[simp] theorem stopJob_fence (s : State) (st : Status) (e : Ev) (args : List Nat) : (stopJob s st e args).fence = s.fence := by
  unfold stopJob; split <;> simp

@[simp] theorem overrideStop_fence (s : State) (cause : Nat) : (overrideStop s cause).fence = s.fence := by
  unfold overrideStop; split <;> rfl

@[simp] theorem actOn_fence (s : State) (p : Package) (cause : Nat) : (actOn s p cause).fence = s.fence := by
  unfold actOn
  split
  · split <;> simp
  · split <;> simp
  · simp

@[simp] theorem poisonAction_abandoned (s : State) : (poisonAction s).fence.abandoned = s.fence.abandoned := by
  unfold poisonAction; split <;> simp

@[simp] theorem abandonWork_abandoned (s : State) : (abandonWork s).fence.abandoned = true := by
  unfold abandonWork; dsimp only; split <;> rfl

theorem takePoison_abandoned (s : State) (p : Poison) : (takePoison s p).fence.abandoned = true := by
  simp [takePoison]

/-- A device that poisons the step of its job abandons it (R95, R161). -/
theorem sendPoison_gone {s : State} (h : jobLoaded s = true) (cause : Nat) : stepGone (sendPoison s cause) = true := by
  simp only [sendPoison, h, if_true, sendPoisonFrom, stepGone, takePoison_abandoned, Bool.true_or]

/-! ### The step goes on, or it is gone -/

/-- From `s` to `t` the step, the settings, the micro-batch and the spool entries of every panel are as before, so that its
planes lie where they lay. -/
def PlanesStay (s t : State) : Prop :=
  stepGone t = stepGone s ∧ t.mgmt.settings = s.mgmt.settings ∧ t.shut.micro = s.shut.micro ∧
    ∀ q, allEntries (panelOf t q).spool = allEntries (panelOf s q).spool

theorem PlanesStay.refl (s : State) : PlanesStay s s := ⟨rfl, rfl, rfl, fun _ => rfl⟩

theorem PlanesStay.trans {a b c : State} (h : PlanesStay a b) (k : PlanesStay b c) : PlanesStay a c := by
  obtain ⟨hgone, hset, hmicro, hspool⟩ := h
  obtain ⟨kgone, kset, kmicro, kspool⟩ := k
  exact ⟨kgone.trans hgone, kset.trans hset, kmicro.trans hmicro, fun q => (kspool q).trans (hspool q)⟩

/-- The planes of a panel come from the settings and from its spool entries alone (R122, R126, R171). -/
theorem PlanesStay.planesAt_eq {s t : State} (h : PlanesStay s t) (p : Package) (q d : Nat) (x : TensorDesc) (micro : Nat) :
    planesAt t p q d x micro = planesAt s p q d x micro := by
  obtain ⟨-, hset, -, hspool⟩ := h
  have hsetting : setting t = setting s := by funext id idx; simp only [setting, hset]
  have hentry : ∀ e, entryPlace t p q e = entryPlace s p q e := fun e => by
    simp only [entryPlace, extStart, extBytes, stagingStart, stagingBytes, spoolExtBytes, hsetting]
  have hfind : findEntry (panelOf t q).spool d micro = findEntry (panelOf s q).spool d micro := by
    simp only [findEntry, hspool]
  simp only [planesAt, basePlace, hfind, hentry]

theorem PlanesStay.planesOf_eq {s t : State} (h : PlanesStay s t) (p : Package) (q d : Nat) (x : TensorDesc) :
    planesOf t p q d x = planesOf s p q d x := by
  have ⟨_, _, hmicro, _⟩ := h
  rw [planesOf, planesOf, hmicro, h.planesAt_eq]

/-- From `s` on the step is gone, or the planes lie where they lay. -/
def GoneOrStay (s t : State) : Prop := stepGone t = true ∨ PlanesStay s t

theorem GoneOrStay.refl (s : State) : GoneOrStay s s := .inr (.refl s)

/-- A step that is gone stays gone. -/
theorem GoneOrStay.trans {a b c : State} (h : GoneOrStay a b) (k : GoneOrStay b c) : GoneOrStay a c := by
  rcases k with k | k
  · exact .inl k
  · rcases h with h | h
    · exact .inl (k.1.trans h)
    · exact .inr (h.trans k)

theorem noteUncorrectable_stays (s : State) (l : Nat) : PlanesStay s (noteUncorrectable s l) := by
  unfold noteUncorrectable
  rw [raiseEv_sends]
  exact ⟨rfl, rfl, rfl, fun _ => rfl⟩

theorem recordSuspect_stays (s : State) (code unit verdict : Nat) : PlanesStay s (recordSuspect s code unit verdict) := by
  unfold recordSuspect nameVerdict
  rw [raiseEv_sends]
  split <;> exact ⟨rfl, rfl, rfl, fun _ => rfl⟩

theorem dropBase_stays (s : State) : PlanesStay s (dropBase s) := by
  unfold dropBase; split <;> exact ⟨rfl, rfl, rfl, fun _ => rfl⟩

/-- A drain ends the job, and with it the step (R327). -/
theorem drainIfDue_goneOrStay (s : State) : GoneOrStay s (drainIfDue s) := by
  have hgone : ∀ code unit, stepGone (startDrain s code unit) = true := fun code unit => by
    simp [stepGone, startDrain_pkg]
  unfold drainIfDue
  split
  · exact .refl s
  · split
    · exact .refl s
    · split
      case h_5 => exact .refl s
      all_goals exact .inl (hgone _ _)

theorem makeSuspect_goneOrStay (s : State) (code unit verdict : Nat) : GoneOrStay s (makeSuspect s code unit verdict) := by
  unfold makeSuspect
  refine .trans ?_ (drainIfDue_goneOrStay _)
  split
  · rename_i h
    exact .inl (sendPoison_gone (Bool.and_eq_true_iff.mp h).1 _)
  · exact .inr (recordSuspect_stays ..)

theorem uncorrectable_goneOrStay (s : State) (l : Nat) : GoneOrStay s (uncorrectable s l) := by
  refine .trans (.inr (noteUncorrectable_stays s l)) ?_
  unfold uncorrectable
  dsimp only
  split
  · exact makeSuspect_goneOrStay ..
  · split
    · split
      · exact .inr (dropBase_stays _)
      · exact .refl _
    · exact .refl _

theorem readLine_goneOrStay (s : State) (l : Nat) : GoneOrStay s (readLine s l).2 := by
  unfold readLine noteRead
  dsimp only
  split
  · exact uncorrectable_goneOrStay s l
  · exact .refl s
  · exact .inr ⟨rfl, rfl, rfl, fun _ => rfl⟩

theorem touchElems_goneOrStay (s : State) (t : TensorDesc) (pl : Planes) (xs : List Nat) :
    GoneOrStay s (touchElems s t pl xs) := by
  unfold touchElems
  split
  · exact .refl s
  · exact foldl_related GoneOrStay.refl GoneOrStay.trans readLine_goneOrStay _ s

end Sys2Proof.Machine
end

section
/-! SUPPORT. PROD (R79, R81, R171): what a part adds to its panel, and what it leaves alone. -/

namespace Sys2Proof.Machine

open Sys2Proof.Config Sys2Proof.Claims

/-! ### A panel that takes blocks -/

/-- From `w` to `w'` a panel takes the blocks `bs` behind those it has, and its tiles, spool entries, chain and records
are as before (R79). -/
structure TakesBlocks (bs : List Bank) (w w' : Panel) : Prop where
  blocks : w'.banks ++ w'.blocks = w.banks ++ w.blocks ++ bs
  queue : w'.queue = w.queue
  ring : w'.spool.ring = w.spool.ring
  ext : w'.spool.ext = w.spool.ext
  voids : w'.spool.voids = w.spool.voids
  chain : w'.chain = w.chain
  rows : w'.rows = w.rows

theorem TakesBlocks.refl (w : Panel) : TakesBlocks [] w w := ⟨(List.append_nil _).symm, rfl, rfl, rfl, rfl, rfl, rfl⟩

theorem TakesBlocks.trans {bs cs : List Bank} {a b c : Panel} (h : TakesBlocks bs a b) (k : TakesBlocks cs b c) :
    TakesBlocks (bs ++ cs) a c where
  blocks := by rw [k.blocks, h.blocks, List.append_assoc]
  queue := k.queue.trans h.queue
  ring := k.ring.trans h.ring
  ext := k.ext.trans h.ext
  voids := k.voids.trans h.voids
  chain := k.chain.trans h.chain
  rows := k.rows.trans h.rows

theorem TakesBlocks.allEntries_eq {bs : List Bank} {w w' : Panel} (h : TakesBlocks bs w w') :
    allEntries w'.spool = allEntries w.spool := by
  simp only [allEntries, h.ring, h.ext, h.voids]

/-- Filling the banks moves blocks, in order, and changes nothing else (R79). -/
theorem fillBanks_eq : ∀ (n : Nat) (w : Panel), ∃ bs cs, fillBanks n w = { w with banks := bs, blocks := cs } ∧
    bs ++ cs = w.banks ++ w.blocks
  | 0, w => ⟨w.banks, w.blocks, rfl, rfl⟩
  | n + 1, w => by
    simp only [fillBanks]
    split
    · exact ⟨w.banks, w.blocks, rfl, rfl⟩
    · rename_i b bs hblocks
      split
      · obtain ⟨bs', cs', hfill, happend⟩ := fillBanks_eq n { w with banks := w.banks ++ [b], blocks := bs }
        exact ⟨bs', cs', hfill, by simp [happend, hblocks]⟩
      · exact ⟨w.banks, w.blocks, rfl, rfl⟩

theorem fillBanks_takes (n : Nat) (w : Panel) : TakesBlocks [] w (fillBanks n w) := by
  obtain ⟨bs, cs, hfill, happend⟩ := fillBanks_eq n w
  rw [hfill]
  exact ⟨by rw [happend, List.append_nil], rfl, rfl, rfl, rfl, rfl, rfl⟩

/-! ### Blocks -/

/-- Only the panels, the fray counts and the count of free values differ from `s` to `t`. -/
def ProdFrame (s t : State) : Prop :=
  t = { s with free := t.free, panels := t.panels, job := { s.job with fray := t.job.fray } }

theorem ProdFrame.refl (s : State) : ProdFrame s s := rfl

theorem ProdFrame.trans {a b c : State} (h : ProdFrame a b) (k : ProdFrame b c) : ProdFrame a c := by
  unfold ProdFrame at *; rw [h] at k; exact k

theorem ProdFrame.sameLines {s t : State} (h : ProdFrame s t) : SameLines s t := by rw [h]; exact ⟨rfl, rfl⟩

theorem ProdFrame.viewMem_eq {s t : State} (h : ProdFrame s t) : viewMem t = viewMem s :=
  viewMem_sameLines h.sameLines (by rw [h])

theorem ProdFrame.shut {s t : State} (h : ProdFrame s t) : t.shut = s.shut := by rw [h]

/-- The blocks of a part come from memory, the shuttle and the planes of its panel (R79, R171). -/
theorem blocksOf_eq {s t : State} (h : ProdFrame s t) (hstay : PlanesStay s t) (p : Package) (v : ProdView) (d : Nat)
    (ps : List Nat) (j : Nat) : blocksOf t p v d ps j = blocksOf s p v d ps j := by
  simp only [blocksOf, Claims.blockOf, rowPlanes, colPlanes, h.viewMem_eq, h.shut, hstay.planesOf_eq]

/-- Panel `q` runs from `s` to `t` and takes the blocks `bs`; the other panels are as before. -/
structure RanOn (q : Nat) (bs : List Bank) (s t : State) : Prop where
  frame : ProdFrame s t
  others : ∀ r, r ≠ q → panelOf t r = panelOf s r
  takes : TakesBlocks bs (panelOf s q) (panelOf t q)

theorem RanOn.refl (q : Nat) (s : State) : RanOn q [] s s := ⟨.refl s, fun _ _ => rfl, .refl _⟩

theorem RanOn.trans {q : Nat} {bs cs : List Bank} {a b c : State} (h : RanOn q bs a b) (k : RanOn q cs b c) :
    RanOn q (bs ++ cs) a c :=
  ⟨h.frame.trans k.frame, fun r hr => (k.others r hr).trans (h.others r hr), h.takes.trans k.takes⟩

theorem RanOn.planesStay {q : Nat} {bs : List Bank} {s t : State} (h : RanOn q bs s t) : PlanesStay s t := by
  have hframe := h.frame
  refine ⟨by rw [hframe]; rfl, by rw [hframe], by rw [hframe], fun r => ?_⟩
  by_cases hr : r = q
  · subst hr; exact h.takes.allEntries_eq
  · rw [h.others r hr]

/-- A fold whose steps take the blocks of their elements takes the blocks of them all, in order. -/
theorem foldl_ranOn {α : Type} {q : Nat} {s : State} {f : State → α → State} {b : α → List Bank}
    (hf : ∀ t a bs, RanOn q bs s t → RanOn q (bs ++ b a) s (f t a)) :
    ∀ (l : List α) {bs : List Bank} {t : State}, RanOn q bs s t → RanOn q (bs ++ l.flatMap b) s (l.foldl f t)
  | [], _, _, h => by simpa using h
  | a :: l, _, _, h => by
    rw [List.foldl_cons, List.flatMap_cons, ← List.append_assoc]
    exact foldl_ranOn hf l (hf _ a _ h)

/-- The wait for the spool extension counts on its panel alone (R126, R132). -/
theorem waitExt_ranOn (s : State) (q : Nat) (b : Bool) : RanOn q [] s (waitExt s q b) := by
  unfold waitExt
  split
  · refine ⟨rfl, fun r hr => panelOf_modPanel_ne _ _ _ _ (Ne.symm hr), ?_⟩
    rw [panelOf_modPanel_self]
    exact TakesBlocks.mk (by simp [takeFree, panelOf]) rfl rfl rfl rfl rfl rfl
  · exact .refl q s

variable {p : Package} {v : ProdView} {d : Nat} {ps : List Nat} {j : Nat}

theorem panelOf_countFray (s : State) (tag slot : Nat) (f : Fray) (r : Nat) :
    panelOf (countFray s tag slot f) r = panelOf s r := rfl

/-- The partials of a block, element by element (R55 to R63). -/
theorem prodBlock_partials (s : State) (ru cu : Nat) :
    (prodBlock (viewMem s) v (prodPart p v j) (rowPlanes s p v (ps.getD j 0)) (colPlanes s p v (ps.getD j 0)) ru cu).1 =
      (Claims.blockOf s p v d ps j cu ru).partials := by
  simp only [prodBlock, List.map_flatMap, List.map_map]
  rfl

/-- A block as it runs in a state that has run others: it goes behind the blocks of its panel, and is counted (R55 to R63,
R79, R83). -/
theorem runBlock_eq {s t : State} (h : ProdFrame s t) (ru cu : Nat) : ∃ rows cols tag slot f,
    runBlock v d ps j (prodPart p v j) (rowPlanes s p v (ps.getD j 0)) (colPlanes s p v (ps.getD j 0)) t ru cu =
      countFray (modPanel t (ps.getD j 0) (fun w => fillBanks 2 (countBlock v (prodPart p v j) rows cols
        { w with blocks := w.blocks ++ [Claims.blockOf s p v d ps j cu ru] }))) tag slot f := by
  let b := prodBlock (viewMem s) v (prodPart p v j) (rowPlanes s p v (ps.getD j 0)) (colPlanes s p v (ps.getD j 0)) ru cu
  refine ⟨clipLines v.rowT (ru * v.pd.mT) v.pd.mT, clipLines v.colT (cu * v.pd.nT) v.pd.nT, v.outT.tag,
    runSlot v.rowT.fmt v.colT.fmt, { runs := b.2.1, trunc := b.2.2 }, ?_⟩
  simp only [runBlock, h.viewMem_eq, h.shut, prodBlock_partials (d := d)]
  rfl

theorem runBlock_ranOn {s t : State} {bs : List Bank} (h : RanOn (ps.getD j 0) bs s t) (ru cu : Nat) :
    RanOn (ps.getD j 0) (bs ++ [Claims.blockOf s p v d ps j cu ru]) s
      (runBlock v d ps j (prodPart p v j) (rowPlanes s p v (ps.getD j 0)) (colPlanes s p v (ps.getD j 0)) t ru cu) := by
  obtain ⟨rows, cols, tag, slot, f, hrun⟩ := runBlock_eq (p := p) (v := v) (d := d) (ps := ps) (j := j) h.frame ru cu
  rw [hrun]
  refine h.trans ⟨rfl, fun r hr => ?_, ?_⟩
  · rw [panelOf_countFray, panelOf_modPanel_ne _ _ _ _ (Ne.symm hr)]
  · rw [panelOf_countFray, panelOf_modPanel_self]
    refine TakesBlocks.trans (bs := [_]) (cs := []) ?_ (fillBanks_takes 2 _)
    exact ⟨(List.append_assoc ..).symm, rfl, rfl, rfl, rfl, rfl, rfl⟩

/-! ### Parts -/

/-- The state after a part has read its operands (R197, R198). -/
def readPart (p : Package) (v : ProdView) (ps : List Nat) (j : Nat) (s : State) : State :=
  touchPart v (prodPart p v j) (rowPlanes s p v (ps.getD j 0)) (colPlanes s p v (ps.getD j 0)) s

theorem readPart_goneOrStay (s : State) : GoneOrStay s (readPart p v ps j s) :=
  (touchElems_goneOrStay s _ _ _).trans (touchElems_goneOrStay _ _ _ _)

theorem readPart_clean {s : State} (h : memClean s = true) : readPart p v ps j s = s := by
  simp only [readPart, touchPart, touchElems_clean h]

/-- A part reads its operands, and runs its blocks if the step is not gone (R79, R95). -/
theorem runPart_eq (s : State) : runPart p v d ps j s =
    if stepGone (readPart p v ps j s) then readPart p v ps j s
    else (List.range ((prodPart p v j).colHi - (prodPart p v j).colLo)).foldl (fun t c =>
      (List.range ((prodPart p v j).rowHi - (prodPart p v j).rowLo)).foldl (fun t r =>
        runBlock v d ps j (prodPart p v j) (rowPlanes s p v (ps.getD j 0)) (colPlanes s p v (ps.getD j 0)) t
          ((prodPart p v j).rowLo + r) ((prodPart p v j).colLo + c)) t) (readPart p v ps j s) := rfl

theorem runPart_gone {s : State} (h : stepGone (readPart p v ps j s) = true) :
    runPart p v d ps j s = readPart p v ps j s := by
  rw [runPart_eq, if_pos h]

/-- The panel of a part takes its blocks, column unit by column unit (R79). -/
theorem runPart_ranOn {s : State} (hgone : stepGone (readPart p v ps j s) = false) (h : PlanesStay s (readPart p v ps j s)) :
    RanOn (ps.getD j 0) (blocksOf (readPart p v ps j s) p v d ps j) (readPart p v ps j s) (runPart p v d ps j s) := by
  have hrow : rowPlanes s p v (ps.getD j 0) = rowPlanes (readPart p v ps j s) p v (ps.getD j 0) := (h.planesOf_eq ..).symm
  have hcol : colPlanes s p v (ps.getD j 0) = colPlanes (readPart p v ps j s) p v (ps.getD j 0) := (h.planesOf_eq ..).symm
  rw [runPart_eq, if_neg (by simp [hgone]), hrow, hcol]
  refine foldl_ranOn (fun t c bs ht => ?_) _ (.refl ..)
  rw [List.map_eq_flatMap]
  exact foldl_ranOn (fun t r bs ht => runBlock_ranOn ht _ _) _ ht

theorem runPart_goneOrStay (s : State) : GoneOrStay s (runPart p v d ps j s) := by
  rcases readPart_goneOrStay (p := p) (v := v) (ps := ps) (j := j) s with hgone | hstay
  · rw [runPart_gone hgone]; exact .inl hgone
  · cases hgone : stepGone (readPart p v ps j s)
    · exact .inr (hstay.trans (runPart_ranOn hgone hstay).planesStay)
    · rw [runPart_gone hgone]; exact .inl hgone

/-! ### The panels of the set -/

/-- The state after the wait of panel `ps[j]` for operands in the spool extension (R126). -/
def prodWait (v : ProdView) (ps : List Nat) (j : Nat) (s : State) : State :=
  let q := ps.getD j 0
  waitExt s q (servedExt s q v.rowT.spooled v.rowD s.shut.micro || servedExt s q v.colT.spooled v.colD s.shut.micro)

theorem prodWait_ranOn (s : State) : RanOn (ps.getD j 0) [] s (prodWait v ps j s) := waitExt_ranOn ..

/-- What a PROD does on the panel at position `j` where no part of it faults. -/
def prodStep (p : Package) (v : ProdView) (d : Nat) (ps : List Nat) (mk : Nat → FifoSlot) (s : State) (j : Nat) : State :=
  if stepGone s then s
  else if panelHeld (panelOf s (ps.getD j 0)) then enqueueSlot s (ps.getD j 0) (mk j)
  else runPart p v d ps j (prodWait v ps j s)

theorem prodOn_next {s t : State} (h : PlanesStay s t) (hgone : stepGone t = false)
    (hok : planesOk v.rowT (rowPlanes s p v (ps.getD j 0)) = true ∧ planesOk v.colT (colPlanes s p v (ps.getD j 0)) = true) :
    prodOn p v d ps t j = .next (runPart p v d ps j (prodWait v ps j t)) := by
  obtain ⟨hrow, hcol⟩ := hok
  have hrow' : planesOk v.rowT (rowPlanes t p v (ps.getD j 0)) = true := by rwa [rowPlanes, h.planesOf_eq]
  have hcol' : planesOk v.colT (colPlanes t p v (ps.getD j 0)) = true := by rwa [colPlanes, h.planesOf_eq]
  simp only [prodOn, hgone, hrow', hcol', Bool.false_eq_true, if_false, Bool.and_self, if_true]
  rfl

theorem prodStep_goneOrStay (mk : Nat → FifoSlot) (s : State) (j : Nat) : GoneOrStay s (prodStep p v d ps mk s j) := by
  unfold prodStep
  split
  · exact .refl s
  · split
    · refine .inr ⟨rfl, rfl, rfl, fun r => ?_⟩
      by_cases h : ps.getD j 0 = r
      · subst h; rw [enqueueSlot, panelOf_modPanel_self]
      · rw [enqueueSlot, panelOf_modPanel_ne _ _ _ _ h]
    · exact .trans (.inr (prodWait_ranOn s).planesStay) (runPart_goneOrStay _)

theorem exec_prod_slot {s : State} {x : SlotRef} (h : slotsAct s p) (hv : prodView p x.desc = some v) :
    exec (.prod x) s = onPanels s (slotPanels s p x.pset) (fifoSlot s 0 1 x.desc (slotPanels s p x.pset) none) panelHeld
      (prodOn p v x.desc (slotPanels s p x.pset)) := by
  rw [exec_prod, execProd, whenIssuing_streamRuns h.1]
  simp only [hv]

/-- A PROD whose operands exist completes: the step of each panel goes on, or the step is gone (R95, R171). -/
theorem exec_prod_ready {s : State} {x : SlotRef} (h : slotsAct s p) (hv : prodView p x.desc = some v)
    (hready : prodReady s p v (slotPanels s p x.pset))
    (hheld : ∀ q ∈ slotPanels s p x.pset, panelHeld (panelOf s q) = false) :
    exec (.prod x) s = .next ((List.range (slotPanels s p x.pset).length).foldl (prodStep p v x.desc (slotPanels s p x.pset)
      (fifoSlot s 0 1 x.desc (slotPanels s p x.pset) none)) s) := by
  rw [exec_prod_slot h hv, onPanels, if_pos (fifoFree_of_not_held hheld)]
  refine eachDo_eq_foldl (P := GoneOrStay s) (fun t ht j hj => ⟨?_, ht.trans (prodStep_goneOrStay _ t j)⟩) (.refl s)
  unfold prodStep
  cases hgone : stepGone t
  · have hstay : PlanesStay s t := ht.resolve_left (by simp [hgone])
    have hprod := prodOn_next (d := x.desc) hstay hgone (hready _ (getD_mem_of_range hj))
    simp only [hprod, Bool.false_eq_true, if_false]
    split <;> rfl
  · rfl

/-- From `s` to `t` the parts at the first `k` positions have run, each on its own panel. -/
structure PartsDone (p : Package) (v : ProdView) (d : Nat) (ps : List Nat) (s : State) (k : Nat) (t : State) : Prop where
  frame : ProdFrame s t
  others : ∀ r, (∀ i, i < k → ps.getD i 0 ≠ r) → panelOf t r = panelOf s r
  done : ∀ i, i < k → TakesBlocks (blocksOf s p v d ps i) (panelOf s (ps.getD i 0)) (panelOf t (ps.getD i 0))

theorem PartsDone.planesStay {s t : State} {k : Nat} (h : PartsDone p v d ps s k t) : PlanesStay s t := by
  have hframe := h.frame
  refine ⟨by rw [hframe]; rfl, by rw [hframe], by rw [hframe], fun r => ?_⟩
  by_cases hr : ∃ i, i < k ∧ ps.getD i 0 = r
  · obtain ⟨i, hi, rfl⟩ := hr
    exact (h.done i hi).allEntries_eq
  · rw [h.others r fun i hi e => hr ⟨i, hi, e⟩]

theorem getD_ne_of_nodup {ps : List Nat} (h : ps.Nodup) {i k : Nat} (hik : i < k) (hk : k < ps.length) :
    ps.getD i 0 ≠ ps.getD k 0 := by
  have hi := Nat.lt_trans hik hk
  rw [← List.getElem_eq_getD (h := hi), ← List.getElem_eq_getD (h := hk)]
  exact List.pairwise_iff_getElem.mp h i k hi hk hik

/-- Where memory holds no error, a panel that holds no slot runs its part whole (R79, R172). -/
theorem PartsDone.step {s t : State} {k : Nat} (h : PartsDone p v d ps s k t) (hnodup : ps.Nodup) (hk : k < ps.length)
    (hclean : memClean s = true) (hgone : stepGone s = false) (hheld : panelHeld (panelOf s (ps.getD k 0)) = false)
    (mk : Nat → FifoSlot) : PartsDone p v d ps s (k + 1) (prodStep p v d ps mk t k) := by
  have hpanel : panelOf t (ps.getD k 0) = panelOf s (ps.getD k 0) := h.others _ fun i hi => getD_ne_of_nodup hnodup hi hk
  have hstay := h.planesStay
  have hwait := prodWait_ranOn (v := v) (ps := ps) (j := k) t
  have hwaitFrame := h.frame.trans hwait.frame
  have hwaitStay := hstay.trans hwait.planesStay
  have hread : readPart p v ps k (prodWait v ps k t) = prodWait v ps k t :=
    readPart_clean (hwaitFrame.sameLines.memClean_eq.trans hclean)
  have hstep : prodStep p v d ps mk t k = runPart p v d ps k (prodWait v ps k t) := by
    simp only [prodStep, hstay.1, hgone, hpanel, hheld, Bool.false_eq_true, if_false]
  have hpart := runPart_ranOn (d := d) (by rw [hread, hwaitStay.1, hgone]) (by rw [hread]; exact .refl _)
  rw [hread, blocksOf_eq hwaitFrame hwaitStay] at hpart
  have hran : RanOn (ps.getD k 0) (blocksOf s p v d ps k) t (prodStep p v d ps mk t k) := hstep ▸ hwait.trans hpart
  refine ⟨h.frame.trans hran.frame, fun r hr => ?_, fun i hi => ?_⟩
  · rw [hran.others r (hr k (Nat.lt_succ_self k)).symm, h.others r fun i hi => hr i (Nat.lt_succ_of_lt hi)]
  · rcases Nat.lt_succ_iff_lt_or_eq.mp hi with hi | rfl
    · rw [hran.others _ (getD_ne_of_nodup hnodup hi hk)]
      exact h.done i hi
    · rw [← hpanel]
      exact hran.takes

theorem partsDone_foldl {s : State} (hnodup : ps.Nodup) (hclean : memClean s = true) (hgone : stepGone s = false)
    (hheld : ∀ q ∈ ps, panelHeld (panelOf s q) = false) (mk : Nat → FifoSlot) :
    ∀ k, k ≤ ps.length → PartsDone p v d ps s k ((List.range k).foldl (prodStep p v d ps mk) s)
  | 0, _ => ⟨.refl s, fun _ _ => rfl, fun _ hi => absurd hi (Nat.not_lt_zero _)⟩
  | k + 1, hk => by
    rw [List.range_succ, List.foldl_append]
    exact (partsDone_foldl hnodup hclean hgone hheld mk k (Nat.le_of_succ_le hk)).step hnodup hk hclean hgone
      (hheld _ (getD_mem_of_range (List.mem_range.mpr hk))) mk

end Sys2Proof.Machine
end

section
/-! SUPPORT. BANK_EMIT and CHAIN_HOP_ARRIVAL (R79, R81, R82, R85, R94). -/

namespace Sys2Proof.Machine

open Sys2Proof.Config Sys2Proof.Claims

/-! ### BANK_EMIT -/

/-- An emission changes the banks and blocks of its panel alone (R79). -/
theorem advanceBank_eq (w : Panel) (b : Bank) (rest : List Bank) :
    ∃ bs cs, advanceBank w b rest = { w with banks := bs, blocks := cs } := by
  unfold advanceBank
  split
  · exact ⟨_, w.blocks, rfl⟩
  · obtain ⟨bs, cs, hfill, -⟩ := fillBanks_eq 2 { w with banks := rest }
    exact ⟨bs, cs, hfill⟩

variable {s : State} {q : Nat} {b : Bank} {rest : List Bank}

/-- A bank whose sums are not complete, or whose tile waits for its push, does not emit (R81, R86). -/
theorem exec_bankEmit_waits (hbanks : (panelOf s q).banks = b :: rest) (h : b.needs ≠ 0 ∨ (panelOf s q).emitted ≠ []) :
    exec (.bankEmit q) s = .next s := by
  simp only [exec_bankEmit, execBankEmit, hbanks, if_pos h]
  rfl

theorem exec_bankEmit_tile (hbanks : (panelOf s q).banks = b :: rest) (hneeds : b.needs = 0)
    (hemitted : (panelOf s q).emitted = []) (hout : b.chainOut = none) :
    exec (.bankEmit q) s = .next (setPanel s q { advanceBank (panelOf s q) b rest with emitted := [bankTile b] }) := by
  have h : ¬ (b.needs ≠ 0 ∨ (panelOf s q).emitted ≠ []) := by simp [hneeds, hemitted]
  simp only [exec_bankEmit, execBankEmit, hbanks, if_neg h, hout]

theorem exec_bankEmit_hop {r : Nat} (hbanks : (panelOf s q).banks = b :: rest) (hneeds : b.needs = 0)
    (hemitted : (panelOf s q).emitted = []) (hout : b.chainOut = some r) :
    exec (.bankEmit q) s = .next (modPanel (setPanel s q (advanceBank (panelOf s q) b rest)) r
      (fun w => { w with hops := w.hops ++ [bankHop q b] })) := by
  have h : ¬ (b.needs ≠ 0 ∨ (panelOf s q).emitted ≠ []) := by simp [hneeds, hemitted]
  simp only [exec_bankEmit, execBankEmit, hbanks, if_neg h, hout]

/-- What BANK_EMIT leaves where the oldest bank is ready: its next tile, or the hop that carries it (R81, R82, R85). -/
theorem bankEmit_ready (hbanks : (panelOf s q).banks = b :: rest) (hneeds : b.needs = 0)
    (hemitted : (panelOf s q).emitted = []) : ∃ t, exec (.bankEmit q) s = .next t ∧ t.mem = s.mem ∧ t.mgmt = s.mgmt ∧
      (panelOf t q).queue = (panelOf s q).queue ∧
      (b.chainOut = none → (panelOf t q).emitted = [bankTile b] ∧ ∀ r, r ≠ q → panelOf t r = panelOf s r) ∧
      (∀ r, b.chainOut = some r → r ≠ q →
        (panelOf t r).hops = (panelOf s r).hops ++ [bankHop q b] ∧ (panelOf t q).emitted = []) := by
  obtain ⟨bs, cs, hadvance⟩ := advanceBank_eq (panelOf s q) b rest
  cases hout : b.chainOut with
  | none =>
    refine ⟨_, exec_bankEmit_tile hbanks hneeds hemitted hout, rfl, rfl, ?_, fun _ => ⟨?_, fun r hr => ?_⟩, by simp⟩
    · rw [panelOf_setPanel_self, hadvance]
    · rw [panelOf_setPanel_self]
    · exact panelOf_setPanel_ne _ _ _ _ hr.symm
  | some r =>
    refine ⟨_, exec_bankEmit_hop hbanks hneeds hemitted hout, rfl, rfl, ?_, by simp, fun r' hr' hne => ?_⟩
    · by_cases h : r = q
      · subst h; rw [panelOf_modPanel_self, panelOf_setPanel_self, hadvance]
      · rw [panelOf_modPanel_ne _ _ _ _ h, panelOf_setPanel_self, hadvance]
    · cases hr'
      rw [panelOf_modPanel_self, panelOf_setPanel_ne _ _ _ _ hne.symm, panelOf_modPanel_ne _ _ _ _ hne,
        panelOf_setPanel_self, hadvance]
      exact ⟨rfl, hemitted⟩

/-! ### CHAIN_HOP_ARRIVAL -/

theorem bankTakes_iff_awaits {b : Bank} {h : Hop} : bankTakes h b = true ↔ awaits b h := by
  simp [bankTakes, awaits, and_assoc]

/-- The oldest hop goes to the oldest bank, which awaits it (R81, R94). -/
theorem exec_chainHopArrival_taken {h : Hop} {hs : List Hop} (hbanks : (panelOf s q).banks = b :: rest)
    (hhops : (panelOf s q).hops = h :: hs) (hawaits : awaits b h) (phys : Nat) :
    exec (.chainHopArrival ⟨q, phys⟩) s = .next (modPanel s q (fun w => { w with
      hops := hs, banks := { b with start := b.start ++ h.data, needs := b.needs - 1 } :: rest
      mat := { w.mat with waitPhys := sat32 (w.mat.waitPhys + phys) } })) := by
  have htakes := bankTakes_iff_awaits.mpr hawaits
  simp only [exec_chainHopArrival, execChainHopArrival, hbanks, hhops, List.find?_cons, List.any_cons, htakes, Bool.true_or,
    giveHop, if_true, List.erase_cons_head]
  rfl

/-- Hops that no bank awaits wait on their handshake (R94). -/
theorem exec_chainHopArrival_waits {h : Hop} {hs : List Hop} (hbanks : (panelOf s q).banks = b :: rest)
    (hhops : (panelOf s q).hops = h :: hs) (hnone : ∀ k ∈ h :: hs, ∀ c ∈ b :: rest, ¬ awaits c k) (phys : Nat) :
    exec (.chainHopArrival ⟨q, phys⟩) s = .next (modPanel s q (fun w => { w with
      mat := { w.mat with waitPhys := sat32 (w.mat.waitPhys + phys) } })) := by
  have hfind : (h :: hs).find? (fun k => (b :: rest).any (bankTakes k)) = none := by
    refine List.find?_eq_none.mpr fun k hk => ?_
    simp only [List.any_eq_true, not_exists, not_and, bankTakes_iff_awaits]
    exact hnone k hk
  simp only [exec_chainHopArrival, execChainHopArrival, hbanks, hhops, hfind, List.isEmpty_cons, Bool.false_eq_true, if_false]
  rfl

end Sys2Proof.Machine
end

section
/-! SUPPORT. TILE_PUSH (R85 to R87, R91, R148): what the selection, the flags and the traces leave alone. -/

namespace Sys2Proof.Machine

open Sys2Proof.Config Sys2Proof.Claims

/-! ### Flags and traces -/

theorem panelOf_setFlag_self (s : State) (q : Nat) (f : Flag) (tag : Nat) :
    ∃ told, panelOf (setFlag s q f tag) q = putFlag { panelOf s q with told := told } f := by
  unfold setFlag
  dsimp only
  refine ⟨if (panelOf s q).told.contains (flagNumber f) then (panelOf s q).told
    else (panelOf s q).told ++ [flagNumber f], ?_⟩
  split
  · exact panelOf_setPanel_self ..
  · exact panelOf_setPanel_self ..

theorem panelOf_setFlag_ne (s : State) (q r : Nat) (f : Flag) (tag : Nat) (h : r ≠ q) :
    panelOf (setFlag s q f tag) r = panelOf s r := by
  unfold setFlag
  dsimp only
  split
  · exact panelOf_setPanel_ne _ _ _ _ h.symm
  · exact panelOf_setPanel_ne _ _ _ _ h.symm

@[simp] theorem setFlag_hubs (s : State) (q : Nat) (f : Flag) (tag : Nat) : (setFlag s q f tag).hubs = s.hubs := by
  unfold setFlag; dsimp only; split <;> rfl

@[simp] theorem setFlagIf_hubs (s : State) (b : Bool) (q : Nat) (f : Flag) (tag : Nat) :
    (setFlagIf s b q f tag).hubs = s.hubs := by
  unfold setFlagIf; split <;> simp

/-- A trace record changes the trace of its panel alone, beside the sequence number and a free value (R352). -/
theorem panelOf_traceAt_self (s : State) (q kind : Nat) :
    ∃ tr, panelOf (traceAt s q kind) q = { panelOf s q with trace := tr } := by
  unfold traceAt
  split
  · exact ⟨_, panelOf_modPanel_self ..⟩
  · exact ⟨_, rfl⟩

@[simp] theorem traceAt_mem (s : State) (q kind : Nat) : (traceAt s q kind).mem = s.mem := by
  unfold traceAt; split <;> rfl

@[simp] theorem traceAt_hubs (s : State) (q kind : Nat) : (traceAt s q kind).hubs = s.hubs := by
  unfold traceAt; split <;> rfl

/-! ### The selection -/

/-- From `s` to `t` only hubs and BASTE_SKIPS of panel `q` change (R87, R148). -/
structure Selects (q : Nat) (s t : State) : Prop where
  frame : t = { s with hubs := t.hubs, panels := t.panels }
  others : ∀ r, r ≠ q → panelOf t r = panelOf s r
  own : ∃ n, panelOf t q = { panelOf s q with mat := { (panelOf s q).mat with basteSkips := n } }

theorem Selects.of_hubs {q : Nat} {s t : State} (h : t = { s with hubs := t.hubs }) : Selects q s t := by
  rw [h]; exact ⟨rfl, fun _ _ => rfl, _, rfl⟩

theorem panelOf_modHub (s : State) (h : Nat) (f : Hub → Hub) (r : Nat) : panelOf (modHub s h f) r = panelOf s r := rfl

theorem skipSelection_selects (s : State) (q : Nat) (inel : Bool) : Selects q s (skipSelection s q inel) := by
  unfold skipSelection
  refine ⟨rfl, fun r hr => ?_, sat32 ((panelOf s q).mat.basteSkips + 1), ?_⟩
  · rw [panelOf_modHub, panelOf_modPanel_ne _ _ _ _ hr.symm]
  · rw [panelOf_modHub, panelOf_modPanel_self]

theorem basteSelect_selects (s : State) (p : Package) (q draw : Nat) (t : Tile) : Selects q s (basteSelect s p q draw t).2 := by
  have hskip : ∀ f inel, Selects q s (skipSelection (modHub s (q / 16) f) q inel) := fun f inel => by
    obtain ⟨hframe, hothers, hown⟩ := skipSelection_selects (modHub s (q / 16) f) q inel
    refine ⟨?_, hothers, hown⟩
    rw [hframe]; rfl
  unfold basteSelect
  split
  · exact .of_hubs rfl
  · dsimp only
    split
    · exact hskip _ _
    · split
      · exact hskip _ _
      · split
        · exact hskip _ _
        · exact .of_hubs rfl

/-- A draw that is not a multiple of 2^DENSITY selects nothing (R148). -/
theorem basteSelect_skipped {s : State} {draw : Nat} (h : draw % 2 ^ setting s 0x100 0 ≠ 0) (p : Package) (q : Nat)
    (t : Tile) : basteSelect s p q draw t = (false, s) := if_pos h

/-! ### TILE_PUSH -/

variable {s : State} {q : Nat} {p : Package} {w : Tile} {rest : List Tile}

/-- A tile as it enters the queue, with the elements `data` that the hardware computed (R85). -/
def pushedTile (s : State) (q : Nat) (w : Tile) (data : List F32) (sampled : Bool) : Tile :=
  { w with data := data, nonfinite := data.any (fun x => !(f32IsFinite x)), seq := (panelOf s q).seq, sampled := sampled }

/-- The baste selection of a tile that is pushed (R148). -/
def pushSelect (s : State) (p : Package) (q draw : Nat) (w : Tile) (data : List F32) : Bool × State :=
  basteSelect s p q draw (pushedTile s q w data w.sampled)

/-- A panel after a push, before the flag (R85, R86, R91). -/
def pushTile (phys : Nat) (rest : List Tile) (t : Tile) (u : Panel) : Panel :=
  matWait phys { u with
    emitted := rest, queue := u.queue ++ [t], seq := (u.seq + 1) % 2 ^ 32
    mat := { u.mat with tilesPushed := sat32 (u.mat.tilesPushed + 1) } }

/-- The state after a push with the elements `data` into a queue with room. -/
def afterPush (s : State) (p : Package) (q phys draw : Nat) (w : Tile) (rest : List Tile) (data : List F32) : State :=
  setFlagIf (modPanel (pushSelect s p q draw w data).2 q
      (pushTile phys rest (pushedTile s q w data (pushSelect s p q draw w data).1)))
    (data.any (fun x => !(f32IsFinite x))) q .accNonfinite w.tag

theorem exec_tilePush_room (h : jobRuns s p) (hemitted : (panelOf s q).emitted = w :: rest)
    (hroom : (panelOf s q).queue.length < 8) (phys draw : Nat) (flt : List (Nat × W32)) :
    exec (.tilePush ⟨q, phys⟩ draw flt) s = .next (afterPush s p q phys draw w rest (faulty w.data flt)) := by
  simp only [exec_tilePush, execTilePush, whenRunning_jobRuns h, hemitted, if_neg (Nat.not_le.mpr hroom)]
  rfl

theorem panelOf_setAccNonfinite (s : State) (b : Bool) (q tag : Nat) :
    ∃ told, panelOf (setFlagIf s b q .accNonfinite tag) q =
      { panelOf s q with
        told := told
        mat := { (panelOf s q).mat with accNonfinite := (panelOf s q).mat.accNonfinite || b } } := by
  cases b with
  | false => exact ⟨(panelOf s q).told, by rw [Bool.or_false]; rfl⟩
  | true =>
    obtain ⟨told, h⟩ := panelOf_setFlag_self s q .accNonfinite tag
    exact ⟨told, h.trans (by rw [Bool.or_true]; rfl)⟩

/-- The panel of a push: its tile is queued under its SEQ, and the push and its wait are counted (R85 to R87, R91). -/
theorem panelOf_afterPush_self (s : State) (p : Package) (q phys draw : Nat) (w : Tile) (rest : List Tile) (data : List F32) :
    ∃ told n, panelOf (afterPush s p q phys draw w rest data) q = { panelOf s q with
      told := told, emitted := rest, seq := ((panelOf s q).seq + 1) % 2 ^ 32
      queue := (panelOf s q).queue ++ [pushedTile s q w data (pushSelect s p q draw w data).1]
      mat := { (panelOf s q).mat with
        basteSkips := n, tilesPushed := sat32 ((panelOf s q).mat.tilesPushed + 1)
        waitPhys := sat32 ((panelOf s q).mat.waitPhys + phys)
        accNonfinite := (panelOf s q).mat.accNonfinite || data.any (fun x => !(f32IsFinite x)) } } := by
  obtain ⟨-, -, n, hsel⟩ := basteSelect_selects s p q draw (pushedTile s q w data w.sampled)
  obtain ⟨told, hflag⟩ := panelOf_setAccNonfinite (modPanel (pushSelect s p q draw w data).2 q
    (pushTile phys rest (pushedTile s q w data (pushSelect s p q draw w data).1)))
    (data.any (fun x => !(f32IsFinite x))) q w.tag
  refine ⟨told, n, hflag.trans ?_⟩
  rw [panelOf_modPanel_self, pushSelect, hsel]
  rfl

theorem panelOf_afterPush_ne (s : State) (p : Package) (phys draw : Nat) (w : Tile) (rest : List Tile) (data : List F32)
    {q r : Nat} (h : r ≠ q) : panelOf (afterPush s p q phys draw w rest data) r = panelOf s r := by
  have hsel := (basteSelect_selects s p q draw (pushedTile s q w data w.sampled)).others r h
  unfold afterPush setFlagIf
  split
  · rw [panelOf_setFlag_ne _ _ _ _ _ h, panelOf_modPanel_ne _ _ _ _ h.symm]; exact hsel
  · rw [panelOf_modPanel_ne _ _ _ _ h.symm]; exact hsel

theorem afterPush_mem (s : State) (p : Package) (q phys draw : Nat) (w : Tile) (rest : List Tile) (data : List F32) :
    (afterPush s p q phys draw w rest data).mem = s.mem := by
  have hsel := (basteSelect_selects s p q draw (pushedTile s q w data w.sampled)).frame
  rw [afterPush, setFlagIf_mem, modPanel_mem, pushSelect, hsel]

/-- A push whose draw selects nothing takes no copy and changes no hub (R148). -/
theorem afterPush_skipped {draw : Nat} (h : draw % 2 ^ setting s 0x100 0 ≠ 0) (p : Package) (q phys : Nat) (w : Tile)
    (rest : List Tile) (data : List F32) :
    (pushSelect s p q draw w data).1 = false ∧ (afterPush s p q phys draw w rest data).hubs = s.hubs := by
  have hsel : pushSelect s p q draw w data = (false, s) := basteSelect_skipped h ..
  exact ⟨by rw [hsel], by rw [afterPush, setFlagIf_hubs, modPanel_hubs, hsel]⟩

/-- The state after a push that waits for room in the queue (R86). -/
def afterWait (s : State) (q phys : Nat) (w : Tile) : State :=
  traceAt (modPanel (setFlag s q .queueWait w.tag) q (matWait phys)) q 3

theorem exec_tilePush_full (h : jobRuns s p) (hemitted : (panelOf s q).emitted = w :: rest)
    (hfull : 8 ≤ (panelOf s q).queue.length) (phys draw : Nat) (flt : List (Nat × W32)) :
    exec (.tilePush ⟨q, phys⟩ draw flt) s = .next (afterWait s q phys w) := by
  simp only [exec_tilePush, execTilePush, whenRunning_jobRuns h, hemitted, if_pos hfull]
  rfl

theorem panelOf_afterWait_self (s : State) (q phys : Nat) (w : Tile) :
    ∃ told tr, panelOf (afterWait s q phys w) q = { panelOf s q with
      told := told, trace := tr
      mat := { (panelOf s q).mat with queueWait := true, waitPhys := sat32 ((panelOf s q).mat.waitPhys + phys) } } := by
  obtain ⟨told, hflag⟩ := panelOf_setFlag_self s q .queueWait w.tag
  obtain ⟨tr, htrace⟩ := panelOf_traceAt_self (modPanel (setFlag s q .queueWait w.tag) q (matWait phys)) q 3
  refine ⟨told, tr, htrace.trans ?_⟩
  rw [panelOf_modPanel_self, hflag]
  rfl

@[simp] theorem afterWait_mem (s : State) (q phys : Nat) (w : Tile) : (afterWait s q phys w).mem = s.mem := by
  simp [afterWait]

@[simp] theorem afterWait_hubs (s : State) (q phys : Nat) (w : Tile) : (afterWait s q phys w).hubs = s.hubs := by
  simp [afterWait]

end Sys2Proof.Machine
end

section
/-! CERTIFICATES. The statement on the matrix pipeline: O8. -/

namespace Sys2Proof.Machine

open Sys2Proof.Config Sys2Proof.Claims

/-- Settles O8. A PROD whose operands exist goes on panel by panel, for a read that meets an error either ends the step or
leaves the planes where they lay (`touchElems_goneOrStay`); where memory holds no error each part adds its blocks to its own
panel (`partsDone_foldl`). -/
theorem matrixPipelineResult : Obligations.MatrixPipelineResult := by
  refine ⟨fun s p x v h hv => ⟨fun hheld hfree => ?_, fun hready hheld => ?_⟩, fun s q b rest hbanks => ⟨?_, ?_, ?_⟩,
    fun s q draw phys flt p w rest h hemitted => ⟨fun hroom => ?_, fun hfull => ?_⟩⟩
  · rw [exec_prod_slot h hv]
    exact onPanels_held (stepGone_slotsAct h) hfree panelHeld_enqueue hheld _ _
  · refine ⟨_, exec_prod_ready h hv hready hheld, fun hclean => ?_⟩
    have hdone := partsDone_foldl (p := p) (v := v) (d := x.desc) (slotPanels_nodup s p x.pset) hclean (stepGone_slotsAct h)
      hheld (fifoSlot s 0 1 x.desc (slotPanels s p x.pset) none) _ (Nat.le_refl _)
    have hframe := hdone.frame
    refine ⟨by rw [hframe], by rw [hframe], by rw [hframe], fun q hq => ?_, fun j hj => ?_⟩
    · exact hdone.others q fun i hi e => hq (e ▸ getD_mem_of_range (List.mem_range.mpr hi))
    · obtain ⟨hblocks, hqueue, hring, hext, -, hchain, hrows⟩ := hdone.done j hj
      exact ⟨hblocks, hqueue, hring, hext, hchain, hrows⟩
  · exact exec_bankEmit_waits hbanks
  · exact bankEmit_ready hbanks
  · intro phys h hs hhops
    exact ⟨fun hawaits => exec_chainHopArrival_taken hbanks hhops hawaits phys,
      fun hnone => exec_chainHopArrival_waits hbanks hhops hnone phys⟩
  · obtain ⟨told, n, hpanel⟩ := panelOf_afterPush_self s p q phys draw w rest (faulty w.data flt)
    refine ⟨_, exec_tilePush_room h hemitted hroom phys draw flt, afterPush_mem .., ?_⟩
    rw [hpanel]
    exact ⟨rfl, rfl, rfl, rfl, ⟨_, rfl, fun hdraw => afterPush_skipped hdraw p q phys w rest _⟩, rfl,
      fun r hr => panelOf_afterPush_ne s p phys draw w rest _ hr⟩
  · obtain ⟨told, tr, hpanel⟩ := panelOf_afterWait_self s q phys w
    refine ⟨_, exec_tilePush_full h hemitted hfull phys draw flt, afterWait_mem .., afterWait_hubs .., ?_⟩
    rw [hpanel]
    exact ⟨rfl, rfl, rfl, rfl, rfl⟩

end Sys2Proof.Machine
end

section
/-! SUPPORT. A request that passes its checks (R335 to R338), for any message: it does what its message does, and what it
answers is its reply. -/

namespace Sys2Proof.Machine

open Sys2Proof.Config Sys2Proof.Claims

variable {r : Req} {act : State → Nat → Mailbox → State} {s : State} {m : Nat}

/-- An accepted request does what its message does, in the state in which it has left those that wait to start. -/
theorem exec_accepted (hserve : exec (r.cmd m) s = serve r.op r.len r.rsv r.st act m s) (h : accepted s m r) :
    exec (r.cmd m) s = .next (act (takeRing s m) m (boxOf s m)) := by
  obtain ⟨⟨hring, hrung, -, hop⟩, hlen, hbody, hhdr, hrsv, hstate⟩ := h
  rw [hserve]
  exact serve_accepts hring hrung hop hlen hbody hhdr hrsv hstate

/-- An accepted request whose message only replies. -/
theorem repliesOnly_of_reply {st : Status} {body : List Byte}
    (hserve : exec (r.cmd m) s = serve r.op r.len r.rsv r.st act m s) (h : accepted s m r)
    (hact : act (takeRing s m) m (boxOf s m) = reply (takeRing s m) m st body) : repliesOnly s (r.cmd m) m st body := by
  have ⟨⟨_, _, horphan, _⟩, _⟩ := h
  exact ⟨_, by rw [exec_accepted hserve h, hact], reply_takeRing_onlyReply horphan st body,
    reply_takeRing_answered horphan st body⟩

/-- A request that waits for a point changes its own mailbox alone, and its reply stands as it stood (R335). -/
theorem waitAt_takeRing (s : State) (m : Nat) (w : WaitPoint) (note : List Nat) :
    onlyReply s (waitAt (takeRing s m) m w note) m ∧ (boxOf (waitAt (takeRing s m) m w note) m).waits = some w ∧
      (boxOf (waitAt (takeRing s m) m w note) m).reply = (boxOf s m).reply := by
  refine ⟨⟨rfl, fun k hk => ?_⟩, ?_, ?_⟩
  · rw [waitAt, boxOf_modBox_ne _ _ _ _ hk.symm, boxOf_takeRing, if_neg hk.symm]
  · simp [waitAt]
  · simp [waitAt]

end Sys2Proof.Machine
end

section
/-! SUPPORT. The requests that read records (R145, R147, R156, R256, R329, R352, R357, R360, R376): the cursors that they
answer with. -/

namespace Sys2Proof.Machine

open Sys2Proof.Config Sys2Proof.Claims

/-! ### Places in the event log (R355, R357) -/

/-- The log lists its places in rising order. -/
theorem logFrom_ascends (g : Mgmt) (start : Nat) : (logFrom g start).Pairwise (fun x y => x.2 < y.2) := by
  rw [List.pairwise_iff_getElem]
  intro i j _ _ hij
  simp only [logFrom, List.getElem_drop, List.getElem_map, List.getElem_zipIdx]
  omega

theorem place_of_mem_logFrom {g : Mgmt} {start : Nat} {e : Event × Nat} (hstart : g.dropped ≤ start)
    (h : e ∈ logFrom g start) : start ≤ e.2 ∧ e.2 < g.dropped + g.log.length := by
  obtain ⟨i, hi, rfl⟩ := List.mem_iff_getElem.mp h
  simp only [logFrom, List.length_drop, List.length_map, List.length_zipIdx] at hi
  simp only [logFrom, List.getElem_drop, List.getElem_map, List.getElem_zipIdx]
  omega

/-- No place of a rising list lies beyond its last. -/
theorem place_le_getLast? {l : List (Event × Nat)} {e x : Event × Nat} (hl : l.Pairwise (fun x y => x.2 < y.2))
    (hx : l.getLast? = some x) (he : e ∈ l) : e.2 ≤ x.2 := by
  obtain ⟨init, rfl⟩ := List.getLast?_eq_some_iff.mp hx
  rcases List.mem_append.mp he with h | h
  · exact Nat.le_of_lt ((List.pairwise_append.mp hl).2.2 e h x List.mem_cons_self)
  · exact Nat.le_of_eq (congrArg Prod.snd (List.mem_singleton.mp h))

/-- The records of an EVENT_READ: `n` at most, from a place on, of a source or of every one (R357). -/
def eventHits (g : Mgmt) (start n src : Nat) : List (Event × Nat) :=
  ((logFrom g start).filter (fun e => src == 0xFFFF || e.1.source == src)).take n

theorem eventHits_sublist (g : Mgmt) (start n src : Nat) : (eventHits g start n src).Sublist (logFrom g start) :=
  (List.take_sublist _ _).trans List.filter_sublist

/-- The cursor that an EVENT_READ answers with (R357). -/
def nextPlace (g : Mgmt) (start n : Nat) (hits : List (Event × Nat)) : Nat :=
  if n = 0 then start
  else if hits.length < n then max start (g.dropped + g.log.length)
  else match hits.getLast? with | some e => e.2 + 1 | none => start

/-- The next cursor is not before the first one, and every record answered lies before it. -/
theorem nextPlace_bounds {g : Mgmt} {start n src : Nat} (hstart : g.dropped ≤ start) :
    start ≤ nextPlace g start n (eventHits g start n src) ∧
      ∀ e ∈ eventHits g start n src, e.2 < nextPlace g start n (eventHits g start n src) := by
  have hplace : ∀ e ∈ eventHits g start n src, start ≤ e.2 ∧ e.2 < g.dropped + g.log.length := fun e he =>
    place_of_mem_logFrom hstart ((eventHits_sublist g start n src).subset he)
  have hrise := (logFrom_ascends g start).sublist (eventHits_sublist g start n src)
  have hnone : n = 0 → eventHits g start n src = [] := fun h => by rw [eventHits, h, List.take_zero]
  generalize eventHits g start n src = hits at hplace hrise hnone ⊢
  unfold nextPlace
  split
  · rename_i hn
    rw [hnone hn]
    exact ⟨Nat.le_refl _, by simp⟩
  · split
    · exact ⟨Nat.le_max_left _ _, fun e he => Nat.lt_of_lt_of_le (hplace e he).2 (Nat.le_max_right _ _)⟩
    · split
      · rename_i x hx
        exact ⟨Nat.le_succ_of_le (hplace x (List.mem_of_getLast? hx)).1,
          fun e he => Nat.lt_succ_of_le (place_le_getLast? hrise hx he)⟩
      · rename_i hx
        rw [List.getLast?_eq_none_iff.mp hx]
        exact ⟨Nat.le_refl _, by simp⟩

/-! ### What each message answers -/

theorem readEvents_eq (s : State) (m : Nat) (b : Mailbox) :
    let cur := reqWord b 0 + 2 ^ 32 * reqWord b 4
    let start := max cur s.mgmt.dropped
    let hits := eventHits s.mgmt start (reqWord b 8) (reqWord b 12)
    readEvents s m b = replyOk s m (leBytes 8 (nextPlace s.mgmt start (reqWord b 8) hits) ++
      leBytes 8 (s.mgmt.dropped - cur) ++ hits.flatMap (fun e => eventBytes e.1)) := rfl

theorem readReport_some {s : State} {b : Mailbox} {x : FrayReport} (h : s.job.reports[reqWord b 0]? = some x) (m : Nat) :
    readReport s m b = replyOk s m (words [x.step, x.records.length, x.watch, x.excess,
      reqWord b 4 + ((x.records.drop (reqWord b 4)).take (reqWord b 8)).length, 0] ++
      ((x.records.drop (reqWord b 4)).take (reqWord b 8)).flatMap (frayBytes x.step)) := by
  simp only [readReport, h]

theorem readReport_none {s : State} {b : Mailbox} (h : s.job.reports[reqWord b 0]? = none) (m : Nat) :
    readReport s m b = replyOk s m (words [0xFFFFFFFF, 0, 0, 0, reqWord b 4, 0]) := by
  simp only [readReport, h]

theorem readDrains_eq (s : State) (m : Nat) (b : Mailbox) :
    let ds := (s.dev.drains.filter (fun d => decide (reqWord b 0 ≤ d.seq))).take (reqWord b 4)
    readDrains s m b = replyOk s m (words [(ds.getLast?.map (fun d => d.seq + 1)).getD (reqWord b 0), 0] ++
      ds.flatMap drainBytes) := by
  simp only [readDrains]
  split
  · rename_i hlast; rw [hlast]; rfl
  · rename_i hlast; rw [hlast]; rfl

theorem readClears_eq (s : State) (m : Nat) (b : Mailbox) :
    let rs := (s.dev.clears.filter (fun r => decide (reqWord b 0 ≤ r.seq))).take (reqWord b 4)
    readClears s m b = replyOk s m (words [(rs.getLast?.map (fun r => r.seq + 1)).getD (reqWord b 0), 0] ++
      rs.flatMap clearRecord) := by
  simp only [readClears]
  split
  · rename_i hlast; rw [hlast]; rfl
  · rename_i hlast; rw [hlast]; rfl

/-- A COUNTER_READ of a mark that has been injected, for units of a class that it has (R360). -/
theorem readCounters_injected {s : State} {b : Mailbox} (hcls : classUnits (reqWord b 4) ≠ 0)
    (hunits : reqWord b 8 + reqWord b 12 ≤ classUnits (reqWord b 4)) (hmark : reqWord b 0 < s.mgmt.markNext)
    (hzero : reqWord b 0 ≠ 0) (m : Nat) :
    readCounters s m b = (s.mgmt.marks.find? (fun r => r.number == reqWord b 0)).elim (refuse s m .staleMark) (fun r =>
      if markComplete r then replyOk s m (counterBody r (reqWord b 4) (reqWord b 8) (reqWord b 12))
      else waitAt s m (.mark (reqWord b 0)) [reqWord b 4, reqWord b 8, reqWord b 12]) := by
  simp only [readCounters]
  rw [if_neg (by omega)]
  cases s.mgmt.marks.find? (fun r => r.number == reqWord b 0) <;> rfl

/-- COUNTER_READ of such a mark: one no longer held is refused, a complete one answered, another one waited for (R335, R360). -/
theorem counterRead_injected {s : State} {m : Nat} (h : accepted s m reqCounters)
    (hcls : classUnits (reqWord (boxOf s m) 4) ≠ 0)
    (hunits : reqWord (boxOf s m) 8 + reqWord (boxOf s m) 12 ≤ classUnits (reqWord (boxOf s m) 4))
    (hmark : reqWord (boxOf s m) 0 < s.mgmt.markNext) (hzero : reqWord (boxOf s m) 0 ≠ 0) :
    ((∀ r ∈ s.mgmt.marks, r.number ≠ reqWord (boxOf s m) 0) → refusesOnly s (.counterRead m) m .staleMark 0 0) ∧
    (∀ r, s.mgmt.marks.find? (fun r => r.number == reqWord (boxOf s m) 0) = some r →
      (markComplete r = true → repliesOnly s (.counterRead m) m .ok
        (counterBody r (reqWord (boxOf s m) 4) (reqWord (boxOf s m) 8) (reqWord (boxOf s m) 12))) ∧
      (markComplete r = false → ∃ t, exec (.counterRead m) s = .next t ∧ onlyReply s t m ∧
        (boxOf t m).waits = some (.mark (reqWord (boxOf s m) 0)) ∧ (boxOf t m).reply = (boxOf s m).reply)) := by
  have hread := readCounters_injected (s := takeRing s m) hcls hunits hmark hzero m
  have hmarks : (takeRing s m).mgmt.marks = s.mgmt.marks := rfl
  rw [hmarks] at hread
  refine ⟨fun hgone => ?_, fun x hx => ⟨fun hc => ?_, fun hc => ?_⟩⟩
  · have hnone : s.mgmt.marks.find? (fun r => r.number == reqWord (boxOf s m) 0) = none :=
      List.find?_eq_none.mpr fun r hr => by simp [hgone r hr]
    rw [hnone, Option.elim_none] at hread
    exact repliesOnly_of_reply (exec_counterRead m s) h hread
  · rw [hx, Option.elim_some, if_pos hc] at hread
    exact repliesOnly_of_reply (exec_counterRead m s) h hread
  · rw [hx, Option.elim_some, if_neg (by simp [hc])] at hread
    exact ⟨_, (exec_accepted (exec_counterRead m s) h).trans (congrArg _ hread), waitAt_takeRing ..⟩

end Sys2Proof.Machine
end

section
/-! SUPPORT. What a reply to a request leaves as it was after the request's own effect (R335), and tables whose entries are
changed one by one. -/

namespace Sys2Proof.Machine

open Sys2Proof.Config Sys2Proof.Claims

/-! ### Replies -/

variable {s t : State} {m : Nat}

/-- Every unit that a reply does not reach. -/
theorem Replies.units (h : Replies s t) : t.mem = s.mem ∧ t.health = s.health ∧ t.dev = s.dev ∧ t.job = s.job ∧
    t.shut = s.shut ∧ t.panels = s.panels ∧ t.ports = s.ports ∧ t.power = s.power ∧ t.therm = s.therm := by
  rw [Replies] at h
  rw [h]
  exact ⟨rfl, rfl, rfl, rfl, rfl, rfl, rfl, rfl, rfl⟩

theorem Replies.panel (h : Replies s t) (q : Nat) : panelOf t q = panelOf s q := by rw [h]; rfl

theorem Replies.port (h : Replies s t) (q : Nat) : portOf t q = portOf s q := by rw [h]; rfl

theorem Replies.memUnit (h : Replies s t) (u : Nat) : memUnitOf t u = memUnitOf s u := by rw [h]; rfl

/-- A request whose effect does not touch its mailbox is answered as it was rung. -/
theorem answered_reply {u : State} (hbox : boxOf u m = boxOf (takeRing s m) m) (horphan : (boxOf s m).orphan = false)
    (st : Status) (body : List Byte) : answered s (reply u m st body) m st body := by
  rw [answered, (reply_sends u m st body (by simpa [hbox] using horphan)).box, boxOf_setBox, if_pos rfl, hbox,
    repliedBox_takeRing]

/-- An accepted request that acts and then answers OK: the state `u` in which its effect stands, with the reply sent. -/
theorem exec_acts {r : Req} {act : State → Nat → Mailbox → State} {u : State} {body : List Byte}
    (hserve : exec (r.cmd m) s = serve r.op r.len r.rsv r.st act m s) (h : accepted s m r)
    (hact : act (takeRing s m) m (boxOf s m) = replyOk u m body) (hbox : boxOf u m = boxOf (takeRing s m) m) :
    ∃ t, exec (r.cmd m) s = .next t ∧ answered s t m .ok body ∧ Replies u t := by
  have ⟨⟨_, _, horphan, _⟩, _⟩ := h
  exact ⟨_, (exec_accepted hserve h).trans (congrArg _ hact), answered_reply hbox horphan _ _, reply_replies ..⟩

/-! ### Tables -/

/-- A read of a table whose entries are changed under their keys, an unlisted one reading as before. -/
theorem tabGet_map {α : Type} {d : α} {g : Nat × α → Nat × α} {k : Nat} (hkey : ∀ e, (g e).1 = e.1) (hd : (g (k, d)).2 = d) :
    ∀ l : Tab α, tabGet d (l.map g) k = (g (k, tabGet d l k)).2
  | [] => hd.symm
  | (j, v) :: l => by
    rw [List.map_cons, tabGet, tabGet]
    by_cases h : j = k
    · subst h
      rw [if_pos (hkey _), if_pos rfl]
    · rw [if_neg (by rw [hkey]; exact h), if_neg h, tabGet_map hkey hd l]

end Sys2Proof.Machine
end

section
/-! SUPPORT. RECIPE_SET and FLAG_CLEAR (R158, R345) and REMAP (R223, R234): what each unit and port reads after them. -/

namespace Sys2Proof.Machine

open Sys2Proof.Config Sys2Proof.Claims

/-! ### RECIPE_SET -/

/-- The recompute state that will be in force (R345). -/
def recomputeDue (s : State) (p : Package) : Bool :=
  s.job.wantRecompute.getD ((variantOf p s.shut.variant).any (fun v => v.recompute))

theorem setRecipe_none {s : State} {b : Mailbox} {p : Package} (hpkg : s.job.pkg = some p)
    (h : compiled s p (reqWord b 0) (recomputeDue s p) = []) (m : Nat) : setRecipe s m b = refuse s m .noVariant := by
  simp only [recomputeDue] at h
  simp [setRecipe, hpkg, h]

theorem setRecipe_some {s : State} {b : Mailbox} {p : Package} (hpkg : s.job.pkg = some p)
    (h : compiled s p (reqWord b 0) (recomputeDue s p) ≠ []) (m : Nat) : setRecipe s m b =
      replyOk { s with job := { s.job with wantRecipe := some (reqWord b 0), clearTags := s.job.numeric } } m [] := by
  simp only [recomputeDue] at h
  simp [setRecipe, hpkg, h]

/-! ### FLAG_CLEAR -/

theorem panelOf_clearFlags (s : State) (mask tag q : Nat) :
    panelOf (clearFlags s mask tag) q = clearPanel mask (panelOf s q) :=
  tabGet_map (g := fun e => (e.1, clearPanel mask e.2)) (fun _ => rfl) rfl s.panels

/-- CE_RATE of a memory unit under a mask (log entry 9). -/
def clearUnit (mask : Nat) (u : MemUnit) : MemUnit := { u with ceRate := u.ceRate && !(bitOf mask 12) }

theorem memUnitOf_clearFlags (s : State) (mask tag u : Nat) :
    memUnitOf (clearFlags s mask tag) u = clearUnit mask (memUnitOf s u) :=
  tabGet_map (g := fun e => (e.1, clearUnit mask e.2)) (fun _ => rfl) rfl s.health.units

/-- NUMERIC stays for a tag that the request does not name. -/
theorem mem_numeric_clearFlags (s : State) (mask tag x : Nat) : x ∈ (clearFlags s mask tag).job.numeric ↔
    x ∈ s.job.numeric ∧ ¬ (bitOf mask 17 = true ∧ (tag = 0xFFFF ∨ x = tag)) := by
  unfold clearFlags
  dsimp only
  split
  · rename_i h
    simp [h, List.mem_filter]
  · rename_i h
    simp [h]

/-! ### REMAP -/

variable {s : State} {r : Remap}

/-- A package whose rank table has the new switch port. -/
def withSwitch (r : Remap) (p : Package) : Package :=
  { p with plan := { p.plan with ranks := p.plan.ranks.zipIdx.map (fun e => if e.2 = r.rank then (r.sw, e.1.2) else e.1) } }

theorem setSwitch_pkg (s : State) (r : Remap) : (setSwitch s r).job.pkg = s.job.pkg.map (withSwitch r) := rfl

/-- The switch port of the rank that the request names (R234 step 2). -/
theorem withSwitch_rank {p : Package} {e : Nat × Bool} (hrank : p.plan.ranks[r.rank]? = some e) :
    (withSwitch r p).plan.ranks[r.rank]? = some (r.sw, e.2) := by
  simp [withSwitch, hrank]

/-- An entry of the port table as another port takes the rank: one bound to it becomes EXCLUDED (R223, R234). -/
def unbound (q : Nat) (r : Remap) (e : Nat × SeamPort) : Nat × SeamPort :=
  if e.1 ≠ q ∧ e.2.st = .member ∧ e.2.peerRank = some r.rank then (e.1, excludePort e.2) else e

theorem portOf_unbound (s : State) (q : Nat) (r : Remap) (k : Nat) :
    tabGet {} (s.ports.map (unbound q r)) k = (unbound q r (k, portOf s k)).2 := by
  refine tabGet_map (fun e => ?_) (by simp [unbound]) s.ports
  unfold unbound
  split <;> rfl

theorem portOf_bindRank_self (s : State) (q : Nat) (r : Remap) :
    portOf (bindRank s q r) q = { portOf s q with st := .member, peerRank := some r.rank } := by
  have h : portOf { s with ports := s.ports.map (unbound q r) } q = portOf s q :=
    (portOf_unbound s q r q).trans (by simp [unbound])
  exact (portOf_modPort_self ..).trans (by rw [← h]; rfl)

/-- A port that is not bound to the rank stays as it is. -/
theorem portOf_bindRank_ne {s : State} {q k : Nat} {r : Remap} (hk : k ≠ q) (hrank : (portOf s k).peerRank ≠ some r.rank) :
    portOf (bindRank s q r) k = portOf s k := by
  refine (portOf_modPort_ne _ q k _ hk.symm).trans ((portOf_unbound s q r k).trans ?_)
  simp [unbound, hrank]

/-! ### What REMAP does, by where the identity is -/

variable {m : Nat} {b : Mailbox} {p : Package} {e : Nat × Bool}

theorem remapRank_no_rank (hpkg : s.job.pkg = some p) (hst : s.dev.st ≠ .filling)
    (hrank : p.plan.ranks[(remapOf b).rank]? = none) : remapRank s m b = refuse s m .badRange := by
  simp only [remapRank, hpkg, hst, if_false, hrank]

theorem remapRank_binds {q : Nat} (hpkg : s.job.pkg = some p) (hst : s.dev.st ≠ .filling)
    (hrank : p.plan.ranks[(remapOf b).rank]? = some e)
    (hq : allPorts.find? (fun q => carries (portOf s q) (remapOf b) && bindable (portOf s q)) = some q) :
    remapRank s m b = replyOk (setSwitch (bindRank s q (remapOf b)) (remapOf b)) m [] := by
  simp only [remapRank, hpkg, hst, if_false, hrank, hq]

theorem remapRank_bound {q : Nat} (hpkg : s.job.pkg = some p) (hst : s.dev.st ≠ .filling)
    (hrank : p.plan.ranks[(remapOf b).rank]? = some e)
    (hnone : ∀ q ∈ allPorts, carries (portOf s q) (remapOf b) = true → bindable (portOf s q) = false)
    (hq : allPorts.find? (fun q => carries (portOf s q) (remapOf b) && (portOf s q).st == .member) = some q) :
    remapRank s m b = if (portOf s q).peerRank = some (remapOf b).rank then replyOk (setSwitch s (remapOf b)) m []
      else refuse s m .busyFill := by
  have hfind : allPorts.find? (fun q => carries (portOf s q) (remapOf b) && bindable (portOf s q)) = none :=
    List.find?_eq_none.mpr fun q hq => by simpa using hnone q hq
  simp only [remapRank, hpkg, hst, if_false, hrank, hfind, hq]

theorem remapRank_absent (hpkg : s.job.pkg = some p) (hst : s.dev.st ≠ .filling)
    (hrank : p.plan.ranks[(remapOf b).rank]? = some e)
    (hnone : ∀ q ∈ allPorts, carries (portOf s q) (remapOf b) = true →
      bindable (portOf s q) = false ∧ (portOf s q).st ≠ .member) :
    remapRank s m b = if e.2 then replyBad s m .fabricMismatch (rankMask s (remapOf b).rank) 0
      else replyOk (setSwitch s (remapOf b)) m [] := by
  have hfind : allPorts.find? (fun q => carries (portOf s q) (remapOf b) && bindable (portOf s q)) = none :=
    List.find?_eq_none.mpr fun q hq => by simpa using fun h => (hnone q hq h).1
  have hmember : allPorts.find? (fun q => carries (portOf s q) (remapOf b) && (portOf s q).st == .member) = none :=
    List.find?_eq_none.mpr fun q hq => by simpa using fun h => (hnone q hq h).2
  simp only [remapRank, hpkg, hst, if_false, hrank, hfind, hmember]

/-! ### The requests -/

/-- FLAG_CLEAR of a tag, or of every one (R345). -/
theorem exec_flagClear_tag {s : State} {m : Nat} (h : accepted s m reqFlags)
    (htag : reqWord (boxOf s m) 4 < tensorTags ∨ reqWord (boxOf s m) 4 = 0xFFFF) :
    ∃ t, exec (.flagClear m) s = .next t ∧ answered s t m .ok [] ∧
      Replies (clearFlags (takeRing s m) (reqWord (boxOf s m) 0) (reqWord (boxOf s m) 4)) t :=
  exec_acts (exec_flagClear m s) h (if_neg fun ⟨hlow, hne⟩ => htag.elim (Nat.not_lt.mpr hlow) hne) rfl

/-- A REMAP that changes the rank table alone. -/
theorem exec_remap_switch {s : State} {m : Nat} {p : Package} {e : Nat × Bool} (h : accepted s m reqRemap)
    (hpkg : s.job.pkg = some p) (hrank : p.plan.ranks[(remapOf (boxOf s m)).rank]? = some e)
    (hact : remapRank (takeRing s m) m (boxOf s m) =
      replyOk (setSwitch (takeRing s m) (remapOf (boxOf s m))) m []) :
    ∃ t, exec (.remap m) s = .next t ∧ answered s t m .ok [] ∧ quietWork s t ∧ t.ports = s.ports ∧
      ∃ p', t.job.pkg = some p' ∧
        p'.plan.ranks[(remapOf (boxOf s m)).rank]? = some ((remapOf (boxOf s m)).sw, e.2) := by
  obtain ⟨t, hexec, hanswer, hreply⟩ := exec_acts (exec_remap m s) h hact rfl
  obtain ⟨hmem, -, hdev, hjob, -, hpanels, hports, -, -⟩ := hreply.units
  refine ⟨t, hexec, hanswer, ⟨hmem, hpanels, hreply.fence, hdev⟩, hports, withSwitch (remapOf (boxOf s m)) p, ?_,
    withSwitch_rank hrank⟩
  rw [hjob, setSwitch_pkg]
  exact congrArg _ hpkg

/-- A REMAP that finds the identity on a port that it can bind. -/
theorem exec_remap_binds {s : State} {m q : Nat} {p : Package} {e : Nat × Bool} (h : accepted s m reqRemap)
    (hpkg : s.job.pkg = some p) (hst : s.dev.st ≠ .filling)
    (hrank : p.plan.ranks[(remapOf (boxOf s m)).rank]? = some e)
    (hq : allPorts.find? (fun q => carries (portOf s q) (remapOf (boxOf s m)) && bindable (portOf s q)) = some q) :
    ∃ t, exec (.remap m) s = .next t ∧ answered s t m .ok [] ∧ quietWork s t ∧ (portOf t q).st = .member ∧
      (portOf t q).peerRank = some (remapOf (boxOf s m)).rank ∧
      (∃ p', t.job.pkg = some p' ∧
        p'.plan.ranks[(remapOf (boxOf s m)).rank]? = some ((remapOf (boxOf s m)).sw, e.2) ∧ p'.stitches = p.stitches) ∧
      ∀ k, k ≠ q → (portOf s k).peerRank ≠ some (remapOf (boxOf s m)).rank → portOf t k = portOf s k := by
  obtain ⟨t, hexec, hanswer, hreply⟩ := exec_acts (exec_remap m s) h
    (remapRank_binds (s := takeRing s m) hpkg hst hrank hq) rfl
  obtain ⟨hmem, -, hdev, hjob, -, hpanels, -, -, -⟩ := hreply.units
  have hport : ∀ k, portOf t k = portOf (bindRank (takeRing s m) q (remapOf (boxOf s m))) k := hreply.port
  refine ⟨t, hexec, hanswer, ⟨hmem, hpanels, hreply.fence, hdev⟩, ?_, ?_,
    ⟨withSwitch (remapOf (boxOf s m)) p, ?_, withSwitch_rank hrank, rfl⟩, fun k hk hfree => ?_⟩
  · rw [hport, portOf_bindRank_self]
  · rw [hport, portOf_bindRank_self]
  · rw [hjob, setSwitch_pkg]
    exact congrArg _ hpkg
  · exact (hport k).trans (portOf_bindRank_ne (s := takeRing s m) hk hfree)

end Sys2Proof.Machine
end

section
/-! SUPPORT. The baste unit's captures and checks (R149 to R151, R154, R157): where a capture ends, the case slot that an
exceedance takes, and a hub whose slots are all taken. -/

namespace Sys2Proof.Machine

open Sys2Proof.Config Sys2Proof.Claims

variable {s : State} {hub : Nat} {c : Capture}

/-! ### Captures (R149) -/

theorem exec_basteCaptureDone_capturing (h : (hubOf s hub).act = .capturing c) :
    exec (.basteCaptureDone hub) s = .next (setHub s hub { hubOf s hub with act := .checking c }) := by
  simp only [exec_basteCaptureDone, execBasteCaptureDone, h, modHub]

theorem exec_basteCaptureAbandon_capturing (h : (hubOf s hub).act = .capturing c) :
    exec (.basteCaptureAbandon hub) s =
      .next (skipSelection (modHub s hub (fun u => { u with act := .idle })) c.panel false) := by
  simp only [exec_basteCaptureAbandon, execBasteCaptureAbandon, h]

/-- A skip counts in the hub of its panel (R157). -/
theorem hubOf_skipSelection (s : State) (q : Nat) : hubOf (skipSelection s q false) (q / 16) =
    { hubOf s (q / 16) with skips := sat32 ((hubOf s (q / 16)).skips + 1) } :=
  hubOf_modHub_self ..

/-- A skip counts in its panel (R157). -/
theorem basteSkips_skipSelection (s : State) (q : Nat) (inel : Bool) :
    (panelOf (skipSelection s q inel) q).mat.basteSkips = sat32 ((panelOf s q).mat.basteSkips + 1) := by
  rw [skipSelection, panelOf_modHub, panelOf_modPanel_self]

theorem basteCaptureAbandon_skips (h : (hubOf s hub).act = .capturing c) :
    ∃ t, exec (.basteCaptureAbandon hub) s = .next t ∧ t.mem = s.mem ∧ t.fence = s.fence ∧
      (hub = c.panel / 16 → hubOf t hub = { hubOf s hub with act := .idle, skips := sat32 ((hubOf s hub).skips + 1) }) ∧
      (panelOf t c.panel).mat.basteSkips = sat32 ((panelOf s c.panel).mat.basteSkips + 1) := by
  refine ⟨_, exec_basteCaptureAbandon_capturing h, rfl, rfl, fun hhub => ?_, basteSkips_skipSelection ..⟩
  subst hhub
  rw [hubOf_skipSelection, hubOf_modHub_self]

/-! ### Case slots (R154; log entry 81) -/

theorem freeSlot_eq_some {h : Hub} {k : Nat} (hk : k < 4) (hfree : ∀ d ∈ h.cases, d.slot ≠ k)
    (hlow : ∀ i, i < k → ∃ d ∈ h.cases, d.slot = i) : freeSlot h = some k := by
  rw [freeSlot, List.find?_range_eq_some]
  exact ⟨by simpa using hfree, List.mem_range.mpr hk, fun i hi => by simpa using hlow i hi⟩

theorem freeSlot_eq_none {h : Hub} (hfull : ∀ k, k < 4 → ∃ d ∈ h.cases, d.slot = k) : freeSlot h = none := by
  rw [freeSlot, List.find?_eq_none]
  exact fun k hk => by simpa using hfull k (List.mem_range.mp hk)

theorem mem_addCase (cs : List Case) (d : Case) : d ∈ addCase cs d := by
  simp [addCase]

/-! ### Checks (R150, R151) -/

/-- The hub after a check, before what an exceedance does. -/
def checkedHub (h : Hub) : Hub := { h with act := .idle, checks := sat32 (h.checks + 1) }

/-- A hub that can hold no more cases, after an exceedance (R154, R157). -/
def overflowedHub (h : Hub) : Hub :=
  { h with exceedances := sat32 (h.exceedances + 1), casesOverflow := sat32 (h.casesOverflow + 1) }

variable {flt : List (Nat × W32)} {c1 pp : List F32}

theorem exec_basteCheckDone_within (h : (hubOf s hub).act = .checking c)
    (hc1 : faulty ((checkValues c).map Prod.fst) flt = c1) (hpp : (checkValues c).map Prod.snd = pp)
    (hexc : tileExceeds c c1 pp = false) :
    exec (.basteCheckDone hub flt) s = .next (modHub s hub checkedHub) := by
  simp only [exec_basteCheckDone, execBasteCheckDone, h, hc1, hpp, hexc, Bool.false_eq_true, if_false]
  rfl

theorem exec_basteCheckDone_held {k : Nat} (h : (hubOf s hub).act = .checking c)
    (hc1 : faulty ((checkValues c).map Prod.fst) flt = c1) (hpp : (checkValues c).map Prod.snd = pp)
    (hexc : tileExceeds c c1 pp = true) (hslot : freeSlot (hubOf s hub) = some k) :
    exec (.basteCheckDone hub flt) s = .next (modHub (modHub s hub checkedHub) hub (fun u => { u with
      exceedances := sat32 (u.exceedances + 1), cases := addCase u.cases ⟨k, c, c1, pp⟩ })) := by
  simp only [exec_basteCheckDone, execBasteCheckDone, h, hc1, hpp, hexc, if_true, hslot]
  rfl

theorem exec_basteCheckDone_overflow (h : (hubOf s hub).act = .checking c)
    (hc1 : faulty ((checkValues c).map Prod.fst) flt = c1) (hpp : (checkValues c).map Prod.snd = pp)
    (hexc : tileExceeds c c1 pp = true) (hslot : freeSlot (hubOf s hub) = none) :
    exec (.basteCheckDone hub flt) s = .next { modHub (modHub s hub checkedHub) hub overflowedHub with
      fence := { s.fence with overflow := true } } := by
  simp only [exec_basteCheckDone, execBasteCheckDone, h, hc1, hpp, hexc, if_true, hslot]
  rfl

end Sys2Proof.Machine
end

section
/-! SUPPORT. What a poison makes of the step's fence and of its job (R160 to R162, R180). -/

namespace Sys2Proof.Machine

open Sys2Proof.Config Sys2Proof.Claims

/-! ### Holding the job -/

/-- From `s` to `t` only what the capture or the end of a snapshot changes (R301, R318). -/
def Captures (s t : State) : Prop :=
  t = { s with
    free := t.free, snap := t.snap
    host := { s.host with ports := t.host.ports, flows := t.host.flows, sessions := t.host.sessions }
    mgmt := { s.mgmt with boxes := t.mgmt.boxes, log := t.mgmt.log, dropped := t.mgmt.dropped, seqs := t.mgmt.seqs } }

theorem Captures.refl (s : State) : Captures s s := rfl

theorem Captures.trans {a b c : State} (h : Captures a b) (k : Captures b c) : Captures a c := by
  unfold Captures at *; rw [h] at k; exact k

theorem Replies.captures {s t : State} (h : Replies s t) : Captures s t := by
  unfold Replies at h; unfold Captures; rw [h]

theorem pumpSnap_captures (s : State) : Captures s (pumpSnap s) := by
  unfold pumpSnap
  split
  · exact Captures.trans (List.foldlRecOn _ _ (motive := fun t : State × List (Nat × Nat × Nat) => Captures s t.1) (.refl s)
      fun t ht u _ => ht.trans (spread_sends _ _ _ _ _ _ _).replies.captures) rfl
  · exact .refl s

theorem sendReady_captures (s : State) : Captures s (sendReady s) := by
  unfold sendReady
  split
  · split
    · exact Captures.trans (b := modSnap s _) rfl (pumpSnap_captures _)
    · exact .refl s
  · exact .refl s

theorem captureAt_captures (s : State) (mark : Option Nat) : Captures s (captureAt s mark) := by
  unfold captureAt
  split
  · split
    · exact .refl s
    · extract_lets b n0 n1 snap s1
      refine .trans (.trans (b := s1) rfl ?_) (sendReady_captures _)
      split
      · exact (reply_replies s1 _ _ _).captures
      · exact .refl s1
  · exact .refl s

theorem stopSnapshot_captures (s : State) (cause : Nat) : Captures s (stopSnapshot s cause) := by
  unfold stopSnapshot
  split
  · exact .refl s
  · refine .trans ?_ ((raiseEv_sends ..).replies.captures.trans (abortAt_replies _ _ _).captures)
    rfl

/-- Holding the job holds it, whatever becomes of its snapshot. -/
theorem holdJob_held (s : State) : (holdJob s).job.held = true := by
  have h : Captures { s with job := { s.job with held := true } } (holdJob s) := by
    unfold holdJob captureHeld
    split
    · exact stopSnapshot_captures _ 2
    · exact captureAt_captures _ none
  rw [h]

/-! ### The cause whose action is taken (R162) -/

theorem worstCause_le {c : Nat} : ∀ {cs : List Nat}, c ∈ cs → ∃ d, worstCause cs = some d ∧ causeRank d ≤ causeRank c
  | x :: cs, h => by
    rw [worstCause]
    rcases List.mem_cons.mp h with rfl | h
    · split
      · exact ⟨c, rfl, Nat.le_refl _⟩
      · split
        · exact ⟨c, rfl, Nat.le_refl _⟩
        · exact ⟨_, rfl, by omega⟩
    · obtain ⟨d, hd, hrank⟩ := worstCause_le h
      rw [hd]
      dsimp only
      split
      · exact ⟨x, rfl, by omega⟩
      · exact ⟨d, rfl, hrank⟩

/-- The causes before SPOOL_EXHAUSTED and VERDICT_OVERFLOW hold the job (R161, R162). -/
theorem actOn_holds (s : State) (p : Package) {c : Nat} (h : causeRank c ≤ causeRank 4) : actOn s p c = holdJob s := by
  unfold actOn
  split
  · exact absurd h (by decide)
  · exact absurd h (by decide)
  · rfl

@[simp] theorem overrideStop_pkg (s : State) (cause : Nat) : (overrideStop s cause).job.pkg = s.job.pkg := by
  unfold overrideStop; split <;> rfl

/-- A step poisoned with one of these causes holds its job. -/
theorem poisonAction_held {s : State} {c : Nat} (hjob : s.job.pkg.isSome = true) (hrank : causeRank c ≤ causeRank 4)
    (hc : c ∈ s.fence.poisons.map Prod.fst) : (poisonAction s).job.held = true := by
  obtain ⟨p, hp⟩ := Option.isSome_iff_exists.mp hjob
  obtain ⟨d, hd, hle⟩ := worstCause_le hc
  simp only [poisonAction, hp, hd, actOn_holds _ p (Nat.le_trans hle hrank), holdJob_held]

/-! ### The fence of a poisoned step -/

theorem poisonAction_fence (s : State) : ∃ a, (poisonAction s).fence = { s.fence with acted := a } := by
  unfold poisonAction
  split
  · rename_i p c _ _
    exact ⟨some c, by simp⟩
  · exact ⟨_, rfl⟩

theorem abandonWork_fence (s : State) : (abandonWork s).fence =
    { s.fence with abandoned := true, passed := false, phase := .none, votes := [] } := by
  unfold abandonWork; dsimp only; split <;> rfl

theorem abandonWork_pkg (s : State) : (abandonWork s).job.pkg = s.job.pkg := by
  unfold abandonWork; dsimp only; split <;> rfl

theorem takePoison_fence (s : State) (p : Poison) : ∃ a, (takePoison s p).fence =
    { s.fence with
      poisons := s.fence.poisons ++ [(p.cause, p.origin)], abandoned := true, passed := false, phase := .none, votes := []
      acted := a } := by
  obtain ⟨a, ha⟩ := poisonAction_fence
    (abandonWork { s with fence := { s.fence with poisons := s.fence.poisons ++ [(p.cause, p.origin)] } })
  exact ⟨a, by rw [takePoison, ha, abandonWork_fence]⟩

theorem spreadPoison_sent (s : State) (p : Poison) (but : Option Nat) :
    (spreadPoison s p but).fence = s.fence ∧ (spreadPoison s p but).job = s.job := by
  have hhost : ∀ u, Sends u (hostPoison u p) := fun u =>
    foldl_related Sends.refl Sends.trans (fun t e => hostSend_sends t ..) _ u
  unfold spreadPoison
  extract_lets ps
  rw [hhost]
  exact List.foldlRecOn ps (fun t q => seamSend t q (.poison p))
    (motive := fun t : State => t.fence = s.fence ∧ t.job = s.job) ⟨rfl, rfl⟩ fun t ht q _ => ht

/-- A device that poisons its own step abandons it, and has sent (R160, R161). -/
theorem sendPoisonFrom_fence (s : State) (cause origin : Nat) : ∃ a, (sendPoisonFrom s cause origin).fence =
    { s.fence with
      poisons := s.fence.poisons ++ [(cause, origin)], mine := s.fence.mine ++ [(cause, origin)], sent := true
      abandoned := true, passed := false, phase := .none, votes := [], acted := a } := by
  obtain ⟨a, ha⟩ := takePoison_fence
    { raiseEv (spreadPoison s ⟨s.job.step, cause, origin, jobTag s⟩ none) srcColl .poisonSent [s.job.step, cause, origin] with
      fence := { s.fence with sent := true, mine := s.fence.mine ++ [(cause, origin)] } }
    ⟨s.job.step, cause, origin, jobTag s⟩
  refine ⟨a, Eq.trans ?_ ha⟩
  simp only [sendPoisonFrom, raiseEv_fence, (spreadPoison_sent s _ none).1]

theorem sendPoisonFrom_held {s : State} {c : Nat} (hjob : s.job.pkg.isSome = true) (hrank : causeRank c ≤ causeRank 4)
    (origin : Nat) : (sendPoisonFrom s c origin).job.held = true := by
  unfold sendPoisonFrom takePoison
  refine poisonAction_held (c := c) ?_ hrank ?_
  · rw [abandonWork_pkg]
    simpa [(spreadPoison_sent s _ none).2] using hjob
  · simp [abandonWork_fence]

theorem Halts.mem {s t : State} (h : Halts s t) : t.mem = s.mem := by
  rw [h.1]

end Sys2Proof.Machine
end

section
/-! SUPPORT. FENCE_HOLD_END and FENCE_TIMEOUT (R160, R161, R172): the hubs that have waited, and the votes. -/

namespace Sys2Proof.Machine

open Sys2Proof.Config Sys2Proof.Claims

/-! ### Hubs counted one by one -/

theorem any_of_tabGet {α : Type} {d : α} {f : α → Bool} (hd : f d = false) {k : Nat} :
    ∀ {l : Tab α}, f (tabGet d l k) = true → l.any (fun e => f e.2) = true
  | [], h => by rw [tabGet, hd] at h; cases h
  | (j, v) :: l, h => by
    rw [tabGet] at h
    rw [List.any_cons, Bool.or_eq_true]
    split at h
    · exact .inl h
    · exact .inr (any_of_tabGet hd h)

/-- An entry put in place of one that answers a question alike changes no answer of the table. -/
theorem any_tabPut {α : Type} {d : α} {f : α → Bool} (hd : f d = false) {k : Nat} {v : α} :
    ∀ {l : Tab α}, f v = f (tabGet d l k) → (tabPut l k v).any (fun e => f e.2) = l.any (fun e => f e.2)
  | [], h => by rw [tabGet, hd] at h; simp [tabPut, h]
  | (j, w) :: l, h => by
    rw [tabPut]
    split
    · rename_i hj
      rw [tabGet, if_pos hj] at h
      rw [List.any_cons, List.any_cons, h]
    · rename_i hj
      split
      · cases hv : f v with
        | false => simp [hv]
        | true => rw [List.any_cons, hv, Bool.true_or, any_of_tabGet hd (h.symm.trans hv)]
      · rw [tabGet, if_neg hj] at h
        rw [List.any_cons, List.any_cons, any_tabPut hd h]

/-- A change to a hub that leaves its cases leaves the answer whether any is held (R154). -/
theorem heldCases_modHub (s : State) (h : Nat) {f : Hub → Hub} (hf : ∀ u, (f u).cases = u.cases) :
    heldCases (modHub s h f) = heldCases s :=
  any_tabPut (d := ({} : Hub)) (f := fun u => !u.cases.isEmpty) rfl (by simp [hf, hubOf])

/-- The hubs of a list, each changed alike. -/
def modHubs (s : State) (f : Hub → Hub) (l : List Nat) : State := l.foldl (fun t h => modHub t h f) s

theorem modHubs_frame (s : State) (f : Hub → Hub) (l : List Nat) : modHubs s f l = { s with hubs := (modHubs s f l).hubs } :=
  foldl_related (R := fun a b => b = { a with hubs := b.hubs }) (fun _ => rfl)
    (fun h k => by rw [h] at k; exact k) (fun _ _ => rfl) l s

theorem heldCases_modHubs {f : Hub → Hub} (hf : ∀ u, (f u).cases = u.cases) (l : List Nat) (s : State) :
    heldCases (modHubs s f l) = heldCases s :=
  List.foldlRecOn l _ (motive := fun t : State => heldCases t = heldCases s) rfl
    fun t ht h _ => (heldCases_modHub t h hf).trans ht

/-- A hub that the list does not name stays as it is. -/
theorem hubOf_modHubs_ne {f : Hub → Hub} {h : Nat} {l : List Nat} (hl : h ∉ l) (s : State) :
    hubOf (modHubs s f l) h = hubOf s h :=
  List.foldlRecOn l _ (motive := fun t : State => hubOf t h = hubOf s h) rfl
    fun t ht k hk => (hubOf_modHub_ne t k h f fun e => hl (e ▸ hk)).trans ht

theorem hubOf_modHubs {f : Hub → Hub} {h : Nat} {l : List Nat} (hl : l.Nodup) (hmem : h ∈ l) (s : State) :
    hubOf (modHubs s f l) h = f (hubOf s h) := by
  induction l generalizing s with
  | nil => cases hmem
  | cons k l ih =>
    obtain ⟨hk, hl⟩ := List.nodup_cons.mp hl
    have hstep : modHubs s f (k :: l) = modHubs (modHub s k f) f l := rfl
    rw [hstep]
    rcases List.mem_cons.mp hmem with rfl | hin
    · rw [hubOf_modHubs_ne hk, hubOf_modHub_self]
    · rw [ih hl hin, hubOf_modHub_ne s k h f fun e => hk (e ▸ hin)]

/-! ### The end of the hold -/

/-- The wait of a hub at the fence (R157). -/
def waitedHub (phys : Nat) (u : Hub) : Hub := { u with fenceWait := sat32 (u.fenceWait + phys) }

/-- The device after it has waited at the fence for `phys` cycles (R157, R172, R183). -/
def fenceWaited (s : State) (phys : Nat) : State :=
  modShut (modHubs s (waitedHub phys) (List.range sleeves)) (fun v => { v with
    fenceHold := sat32 (v.fenceHold + phys), phys := sat64 (v.phys + phys) })

theorem fenceWaited_frame (s : State) (phys : Nat) :
    fenceWaited s phys = { s with
      hubs := (fenceWaited s phys).hubs
      shut := { s.shut with fenceHold := sat32 (s.shut.fenceHold + phys), phys := sat64 (s.shut.phys + phys) } } := by
  rw [fenceWaited, modHubs_frame]
  rfl

theorem fenceWaited_fence (s : State) (phys : Nat) : (fenceWaited s phys).fence = s.fence := by rw [fenceWaited_frame]

theorem fenceWaited_job (s : State) (phys : Nat) : (fenceWaited s phys).job = s.job := by rw [fenceWaited_frame]

theorem heldCases_fenceWaited (s : State) (phys : Nat) : heldCases (fenceWaited s phys) = heldCases s := by
  rw [fenceWaited, heldCases_of_hubs (modShut_hubs ..), heldCases_modHubs (f := waitedHub phys) fun _ => rfl]

theorem hubOf_fenceWaited (s : State) (phys : Nat) {h : Nat} (hh : h < 16) :
    hubOf (fenceWaited s phys) h = waitedHub phys (hubOf s h) := by
  rw [fenceWaited, hubOf, modShut_hubs]
  exact hubOf_modHubs List.nodup_range (List.mem_range.mpr hh) s

/-- The device after its wait, as it begins to resolve the cases it holds (R160). -/
def resolvingAfter (s : State) (phys : Nat) : State :=
  { fenceWaited s phys with fence := { s.fence with phase := .resolving } }

theorem resolvingAfter_hold (s : State) (phys : Nat) : (resolvingAfter s phys).mem = s.mem ∧
    (resolvingAfter s phys).shut.fenceHold = sat32 (s.shut.fenceHold + phys) := by
  rw [resolvingAfter, fenceWaited_frame]
  exact ⟨rfl, rfl⟩

theorem hubOf_resolvingAfter (s : State) (phys : Nat) {h : Nat} (hh : h < 16) :
    hubOf (resolvingAfter s phys) h = waitedHub phys (hubOf s h) := by
  rw [← hubOf_fenceWaited s phys hh, resolvingAfter, hubOf, hubOf]

/-- The hold ends (R160): no push is owed, and every hub is idle. -/
def holdEnds (s : State) : Prop :=
  s.fence.phase = .holding ∧ owesPush s = false ∧ ∀ k, k < 16 → (hubOf s k).act = .idle

theorem exec_fenceHoldEnd_ends {s : State} {p : Package} (h : jobRuns s p) (hends : holdEnds s) (phys : Nat) :
    exec (.fenceHoldEnd phys) s = if heldCases (fenceWaited s phys) = true
      then .next { fenceWaited s phys with fence := { (fenceWaited s phys).fence with phase := .resolving } }
      else .next (castVote (fenceWaited s phys) p) := by
  obtain ⟨hphase, howes, hidle⟩ := hends
  have hall : (List.range sleeves).all (fun k => (hubOf s k).act == .idle) = true :=
    List.all_eq_true.mpr fun k hk => by simp [hidle k (List.mem_range.mp hk)]
  rw [exec_fenceHoldEnd, execFenceHoldEnd, whenRunning_jobRuns h]
  exact if_pos ⟨hphase, howes, hall⟩

/-- A device that holds cases resolves them (R160). -/
theorem exec_fenceHoldEnd_resolves {s : State} {p : Package} (h : jobRuns s p) (hends : holdEnds s)
    (hheld : heldCases s = true) (phys : Nat) : exec (.fenceHoldEnd phys) s = .next (resolvingAfter s phys) := by
  rw [exec_fenceHoldEnd_ends h hends, if_pos (by rw [heldCases_fenceWaited, hheld]), fenceWaited_fence, resolvingAfter]

/-- A device that holds none votes (R160). -/
theorem exec_fenceHoldEnd_votes {s : State} {p : Package} (h : jobRuns s p) (hends : holdEnds s)
    (hheld : heldCases s = false) (phys : Nat) :
    exec (.fenceHoldEnd phys) s = .next (castVote (fenceWaited s phys) p) := by
  rw [exec_fenceHoldEnd_ends h hends, if_neg (by rw [heldCases_fenceWaited, hheld]; simp)]

/-! ### The vote -/

/-- Sending the vote changes ports alone (R160, R233). -/
theorem voteSent_frame (s : State) (ps : List Nat) (b : FlitBody) :
    ps.foldl (fun t q => seamSend t q b) s = { s with ports := (ps.foldl (fun t q => seamSend t q b) s).ports } :=
  foldl_related (R := fun a b => b = { a with ports := b.ports }) (fun _ => rfl)
    (fun h k => by rw [h] at k; exact k) (fun _ _ => rfl) ps s

/-- The vote is OK: it is out, and the votes heard are judged. -/
theorem castVote_ok {s : State} (hh : s.fence.hardware = false) (ho : s.fence.overflow = false) (p : Package) :
    ∃ ps, castVote s p = judgeVotes { s with ports := ps, fence := { s.fence with phase := .voted } } p := by
  have hv : ownVote s.fence = 0 := by simp [ownVote, hh, ho]
  simp only [castVote, hv, if_true]
  rw [voteSent_frame]
  exact ⟨_, rfl⟩

/-- The vote is poison of this device (R160, R161). -/
theorem castVote_poison {s : State} (h : s.fence.hardware = true ∨ s.fence.overflow = true) (p : Package) :
    ∃ ps v, castVote s p = sendPoison { s with ports := ps } v := by
  have hv : ownVote s.fence ≠ 0 := by
    unfold ownVote
    split
    · decide
    · rename_i hh
      simp [h.resolve_left hh]
  simp only [castVote, hv, if_false]
  rw [voteSent_frame]
  exact ⟨_, _, rfl⟩

/-- The votes heard for a step. -/
theorem mem_votesFor {f : Fence} {step : Nat} {x : Nat × Nat} : x ∈ votesFor f step ↔ (step, x) ∈ f.votes := by
  simp only [votesFor, List.mem_filterMap]
  constructor
  · rintro ⟨v, hv, hx⟩
    split at hx
    · rename_i hstep
      cases hx
      exact hstep ▸ hv
    · cases hx
  · exact fun h => ⟨_, h, if_pos rfl⟩

/-- With no poison among the votes heard, the fence passes as soon as every other rank's vote is there (R160). -/
theorem judgeVotes_ok {s : State} {p : Package} (hok : ∀ v ∈ s.fence.votes, v.1 = s.job.step → v.2.2 = 0) :
    (judgeVotes s p).fence.passed = true ↔ s.fence.passed = true ∨
      ∀ r, r < p.plan.nranks → r ≠ p.plan.rank → ∃ v ∈ s.fence.votes, v.1 = s.job.step ∧ v.2.1 = r := by
  have hnone : (votesFor s.fence s.job.step).any (fun v => v.2 != 0) = false :=
    List.any_eq_false.mpr fun x hx => by simpa using hok _ (mem_votesFor.mp hx) rfl
  have hall : (List.range p.plan.nranks).all (fun r => r == p.plan.rank ||
        (votesFor s.fence s.job.step).any (fun v => v.1 == r)) = true ↔
      ∀ r, r < p.plan.nranks → r ≠ p.plan.rank → ∃ v ∈ s.fence.votes, v.1 = s.job.step ∧ v.2.1 = r := by
    rw [List.all_eq_true]
    refine forall_congr' fun r => ?_
    rw [List.mem_range, Bool.or_eq_true, beq_iff_eq, List.any_eq_true, Decidable.or_iff_not_imp_left]
    refine imp_congr_right fun _ => imp_congr_right fun _ => ⟨?_, ?_⟩
    · rintro ⟨x, hx, hr⟩
      exact ⟨_, mem_votesFor.mp hx, rfl, beq_iff_eq.mp hr⟩
    · rintro ⟨⟨step, x⟩, hv, hstep, hr⟩
      subst hstep
      exact ⟨x, mem_votesFor.mpr hv, beq_iff_eq.mpr hr⟩
  simp only [judgeVotes, hnone, Bool.false_eq_true, if_false]
  split
  · rename_i h
    exact iff_of_true rfl (.inr (hall.mp h))
  · rename_i h
    rw [← hall]
    simp [h]

theorem castVote_ok_passed {s : State} (hh : s.fence.hardware = false) (ho : s.fence.overflow = false) {p : Package}
    (hok : ∀ v ∈ s.fence.votes, v.1 = s.job.step → v.2.2 = 0) :
    (castVote s p).fence.passed = true ↔ s.fence.passed = true ∨
      ∀ r, r < p.plan.nranks → r ≠ p.plan.rank → ∃ v ∈ s.fence.votes, v.1 = s.job.step ∧ v.2.1 = r := by
  obtain ⟨ps, h⟩ := castVote_ok hh ho p
  rw [h]
  exact judgeVotes_ok (s := { s with ports := ps, fence := { s.fence with phase := .voted } }) hok

theorem sendPoison_fence {s : State} (hjob : jobLoaded s = true) (cause : Nat) : (sendPoison s cause).fence.abandoned = true ∧
    (sendPoison s cause).fence.passed = false ∧ (sendPoison s cause).fence.sent = true := by
  obtain ⟨a, ha⟩ := sendPoisonFrom_fence s cause (ownRank s)
  rw [sendPoison, if_pos hjob, ha]
  exact ⟨rfl, rfl, rfl⟩

theorem judgeVotes_halts (s : State) (p : Package) : Halts s (judgeVotes s p) := by
  unfold judgeVotes
  extract_lets vs
  split
  · refine .trans (.trans ?_ (abandonWork_halts _)) (poisonAction_halts _)
    exact ⟨rfl, id⟩
  · split
    · exact ⟨rfl, id⟩
    · exact .refl s

theorem castVote_halts (s : State) (p : Package) : Halts s (castVote s p) := by
  unfold castVote
  extract_lets v b s1
  have h1 : Halts s s1 := by
    rw [show s1 = _ from voteSent_frame s (votePorts s p) b]
    exact ⟨rfl, id⟩
  clear_value s1
  split
  · refine h1.trans (.trans ?_ (judgeVotes_halts _ p))
    exact ⟨rfl, id⟩
  · exact h1.trans (sendPoison_halts s1 v)

/-! ### What a device that holds no case votes -/

theorem castVote_waited_mem (s : State) (phys : Nat) (p : Package) : (castVote (fenceWaited s phys) p).mem = s.mem := by
  rw [(castVote_halts _ p).mem, fenceWaited_frame]

theorem castVote_waited_passed {s : State} (hh : s.fence.hardware = false) (ho : s.fence.overflow = false) (p : Package)
    (hok : ∀ v ∈ s.fence.votes, v.1 = s.job.step → v.2.2 = 0) (phys : Nat) :
    (castVote (fenceWaited s phys) p).fence.passed = true ↔ s.fence.passed = true ∨
      ∀ r, r < p.plan.nranks → r ≠ p.plan.rank → ∃ v ∈ s.fence.votes, v.1 = s.job.step ∧ v.2.1 = r := by
  have h := castVote_ok_passed (s := fenceWaited s phys) (p := p)
  rw [fenceWaited_fence, fenceWaited_job] at h
  exact h hh ho hok

theorem castVote_waited_poison {s : State} {p : Package} (hjob : jobRuns s p)
    (h : s.fence.hardware = true ∨ s.fence.overflow = true) (phys : Nat) :
    (castVote (fenceWaited s phys) p).fence.abandoned = true ∧ (castVote (fenceWaited s phys) p).fence.passed = false ∧
      (castVote (fenceWaited s phys) p).fence.sent = true := by
  obtain ⟨ps, v, hcast⟩ := castVote_poison (s := fenceWaited s phys) (by rw [fenceWaited_fence]; exact h) p
  have ⟨hpkg, _⟩ := hjob
  rw [hcast]
  exact sendPoison_fence (by simp [jobLoaded, fenceWaited_job, hpkg]) v

/-! ### A vote that is missing -/

/-- FENCE_TIMEOUT (R160, R161). -/
theorem fenceTimeout_voted {s : State} {p : Package} {rank : Nat} (h : jobRuns s p) (hphase : s.fence.phase = .voted)
    (hrank : rank < p.plan.nranks) (hother : rank ≠ p.plan.rank)
    (hmissing : ∀ v ∈ s.fence.votes, v.1 = s.job.step → v.2.1 ≠ rank) :
    ∃ t, exec (.fenceTimeout rank) s = .next t ∧ t.mem = s.mem ∧ t.fence.abandoned = true ∧
      (4, rank) ∈ t.fence.poisons ∧ t.job.held = true := by
  have hnone : (votesFor s.fence s.job.step).any (fun v => v.1 == rank) = false :=
    List.any_eq_false.mpr fun x hx => by simpa using hmissing _ (mem_votesFor.mp hx) rfl
  have ⟨hpkg, _⟩ := h
  obtain ⟨a, ha⟩ := sendPoisonFrom_fence s 4 rank
  refine ⟨sendPoisonFrom s 4 rank, ?_, (sendPoisonFrom_halts s 4 rank).mem, by rw [ha], by rw [ha]; simp,
    sendPoisonFrom_held (by rw [hpkg]; rfl) (Nat.le_refl _) rank⟩
  rw [exec_fenceTimeout, execFenceTimeout, whenRunning_jobRuns h, if_pos ⟨hphase, hrank, hother, hnone⟩]

end Sys2Proof.Machine
end

section
/-! SUPPORT. CASE_RESOLVE (R154 to R156, R163): the verdict that it files, which nothing that follows the verdict takes back. -/

namespace Sys2Proof.Machine

open Sys2Proof.Config Sys2Proof.Claims

/-! ### The verdict log (R156) -/

theorem pushVerdict_count (g : Mgmt) (v : Verdict) : (pushVerdict g v).verdictBase + (pushVerdict g v).verdicts.length =
    g.verdictBase + g.verdicts.length + 1 := by
  unfold pushVerdict
  split
  · rw [List.length_append, List.length_singleton, Nat.add_assoc]
  · simp only [List.length_drop, List.length_append, List.length_singleton]
    omega

theorem pushVerdict_getLast? (g : Mgmt) (v : Verdict) : (pushVerdict g v).verdicts.getLast? = some v := by
  unfold pushVerdict
  split
  · exact List.getLast?_concat
  · rw [List.getLast?_drop, if_neg (by simp only [List.length_append, List.length_singleton]; omega)]
    exact List.getLast?_concat

/-- A drain, a poison and the recording of a suspect leave the verdict log. -/
theorem Drains.verdicts {s t : State} (h : Drains s t) :
    t.mgmt.verdicts = s.mgmt.verdicts ∧ t.mgmt.verdictBase = s.mgmt.verdictBase := by
  rw [h.1]
  exact ⟨rfl, rfl⟩

/-! ### After the verdict (R155, R158, R163) -/

theorem wantFor_halts (s : State) (tag : Nat) : Halts s (wantFor s tag) := by
  unfold wantFor
  split
  · split
    · exact .refl s
    · split
      · exact ⟨rfl, id⟩
      · exact .refl s
  · exact .refl s

theorem setNumeric_halts (s : State) (tag : Nat) : Halts s (setNumeric s tag) := by
  unfold setNumeric
  extract_lets fresh
  refine .trans ?_ (wantFor_halts _ tag)
  exact ⟨rfl, id⟩

theorem actOnVerdict_drains (s : State) (v : Verdict) (idx : Nat) : Drains s (actOnVerdict s v idx) := by
  unfold actOnVerdict
  split
  · exact (setNumeric_halts s v.tag).drains
  · exact .trans (b := { s with fence := { s.fence with hardware := true } }) ⟨rfl, id, fun _ => id⟩
      (recordSuspect_drains ..)

theorem tryEndJob_drains (s : State) : Drains s (tryEndJob s) := by
  unfold tryEndJob
  split
  · exact endJobNow_drains ..
  · exact .refl s

theorem afterCases_drains (s : State) : Drains s (afterCases s) := by
  unfold afterCases
  split
  · exact .refl s
  · extract_lets s1
    have h1 : Drains s s1 := by
      simp only [s1]
      split
      · exact .refl s
      · split
        · exact (castVote_halts s _).drains
        · split
          · exact (sendPoison_halts s 1).drains
          · exact .refl s
    exact h1.trans ((drainIfDue_drains s1).trans (tryEndJob_drains _))

/-! ### The verdict -/

/-- TOL at most draws a free value (R156; log entry 2). -/
theorem tolWord_frame (s : State) (p : Pair) (tol : Nat) (c1 P : F32) : ∃ n, (tolWord s p tol c1 P).2 = { s with free := n } := by
  unfold tolWord
  split
  · exact ⟨_, rfl⟩
  · split <;> exact ⟨s.free, rfl⟩

/-- The third panel reruns the case where the witness disagrees (R155). -/
theorem verdictOf_third (step : Nat) (c : Case) (tol : F32) (cw c2 c3 : List F32) :
    (verdictOf step c tol cw c2 c3).third =
      if cw = c.cap.tile.data then c.cap.panel else 16 * ((c.cap.panel / 16 + 4) % 16) + c.cap.panel % 16 := by
  by_cases h : cw = c.cap.tile.data <;> simp [verdictOf, h, thirdOf, sleeves]

/-- The outcome by what agrees: the witness with the panel, the check unit with itself, the third panel with either (R155,
R156). -/
theorem verdictOf_outcome (step : Nat) (c : Case) (tol : F32) (cw c2 c3 : List F32) :
    (verdictOf step c tol cw c2 c3).outcome = (if cw = c.cap.tile.data then (if c2 = c.c1 then 0 else 4)
      else if c2 = c.c1 then (if c3 = cw then 1 else if c3 = c.cap.tile.data then 2 else 3) else 5) := by
  by_cases h : c2 = c.c1 <;> simp [verdictOf, outcomeOf, h]

/-- TOL of the element that a case reports (R156). -/
def caseTol (s : State) (c : Case) : F32 × State :=
  let i := reported ((c.cap.tile.data.zip (c.c1.zip c.pp)).map (fun e => elemRank c.cap.pair c.cap.tol e.1 e.2.1 e.2.2))
  tolWord s c.cap.pair c.cap.tol (c.c1.getD i 0#32) (c.pp.getD i 0#32)

/-- The case has left its slot, and its verdict is filed with its event (R154, R156). -/
def caseFiled (s : State) (hub : Nat) (v : Verdict) : State :=
  raiseEv { modHub s hub (fun u => { u with cases := u.cases.drop 1 }) with mgmt := pushVerdict s.mgmt v } (srcHub hub) .verdict []

/-- The verdict of a case by its reruns (R155). -/
def caseVerdict (s : State) (c : Case) (fltW fltC flt3 : List (Nat × W32)) : Verdict :=
  verdictOf s.job.step c (caseTol s c).1 (narrowRun c.cap fltW) (faulty ((checkValues c.cap).map Prod.fst) fltC)
    (narrowRun c.cap flt3)

theorem exec_caseResolve_first {s : State} {hub : Nat} {c : Case} (h : firstCase s = some (hub, c))
    (hphase : s.fence.phase = .resolving ∨ s.shut.inStep = false) (fltW fltC flt3 : List (Nat × W32)) :
    exec (.caseResolve hub c.slot fltW fltC flt3) s = .next (afterCases (actOnVerdict
      (caseFiled (caseTol s c).2 hub (caseVerdict s c fltW fltC flt3)) (caseVerdict s c fltW fltC flt3)
      (s.mgmt.verdictBase + s.mgmt.verdicts.length))) := by
  rw [exec_caseResolve, execCaseResolve, h]
  exact if_pos ⟨rfl, rfl, hphase⟩

/-- CASE_RESOLVE files the verdict of the first held case, and what follows takes none back (R154 to R156). -/
theorem caseResolve_files {s : State} {hub : Nat} {c : Case} (h : firstCase s = some (hub, c))
    (hphase : s.fence.phase = .resolving ∨ s.shut.inStep = false) (fltW fltC flt3 : List (Nat × W32)) :
    ∃ t, exec (.caseResolve hub c.slot fltW fltC flt3) s = .next t ∧
      t.mgmt.verdictBase + t.mgmt.verdicts.length = s.mgmt.verdictBase + s.mgmt.verdicts.length + 1 ∧
      t.mgmt.verdicts.getLast? = some (caseVerdict s c fltW fltC flt3) := by
  refine ⟨_, exec_caseResolve_first h hphase fltW fltC flt3, ?_⟩
  generalize caseVerdict s c fltW fltC flt3 = v
  obtain ⟨n, hn⟩ : ∃ n, (caseTol s c).2 = { s with free := n } := tolWord_frame ..
  rw [hn]
  have hfiled : Drains { modHub { s with free := n } hub (fun u => { u with cases := u.cases.drop 1 }) with
      mgmt := pushVerdict s.mgmt v } (caseFiled { s with free := n } hub v) := (raiseEv_sends ..).drains
  obtain ⟨hlog, hbase⟩ := (hfiled.trans ((actOnVerdict_drains _ v _).trans (afterCases_drains _))).verdicts
  rw [hlog, hbase]
  exact ⟨pushVerdict_count .., pushVerdict_getLast? ..⟩

end Sys2Proof.Machine
end

section
/-! CERTIFICATES. The statements on the numeric watch: O19, O20, O32 and O36. -/

namespace Sys2Proof.Machine

open Sys2Proof.Config Sys2Proof.Claims

/-- Settles O19. The lowest slot that no case of the hub holds is the one `freeSlot` finds (log entry 81), and it finds none
where the four are taken. -/
theorem basteCheckResult : Obligations.BasteCheckResult := by
  intro s hub c flt
  refine ⟨fun h => ⟨exec_basteCaptureDone_capturing h, basteCaptureAbandon_skips h⟩, fun h => ⟨fun hexc => ?_,
    fun hexc k hk hfree hlow => ?_, fun hexc hfull => ?_⟩⟩
  · exact exec_basteCheckDone_within h rfl rfl hexc
  · refine ⟨_, exec_basteCheckDone_held h rfl rfl hexc (freeSlot_eq_some hk hfree hlow), rfl, rfl, ?_⟩
    simp only [hubOf_modHub_self]
    exact ⟨mem_addCase _ _, rfl, rfl, rfl⟩
  · refine ⟨_, exec_basteCheckDone_overflow h rfl rfl hexc (freeSlot_eq_none hfull), rfl, rfl, ?_⟩
    change hubOf (modHub (modHub s hub checkedHub) hub overflowedHub) hub = _
    rw [hubOf_modHub_self, hubOf_modHub_self]
    rfl

/-- Settles O20. What follows a vote that is not OK is the poison of this device's own step (`sendPoisonFrom_fence`), and
what follows a verdict, be it poison, a drain or the end of the job, leaves the verdict log (`Drains.verdicts`). -/
theorem checkFenceResult : Obligations.CheckFenceResult := by
  refine ⟨fun s p phys rank h => ⟨fun hphase howes hidle => ?_,
    fun hphase hrank hother hmissing => fenceTimeout_voted h hphase hrank hother hmissing⟩,
    fun s hub c fltW fltC flt3 h hphase => ?_⟩
  · have hends : holdEnds s := ⟨hphase, howes, hidle⟩
    cases hheld : heldCases s with
    | true =>
      obtain ⟨hmem, hhold⟩ := resolvingAfter_hold s phys
      refine ⟨_, exec_fenceHoldEnd_resolves h hends hheld phys, hmem, fun _ => ⟨rfl, hhold, fun k hk => ?_⟩, by simp,
        by simp⟩
      rw [hubOf_resolvingAfter s phys hk]
      rfl
    | false =>
      exact ⟨_, exec_fenceHoldEnd_votes h hends hheld phys, castVote_waited_mem s phys p, by simp,
        fun _ hh ho hok => castVote_waited_passed hh ho p hok phys, fun _ hpoison => castVote_waited_poison h hpoison phys⟩
  · obtain ⟨t, hexec, hcount, hlast⟩ := caseResolve_files h hphase fltW fltC flt3
    exact ⟨t, hexec, hcount, _, hlast, rfl, rfl, rfl, rfl, verdictOf_third .., verdictOf_outcome ..⟩

/-- Settles O32. Every one of these messages ends in a reply that its own state gives (`repliesOnly_of_reply`), but for a
COUNTER_READ that waits for its mark; the cursor of an EVENT_READ lies beyond every record answered, for the log lists its
places in rising order (`nextPlace_bounds`). -/
theorem recordRequestsResult : Obligations.RecordRequestsResult := by
  intro s m
  refine ⟨fun h => ?_, fun h => ⟨fun x hx => ?_, fun hx => ?_⟩, fun h => ?_, fun h => ?_, fun h => ?_,
    fun h => ⟨fun hq => ?_, fun hq => ?_⟩, fun h => ⟨fun hv => ?_, fun v hv => ?_⟩,
    fun h => ⟨fun hbad => ?_, counterRead_injected h⟩⟩
  · obtain ⟨hstart, hhits⟩ := nextPlace_bounds (g := s.mgmt) (n := reqWord (boxOf s m) 8) (src := reqWord (boxOf s m) 12)
      (Nat.le_max_right (reqWord (boxOf s m) 0 + 2 ^ 32 * reqWord (boxOf s m) 4) s.mgmt.dropped)
    exact ⟨_, hstart, hhits, repliesOnly_of_reply (exec_eventRead m s) h (readEvents_eq _ m _)⟩
  · exact repliesOnly_of_reply (exec_frayReportRead m s) h (readReport_some (s := takeRing s m) hx m)
  · exact repliesOnly_of_reply (exec_frayReportRead m s) h (readReport_none (s := takeRing s m) hx m)
  · exact repliesOnly_of_reply (exec_verdictRead m s) h rfl
  · exact repliesOnly_of_reply (exec_drainRecordRead m s) h (readDrains_eq _ m _)
  · exact repliesOnly_of_reply (exec_clearRecordRead m s) h (readClears_eq _ m _)
  · exact repliesOnly_of_reply (exec_traceRead m s) h (if_pos hq)
  · exact repliesOnly_of_reply (exec_traceRead m s) h (if_neg (Nat.not_le.mpr hq))
  · have hown : ownFlow (takeRing s m) (boxOf s m) (reqWord (boxOf s m) 0) = none := hv
    exact repliesOnly_of_reply (exec_flowStatus m s) h (by simp only [hown]; rfl)
  · have hown : ownFlow (takeRing s m) (boxOf s m) (reqWord (boxOf s m) 0) = some v := hv
    exact repliesOnly_of_reply (exec_flowStatus m s) h (by simp only [hown]; rfl)
  · exact repliesOnly_of_reply (exec_counterRead m s) h (if_pos hbad)

/-- Settles O36. Each request acts in the state in which it has left those that wait to start, and the reply that follows
reaches none of the units it acted on (`Replies.units`); where a REMAP finds the identity decides which of its four ends it
takes. That RECIPE_SET notes the NUMERIC flags standing now as the ones to clear is log entry 35. -/
theorem recipeFlagsRemapResult : Obligations.RecipeFlagsRemapResult := by
  refine ⟨fun s m p hpkg => ⟨fun h => ⟨fun hnone => ?_, fun hsome => ?_⟩, fun h htag => ?_⟩,
    fun s m p e hpkg hst h => ⟨fun hrank => ?_, fun hrank => ⟨fun q hq => exec_remap_binds h hpkg hst hrank hq,
      fun hnone q hq => ⟨fun hother => ?_, fun hown => ?_⟩, fun hnone => ⟨fun hlocal => ?_, fun hfar => ?_⟩⟩⟩⟩
  · exact repliesOnly_of_reply (exec_recipeSet m s) h (setRecipe_none (s := takeRing s m) hpkg hnone m)
  · obtain ⟨t, hexec, hanswer, hreply⟩ := exec_acts (exec_recipeSet m s) h (setRecipe_some (s := takeRing s m) hpkg hsome m) rfl
    obtain ⟨hmem, -, hdev, hjob, hshut, hpanels, -, -, -⟩ := hreply.units
    exact ⟨t, hexec, hanswer, ⟨hmem, hpanels, hreply.fence, hdev⟩, hjob, hshut⟩
  · obtain ⟨t, hexec, hanswer, hreply⟩ := exec_flagClear_tag h htag
    obtain ⟨hmem, -, hdev, hjob, hshut, -, -, hpower, htherm⟩ := hreply.units
    have hpanel : ∀ q, panelOf t q = clearPanel (reqWord (boxOf s m) 0) (panelOf s q) := fun q =>
      (hreply.panel q).trans (panelOf_clearFlags ..)
    refine ⟨t, hexec, hanswer, hmem, hdev, hshut, fun q => ?_, fun u => ?_, htherm, hpower, fun x => ?_⟩
    · simp only [spoolOf, hpanel]
      exact ⟨rfl, rfl, rfl, rfl, rfl⟩
    · exact (hreply.memUnit u).trans (memUnitOf_clearFlags ..)
    · rw [hjob]
      exact mem_numeric_clearFlags (takeRing s m) _ _ x
  · exact repliesOnly_of_reply (exec_remap m s) h (remapRank_no_rank (s := takeRing s m) hpkg hst hrank)
  · exact repliesOnly_of_reply (exec_remap m s) h
      ((remapRank_bound (s := takeRing s m) hpkg hst hrank hnone hq).trans (if_neg hother))
  · obtain ⟨t, hexec, hanswer, hquiet, hports, hswitch⟩ := exec_remap_switch h hpkg hrank
      ((remapRank_bound (s := takeRing s m) hpkg hst hrank hnone hq).trans (if_pos hown))
    exact ⟨t, hexec, hanswer, hquiet, hports, hswitch⟩
  · exact repliesOnly_of_reply (exec_remap m s) h
      ((remapRank_absent (s := takeRing s m) hpkg hst hrank hnone).trans (if_pos hlocal))
  · have hswitch := exec_remap_switch h hpkg hrank
      ((remapRank_absent (s := takeRing s m) hpkg hst hrank hnone).trans (if_neg (by simp [hfar])))
    rwa [hfar] at hswitch

end Sys2Proof.Machine
end

section
/-! SUPPORT. Every command keeps the queue of waiting commands and the canonical form of memory (R186): each one is a call of
its meaning, for which Laws/Keep*.lean says so. -/

namespace Sys2Proof.Machine

theorem exec_keeps_queue_and_mem {s0 s : State} (h : Keeps s0 s) : ∀ c : Instr, KeepsOut s0 (exec c s)
  | .prod _ => execProd_keeps h
  | .fold _ => execFold_keeps h
  | .chain _ => execChain_keeps h
  | .rclr _ => execRclr_keeps h
  | .rfinMean _ => execRfinMean_keeps h
  | .rfinRms _ => execRfinRms_keeps h
  | .rfinLse _ => execRfinLse_keeps h
  | .rfinRmsb _ => execRfinRmsb_keeps h
  | .rfinSample _ => execRfinSample_keeps h
  | .rfinPick _ => execRfinPick_keeps h
  | .rsave _ => execRsave_keeps h
  | .rload _ => execRload_keeps h
  | .rchainSend _ => execRchainSend_keeps h
  | .rchainRecv _ => execRchainRecv_keeps h
  | .copy _ => execCopy_keeps h
  | .spush _ => execSpush_keeps h
  | .spop _ => execSpop_keeps h
  | .apply _ => execApply_keeps h
  | .coll _ => execColl_keeps h
  | .ingest _ => execIngest_keeps h
  | .ingestCopy _ => execIngestCopy_keeps h
  | .emit _ => execEmit_keeps h
  | .note _ => execNote_keeps h
  | .moverCompletion _ _ => execMoverCompletion_keeps h
  | .syncRelease _ _ => execSyncRelease_keeps h
  | .syncLate _ _ => execSyncLate_keeps h
  | .jump _ _ => execJump_keeps h
  | .loop _ _ _ => execLoop_keeps h
  | .setc _ _ _ => execSetc_keeps h
  | .halt _ => execHalt_keeps h
  | .microSetZero => execMicroSetZero_keeps h
  | .microAdd => execMicroAdd_keeps h
  | .microSetNone => execMicroSetNone_keeps h
  | .pmark => execPmark_keeps h
  | .grade _ => execGrade_keeps h
  | .gradeRecipe _ => execGradeRecipe_keeps h
  | .stepOpen _ _ => execStepOpen_keeps h
  | .fence _ => execFence_keeps h
  | .stepClose _ => execStepClose_keeps h
  | .idleStitch => execIdleStitch_keeps h
  | .markLatch _ _ _ => execMarkLatch_keeps h
  | .bankEmit _ => execBankEmit_keeps h
  | .tilePush _ _ _ => execTilePush_keeps h
  | .chainHopArrival _ => execChainHopArrival_keeps h
  | .headEntryArrival _ _ => execHeadEntryArrival_keeps h
  | .chainComplete _ => execChainComplete_keeps h
  | .nop _ a => execNop_keeps (_a := a) h
  | .fadd _ _ => execFadd_keeps h
  | .fsub _ _ => execFsub_keeps h
  | .fmul _ _ => execFmul_keeps h
  | .ffma _ _ => execFfma_keeps h
  | .fmin _ _ => execFmin_keeps h
  | .fmax _ _ => execFmax_keeps h
  | .fabs _ _ => execFabs_keeps h
  | .fneg _ _ => execFneg_keeps h
  | .fcmp _ _ => execFcmp_keeps h
  | .sel _ _ => execSel_keeps h
  | .iadd _ _ => execIadd_keeps h
  | .iand _ _ => execIand_keeps h
  | .ior _ _ => execIor_keeps h
  | .ixor _ _ => execIxor_keeps h
  | .ishl _ _ => execIshl_keeps h
  | .ishr _ _ => execIshr_keeps h
  | .f2i _ _ => execF2i_keeps h
  | .i2f _ _ => execI2f_keeps h
  | .lane _ _ => execLane_keeps h
  | .idx _ _ => execIdx_keeps h
  | .hdr _ _ => execHdr_keeps h
  | .chalk _ _ => execChalk_keeps h
  | .perm _ _ => execPerm_keeps h
  | .bcast _ _ => execBcast_keeps h
  | .ldt _ _ => execLdt_keeps h
  | .ldb _ _ => execLdb_keeps h
  | .stb _ _ => execStb_keeps h
  | .qnt _ _ => execQnt_keeps h
  | .acc _ _ => execAcc_keeps h
  | .cvt16 _ _ => execCvt16_keeps h
  | .rand _ _ => execRand_keeps h
  | .drop _ _ => execDrop_keeps h
  | .rpush _ _ => execRpush_keeps h
  | .rget _ _ => execRget_keeps h
  | .spill _ _ => execSpill_keeps h
  | .spoolReturnDone _ _ => execSpoolReturnDone_keeps h
  | .basteCaptureDone _ => execBasteCaptureDone_keeps h
  | .basteCaptureAbandon _ => execBasteCaptureAbandon_keeps h
  | .basteCheckDone _ _ => execBasteCheckDone_keeps h
  | .fenceHoldEnd _ => execFenceHoldEnd_keeps h
  | .caseResolve _ _ _ _ _ => execCaseResolve_keeps h
  | .fenceTimeout _ => execFenceTimeout_keeps h
  | .idleFlit _ _ => execIdleFlit_keeps h
  | .headFlit _ _ _ => execHeadFlit_keeps h
  | .dataFlit _ _ _ => execDataFlit_keeps h
  | .collFold _ _ _ => execCollFold_keeps h
  | .poisonFlit _ _ _ => execPoisonFlit_keeps h
  | .voteFlit _ _ _ => execVoteFlit_keeps h
  | .gateFlit _ _ _ => execGateFlit_keeps h
  | .hello _ _ _ _ => execHello_keeps h
  | .proof _ _ _ _ => execProof_keeps h
  | .reservedFlit _ _ => execReservedFlit_keeps h
  | .badFlit _ => execBadFlit_keeps h
  | .seamReplay _ => execSeamReplay_keeps h
  | .helloTimer _ _ => execHelloTimer_keeps h
  | .fitTimeout _ => execFitTimeout_keeps h
  | .linkTraining _ _ _ => execLinkTraining_keeps h
  | .laneWake _ => execLaneWake_keeps h
  | .portTest _ _ => execPortTest_keeps h
  | .write _ _ => execWrite_keeps h
  | .ready _ _ => execReady_keeps h
  | .hemlineFence _ => execHemlineFence_keeps h
  | .fenceW _ _ => execFenceW_keeps h
  | .fenceAll _ _ => execFenceAll_keeps h
  | .ack _ _ => execAck_keeps h
  | .ctrl _ _ _ _ _ _ => execCtrl_keeps h
  | .mbAbort _ => execMbAbort_keeps h
  | .setupOffer _ _ => execSetupOffer_keeps h
  | .setupFinish _ => execSetupFinish_keeps h
  | .close _ => execClose_keeps h
  | .arp _ _ => execArp_keeps h
  | .neighborDiscovery _ _ => execNeighborDiscovery_keeps h
  | .icmpEcho _ => execIcmpEcho_keeps h
  | .pfc _ _ => execPfc_keeps h
  | .droppedFrame _ _ => execDroppedFrame_keeps h
  | .ackDelayExpiry _ => execAckDelayExpiry_keeps h
  | .retransmitTimeout _ => execRetransmitTimeout_keeps h
  | .ratePeriod _ => execRatePeriod_keeps h
  | .flowTimeout _ => execFlowTimeout_keeps h
  | .hostLinkUp _ => execHostLinkUp_keeps h
  | .hostLinkDown _ => execHostLinkDown_keeps h
  | .mailboxClaimTimeout _ => execMailboxClaimTimeout_keeps h
  | .sessionIdleTimeout _ => execSessionIdleTimeout_keeps h
  | .setupExpiry _ _ => execSetupExpiry_keeps h
  | .epochAgeLimit _ => execEpochAgeLimit_keeps h
  | .epochGraceEnd _ => execEpochGraceEnd_keeps h
  | .identify _ => execIdentify_keeps h
  | .jobLoadBegin _ => execJobLoadBegin_keeps h
  | .jobLoadCommit _ => execJobLoadCommit_keeps h
  | .jobRelease _ => execJobRelease_keeps h
  | .jobEnd _ => execJobEnd_keeps h
  | .jobStatus _ => execJobStatus_keeps h
  | .recipeSet _ => execRecipeSet_keeps h
  | .flagClear _ => execFlagClear_keeps h
  | .remap _ => execRemap_keeps h
  | .baseLoadBegin _ => execBaseLoadBegin_keeps h
  | .baseLoadCommit _ => execBaseLoadCommit_keeps h
  | .flowOpen _ => execFlowOpen_keeps h
  | .flowClose _ => execFlowClose_keeps h
  | .flowStatus _ => execFlowStatus_keeps h
  | .snapshot _ => execSnapshot_keeps h
  | .snapshotCancel _ => execSnapshotCancel_keeps h
  | .restore _ => execRestore_keeps h
  | .snapshotPageCopy _ => execSnapshotPageCopy_keeps h
  | .restoreChunk _ => execRestoreChunk_keeps h
  | .spare _ => execSpare_keeps h
  | .spareExit _ => execSpareExit_keeps h
  | .fill _ => execFill_keeps h
  | .drain _ => execDrain_keeps h
  | .undrain _ => execUndrain_keeps h
  | .selfTest _ => execSelfTest_keeps h
  | .hibernate _ => execHibernate_keeps h
  | .wake _ => execWake_keeps h
  | .powerBudget _ => execPowerBudget_keeps h
  | .coolingReport _ => execCoolingReport_keeps h
  | .sensorRead _ => execSensorRead_keeps h
  | .sensorClear _ => execSensorClear_keeps h
  | .lifetimeRead _ => execLifetimeRead_keeps h
  | .txnBegin _ => execTxnBegin_keeps h
  | .txnSet _ => execTxnSet_keeps h
  | .txnCommit _ => execTxnCommit_keeps h
  | .txnRollback _ => execTxnRollback_keeps h
  | .txnCommitPoint => execTxnCommitPoint_keeps h
  | .txnExpired => execTxnExpired_keeps h
  | .configGet _ => execConfigGet_keeps h
  | .calRead _ => execCalRead_keeps h
  | .eventRead _ => execEventRead_keeps h
  | .markRequest _ => execMarkRequest_keeps h
  | .counterRead _ => execCounterRead_keeps h
  | .frayReportRead _ => execFrayReportRead_keeps h
  | .verdictRead _ => execVerdictRead_keeps h
  | .drainRecordRead _ => execDrainRecordRead_keeps h
  | .alertCauses _ => execAlertCauses_keeps h
  | .noteWatch _ => execNoteWatch_keeps h
  | .noteRead _ => execNoteRead_keeps h
  | .traceRead _ => execTraceRead_keeps h
  | .memInject _ => execMemInject_keeps h
  | .portRetrain _ => execPortRetrain_keeps h
  | .certRead _ => execCertRead_keeps h
  | .attest _ => execAttest_keeps h
  | .ownerSet _ => execOwnerSet_keeps h
  | .keyUpdate _ => execKeyUpdate_keeps h
  | .sessionEnd _ => execSessionEnd_keeps h
  | .fwBegin _ => execFwBegin_keeps h
  | .fwCommit _ => execFwCommit_keeps h
  | .fwActivate _ => execFwActivate_keeps h
  | .fwConfirm _ => execFwConfirm_keeps h
  | .fwStatus _ => execFwStatus_keeps h
  | .clearRecordRead _ => execClearRecordRead_keeps h
  | .registerAccess _ => execRegisterAccess_keeps h
  | .scrubRead _ _ _ => execScrubRead_keeps h
  | .memCeRate _ _ => execMemCeRate_keeps h
  | .lpddrTracking _ => execLpddrTracking_keeps h
  | .clearingDone _ => execClearingDone_keeps h
  | .scanDone _ => execScanDone_keeps h
  | .clearSigned => execClearSigned_keeps h
  | .spareScan => execSpareScan_keeps h
  | .thimbleLockstep => execThimbleLockstep_keeps h
  | .powerWindow _ _ _ _ => execPowerWindow_keeps h
  | .capUnmet => execCapUnmet_keeps h
  | .budgetExpired => execBudgetExpired_keeps h
  | .sensorSample _ => execSensorSample_keeps h
  | .sensorSkew _ => execSensorSkew_keeps h
  | .sensorSuspect _ => execSensorSuspect_keeps h
  | .forcedStateEnd => execForcedStateEnd_keeps h
  | .thetaUpdate p j d => execThetaUpdate_keeps (_pMean := p) (_tjMean := j) (_steady := d) h
  | .coolStale => execCoolStale_keeps h
  | .coolReportSkew => execCoolReportSkew_keeps h
  | .pinch _ => execPinch_keeps h
  | .pinchEnd _ _ => execPinchEnd_keeps h
  | .pinchRate _ n => execPinchRate_keeps (_count := n) h
  | .clockSwitch => execClockSwitch_keeps h
  | .gradeDeferred => execGradeDeferred_keeps h
  | .clockTrim _ => execClockTrim_keeps h
  | .power72vPresent _ => execPower72vPresent_keeps h
  | .firmwareVerify _ => execFirmwareVerify_keeps h
  | .pwrEnAssert => execPwrEnAssert_keeps h
  | .pwrEnRemove => execPwrEnRemove_keeps h
  | .resetNAssert _ => execResetNAssert_keeps h
  | .resetNRelease _ => execResetNRelease_keeps h
  | .pwrGood _ => execPwrGood_keeps h
  | .lpddrTraining _ _ _ => execLpddrTraining_keeps h
  | .boltSelfTest _ _ => execBoltSelfTest_keeps h
  | .startUpComplete => execStartUpComplete_keeps h
  | .railFault => execRailFault_keeps h
  | .undervoltage => execUndervoltage_keeps h
  | .overvoltage => execOvervoltage_keeps h
  | .overcurrent => execOvercurrent_keeps h
  | .overcurrentLatchRelease => execOvercurrentLatchRelease_keeps h
  | .power72vRemoved => execPower72vRemoved_keeps h
  | .trialTimeout => execTrialTimeout_keeps h
  | .recoveryFrame _ _ => execRecoveryFrame_keeps h
  | .idcode => execIdcode_keeps h
  | .bypass => execBypass_keeps h
  | .samplePreload _ => execSamplePreload_keeps h
  | .extest _ => execExtest_keeps h
  | .next _ => execNext_keeps h

/-- A step keeps the canonical form: the command in front runs on the same memory, and an empty queue changes nothing. -/
theorem step_keeps_memForm {s t : State} (hstep : step s = .next t) (hwf : Memory.wf s.mem = true) :
    Memory.wf t.mem = true := by
  unfold step at hstep
  split at hstep
  · cases hstep; exact hwf
  · rename_i c rest _
    obtain ⟨-, hmem⟩ := exec_keeps_queue_and_mem (Keeps.refl { s with pending := rest }) c t hstep
    exact hmem hwf

end Sys2Proof.Machine
end

section
/-! SUPPORT. The counterexample to O40: a device that is asked to drain while the table of mailboxes lists the mailbox of the
request twice. -/

namespace Sys2Proof.Machine

open Sys2Proof.Config Sys2Proof.Claims

/-- A READY device with a snapshot not yet captured; DRAIN (OP 0x403, 4 bytes) stands rung in mailbox 0, which the table of
mailboxes lists a second time, as waiting for the snapshot. -/
def drainListedTwice : State :=
  { State.reset with
    dev := { st := .ready }
    snap := { snap := some waitingSnap }
    mgmt := { rings := [0]
              boxes := [(0, { st := .busy 1, rung := true, req := [(0, 3#8), (1, 4#8), (4, 4#8)] }),
                        (0, { st := .busy 1, waits := some .snapshot })] } }

theorem drainListedTwice_accepted : accepted drainListedTwice 0 reqDrain := by
  unfold accepted atHead; decide

/-- The drain ends the snapshot (R327), and every mailbox listed as waiting for it is answered ABORTED: mailbox 0 too, over the
OK of its DRAIN. -/
theorem drainListedTwice_drain : ∃ t, exec (.drain 0) drainListedTwice = .next t ∧
    (boxOf t 0).sent = some 24 :=
  ⟨_, rfl, by decide⟩

end Sys2Proof.Machine
end

section
/-! SUPPORT. OWNER_SET, the firmware update, MEM_INJECT and PORT_RETRAIN (R208, R223, R366, R370, R377, R378): what each
request does, by the cases of its own checks. -/

namespace Sys2Proof.Machine

open Sys2Proof.Config Sys2Proof.Claims

variable {s t : State} {m : Nat}

/-- The firmware with its anchors and the load window are out of a reply's reach. -/
theorem Replies.firmware (h : Replies s t) : t.fw = s.fw ∧ t.load = s.load := by
  rw [Replies] at h
  rw [h]
  exact ⟨rfl, rfl⟩

/-- An accepted request that acts and is then refused: the state `u` in which its effect stands, with the refusal sent. -/
theorem exec_refuses {r : Req} {act : State → Nat → Mailbox → State} {u : State} {st : Status} {x y : Nat}
    (hserve : exec (r.cmd m) s = serve r.op r.len r.rsv r.st act m s) (h : accepted s m r)
    (hact : act (takeRing s m) m (boxOf s m) = replyBad u m st x y) (hbox : boxOf u m = boxOf (takeRing s m) m) :
    ∃ t, exec (r.cmd m) s = .next t ∧ refusedWith s t m st x y ∧ Replies u t := by
  have ⟨⟨_, _, horphan, _⟩, _⟩ := h
  exact ⟨_, (exec_accepted hserve h).trans (congrArg _ hact), answered_reply hbox horphan _ _, reply_replies ..⟩

/-! ### OWNER_SET (R370) -/

theorem setOwner_range {b : Mailbox} (howner : b.provisioning = false ∨ s.fw.anchors = []) (hn : 4 < reqWord b 0) (m : Nat) :
    setOwner s m b = refuse s m .badRange := by
  have hmay : ¬ (b.provisioning = true ∧ s.fw.anchors.isEmpty = false) := by
    rcases howner with h | h <;> simp [h]
  simp only [setOwner, if_neg hmay, if_pos hn]

theorem setOwner_within {b : Mailbox} (howner : b.provisioning = false ∨ s.fw.anchors = []) (hn : reqWord b 0 ≤ 4) (m : Nat) :
    let keys := (List.range (reqWord b 0)).map (ownerKey b)
    setOwner s m b = if keys.all validPoint then
      replyOk (raiseEv { s with fw := { s.fw with anchors := keys } } srcThimble .ownerChanged []) m []
    else refuse s m .badCert := by
  have hmay : ¬ (b.provisioning = true ∧ s.fw.anchors.isEmpty = false) := by
    rcases howner with h | h <;> simp [h]
  simp only [setOwner, if_neg hmay, if_neg (Nat.not_lt.mpr hn)]

theorem exec_ownerSet_keys (h : accepted s m reqOwner) (howner : (boxOf s m).provisioning = false ∨ s.fw.anchors = [])
    (hn : reqWord (boxOf s m) 0 ≤ 4)
    (hkeys : ∀ k ∈ (List.range (reqWord (boxOf s m) 0)).map (ownerKey (boxOf s m)), validPoint k = true) :
    ∃ t, exec (.ownerSet m) s = .next t ∧ answered s t m .ok [] ∧ t.mem = s.mem ∧
      t.fw = { s.fw with anchors := (List.range (reqWord (boxOf s m) 0)).map (ownerKey (boxOf s m)) } := by
  obtain ⟨t, hexec, hanswer, hreply⟩ := exec_acts (exec_ownerSet m s) h
    ((setOwner_within (s := takeRing s m) howner hn m).trans (if_pos (List.all_eq_true.mpr hkeys))) (boxOf_raiseEv ..)
  exact ⟨t, hexec, hanswer, hreply.units.1, hreply.firmware.1⟩

/-! ### FW_BEGIN and FW_COMMIT (R366, R377) -/

theorem beginFw_opens {b : Mailbox} (htrial : s.fw.trial = false) (hload : s.load = none) (hpos : 0 < windowLen b)
    (hmax : windowLen b ≤ 2 ^ 30) (m : Nat) : beginFw s m b = replyOk (openWindowOf s b 2 0) m [] := by
  simp only [beginFw, htrial, hload]
  rw [if_neg (by decide), if_neg (by decide), if_neg (by omega)]

/-- The end of a load window ends its flows and touches neither mailbox nor firmware (R243, R343). -/
theorem closeWindow_frame (s : State) : (closeWindow s).mem = s.mem ∧ (closeWindow s).fw = s.fw ∧ (closeWindow s).load = none ∧
    ∀ k, boxOf (closeWindow s) k = boxOf s k := by
  have h := closeFlows_sends s (fun _ v => v.window)
  have hbox : ∀ k, boxOf (closeWindow s) k = boxOf s k := h.box
  refine ⟨?_, ?_, rfl, hbox⟩
  · rw [closeWindow, h]
  · rw [closeWindow, h]

/-- What the state is after a FW_COMMIT has ended its window, whatever it answers: `f` is its firmware. -/
def commitEnds (s t : State) (f : Firmware) : Prop := t.load = none ∧ t.mem = s.mem ∧ t.fw = f

/-- FW_COMMIT of a window whose bytes have all arrived: it closes, and the checks follow (R343, R366, R377). -/
theorem commitFw_received {w : LoadWindow} (hload : s.load = some w) (hkind : w.kind = 2) (hgot : coversTo w.got w.len = true)
    (m : Nat) (b : Mailbox) : commitFw s m b =
      if sha384 (memBytes w.buf 0 w.len) = w.digest then
        (imageFault s.fw (readImage (memBytes w.buf 0 w.len))).elim
          (if (readImage (memBytes w.buf 0 w.len)).recovery then refuse (closeWindow s) m .badImage
            else replyOk { closeWindow s with
              fw := { putInactive (closeWindow s).fw (readImage (memBytes w.buf 0 w.len)) with committed := true } } m [])
          (refuse (closeWindow s) m)
      else refuse (closeWindow s) m .digestMismatch := by
  simp only [commitFw, hload]
  rw [if_neg (by simp [hkind]), if_neg (by simp [hgot]), ite_not]
  congr 1
  cases imageFault s.fw (readImage (memBytes w.buf 0 w.len)) <;> rfl

/-- A FW_COMMIT that a check refuses leaves the firmware as it was. -/
theorem exec_fwCommit_refused {st : Status} (h : accepted s m reqFwCommit)
    (hact : commitFw (takeRing s m) m (boxOf s m) = refuse (closeWindow (takeRing s m)) m st) :
    ∃ t, exec (.fwCommit m) s = .next t ∧ refusedWith s t m st 0 0 ∧ commitEnds s t s.fw := by
  obtain ⟨hmem, hfw, hload, hbox⟩ := closeWindow_frame (takeRing s m)
  obtain ⟨t, hexec, hanswer, hreply⟩ := exec_refuses (exec_fwCommit m s) h hact (hbox m)
  exact ⟨t, hexec, hanswer, hreply.firmware.2.trans hload, hreply.units.1.trans hmem, hreply.firmware.1.trans hfw⟩

/-- A FW_COMMIT that every check passes puts the image in the inactive slot. -/
theorem exec_fwCommit_taken {i : Image} (h : accepted s m reqFwCommit)
    (hact : commitFw (takeRing s m) m (boxOf s m) = replyOk { closeWindow (takeRing s m) with
      fw := { putInactive (closeWindow (takeRing s m)).fw i with committed := true } } m []) :
    ∃ t, exec (.fwCommit m) s = .next t ∧ answered s t m .ok [] ∧
      commitEnds s t { putInactive s.fw i with committed := true } := by
  obtain ⟨hmem, hfw, hload, hbox⟩ := closeWindow_frame (takeRing s m)
  obtain ⟨t, hexec, hanswer, hreply⟩ := exec_acts (exec_fwCommit m s) h hact (hbox m)
  exact ⟨t, hexec, hanswer, hreply.firmware.2.trans hload, hreply.units.1.trans hmem, hreply.firmware.1.trans (by rw [hfw]; rfl)⟩

theorem putInactive_slots (f : Firmware) (i : Image) : (putInactive f i).active = f.active ∧
    (f.active = 0 → (putInactive f i).slotB = some i ∧ (putInactive f i).slotA = f.slotA) ∧
    (f.active ≠ 0 → (putInactive f i).slotA = some i ∧ (putInactive f i).slotB = f.slotB) := by
  unfold putInactive
  split
  · exact ⟨rfl, fun _ => ⟨rfl, rfl⟩, fun hne => absurd ‹_› hne⟩
  · exact ⟨rfl, fun heq => absurd heq ‹_›, fun _ => ⟨rfl, rfl⟩⟩

/-- The four ends of such a FW_COMMIT: the digest, a check of R366, the RECOVERY bit, and the image taken. -/
theorem exec_fwCommit_received {w : LoadWindow} (h : accepted s m reqFwCommit) (hload : s.load = some w) (hkind : w.kind = 2)
    (hgot : coversTo w.got w.len = true) :
    ∃ t f, exec (.fwCommit m) s = .next t ∧ commitEnds s t f ∧ f.active = s.fw.active ∧
      (sha384 (memBytes w.buf 0 w.len) ≠ w.digest → refusedWith s t m .digestMismatch 0 0 ∧ f = s.fw) ∧
      (sha384 (memBytes w.buf 0 w.len) = w.digest → ∀ st, imageFault s.fw (readImage (memBytes w.buf 0 w.len)) = some st →
        refusedWith s t m st 0 0 ∧ f = s.fw) ∧
      (sha384 (memBytes w.buf 0 w.len) = w.digest → imageFault s.fw (readImage (memBytes w.buf 0 w.len)) = none →
        (readImage (memBytes w.buf 0 w.len)).recovery = false → answered s t m .ok [] ∧
          f = { putInactive s.fw (readImage (memBytes w.buf 0 w.len)) with committed := true }) := by
  have hact := commitFw_received (s := takeRing s m) hload hkind hgot m (boxOf s m)
  have hfault : imageFault (takeRing s m).fw = imageFault s.fw := rfl
  rw [hfault] at hact
  generalize readImage (memBytes w.buf 0 w.len) = i at hact ⊢
  by_cases hdigest : sha384 (memBytes w.buf 0 w.len) = w.digest
  · rw [if_pos hdigest] at hact
    cases hi : imageFault s.fw i with
    | some st =>
      rw [hi, Option.elim_some] at hact
      obtain ⟨t, hexec, hrefused, hends⟩ := exec_fwCommit_refused h hact
      exact ⟨t, _, hexec, hends, rfl, fun hne => absurd hdigest hne, fun _ x hx => by cases hx; exact ⟨hrefused, rfl⟩, nofun⟩
    | none =>
      rw [hi, Option.elim_none] at hact
      cases hrec : i.recovery with
      | true =>
        rw [hrec, if_pos rfl] at hact
        obtain ⟨t, hexec, hrefused, hends⟩ := exec_fwCommit_refused h hact
        exact ⟨t, _, hexec, hends, rfl, fun hne => absurd hdigest hne, nofun, nofun⟩
      | false =>
        rw [hrec, if_neg (by decide)] at hact
        obtain ⟨t, hexec, hanswer, hends⟩ := exec_fwCommit_taken h hact
        exact ⟨t, _, hexec, hends, (putInactive_slots _ i).1, fun hne => absurd hdigest hne, nofun, fun _ _ _ => ⟨hanswer, rfl⟩⟩
  · rw [if_neg hdigest] at hact
    obtain ⟨t, hexec, hrefused, hends⟩ := exec_fwCommit_refused h hact
    exact ⟨t, _, hexec, hends, rfl, fun _ => ⟨hrefused, rfl⟩, fun heq => absurd heq hdigest, fun heq => absurd heq hdigest⟩

/-! ### FW_ACTIVATE and FW_CONFIRM (R377, R378) -/

theorem exec_fwActivate_committed (h : accepted s m reqFwActivate) (hc : s.fw.committed = true) :
    ∃ t, exec (.fwActivate m) s = .next t ∧ answered s t m .ok [] ∧ t.mem = s.mem ∧
      t.fw = { s.fw with active := 1 - s.fw.active, trial := true, committed := false } := by
  obtain ⟨t, hexec, hanswer, hreply⟩ := exec_acts (exec_fwActivate m s) h
    (u := raiseEv { takeRing s m with fw := { s.fw with active := 1 - s.fw.active, trial := true, committed := false } }
      srcThimble .fwActivated []) (if_pos hc) (boxOf_raiseEv ..)
  exact ⟨t, hexec, hanswer, hreply.units.1, hreply.firmware.1⟩

theorem exec_fwConfirm_trial (h : accepted s m (plain .fwConfirm 0x908 0)) (ht : s.fw.trial = true) {i : Image}
    (hi : runningImage s = some i) :
    ∃ t, exec (.fwConfirm m) s = .next t ∧ answered s t m .ok [] ∧ t.mem = s.mem ∧
      t.fw = { s.fw with trial := false, floor := max s.fw.floor i.svn } := by
  have hrun : runningImage (takeRing s m) = some i := hi
  obtain ⟨t, hexec, hanswer, hreply⟩ := exec_acts (exec_fwConfirm m s) h
    (u := raiseEv { takeRing s m with fw := { s.fw with trial := false, floor := max s.fw.floor i.svn } }
      srcThimble .fwConfirmed []) ((if_pos ht).trans (by rw [hrun]; rfl)) (boxOf_raiseEv ..)
  exact ⟨t, hexec, hanswer, hreply.units.1, hreply.firmware.1⟩

/-! ### MEM_INJECT (R208) -/

/-- The errors of the lines after a pattern is applied to one of them: no entry where it takes back what was there. -/
def withPattern (errs : Tab (List (Nat × Byte))) (l : Nat) (p : List (Nat × Byte)) : Tab (List (Nat × Byte)) :=
  if p.isEmpty then tabErase errs l else tabPut errs l p

theorem tabGet_eq_getD_tabFind {α : Type} (d : α) (k : Nat) : ∀ t : Tab α, tabGet d t k = (tabFind t k).getD d
  | [] => rfl
  | (j, v) :: t => by
    by_cases h : j = k
    · simp [tabGet, tabFind, h]
    · simp [tabGet, tabFind, h, tabGet_eq_getD_tabFind d k t]

theorem tabFind_withPattern (errs : Tab (List (Nat × Byte))) (l : Nat) (p : List (Nat × Byte)) (k : Nat) :
    tabFind (withPattern errs l p) k = if l = k then (if p.isEmpty then none else some p) else tabFind errs k := by
  unfold withPattern
  split
  · exact tabFind_tabErase ..
  · exact tabFind_tabPut ..

theorem tabGet_withPattern (errs : Tab (List (Nat × Byte))) (l : Nat) (p : List (Nat × Byte)) :
    tabGet [] (withPattern errs l p) l = p := by
  rw [tabGet_eq_getD_tabFind, tabFind_withPattern, if_pos rfl]
  split
  · rename_i h; exact (List.isEmpty_iff.mp h).symm
  · rfl

/-- The line of a unit and its errors once the pattern of a MEM_INJECT is applied. -/
theorem injectError_applies {b : Mailbox} {pat : List (Nat × Byte)}
    (hu : fieldOf (reqWord b 0) 0 8 < if !(bitOf (reqWord b 0) 8) then 256 else 128)
    (hl : reqWord b 4 < unitLines (!(bitOf (reqWord b 0) 8)))
    (hpat : injectPattern (bitOf (reqWord b 0) 9) (reqWord b 8) (reqBytes b 12 8) = some pat) (m : Nat) :
    let l := unitLine (!(bitOf (reqWord b 0) 8)) (fieldOf (reqWord b 0) 0 8) (reqWord b 4)
    injectError s m b = replyOk { s with health := { s.health with
      errors := withPattern s.health.errors l (patXor (tabGet [] s.health.errors l) pat) } } m [] := by
  have hin : ¬ ((if !(bitOf (reqWord b 0) 8) then panels else channels) ≤ fieldOf (reqWord b 0) 0 8 ∨
      unitLines (!(bitOf (reqWord b 0) 8)) ≤ reqWord b 4) :=
    not_or.mpr ⟨Nat.not_le.mpr hu, Nat.not_le.mpr hl⟩
  simp only [injectError, if_neg hin, hpat]
  rfl

/-! ### PORT_RETRAIN (R223) -/

theorem exec_portRetrain_down (h : accepted s m (plain .portRetrain 0x801 4)) (hq : reqWord (boxOf s m) 0 < 12)
    (hdown : (portOf s (reqWord (boxOf s m) 0)).st = .down) :
    ∃ t, exec (.portRetrain m) s = .next t ∧ answered s t m .ok [] ∧ t.mem = s.mem ∧
      portOf t (reqWord (boxOf s m) 0) = untrained (portOf s (reqWord (boxOf s m) 0)) ∧
      ∀ k, k ≠ reqWord (boxOf s m) 0 → portOf t k = portOf s k := by
  obtain ⟨t, hexec, hanswer, hreply⟩ := exec_acts (exec_portRetrain m s) h
    (u := modPort (takeRing s m) (reqWord (boxOf s m) 0) untrained)
    ((if_neg (Nat.not_le.mpr hq)).trans (if_pos hdown)) rfl
  exact ⟨t, hexec, hanswer, hreply.units.1, (hreply.port _).trans (portOf_modPort_self ..),
    fun k hk => (hreply.port k).trans (portOf_modPort_ne _ _ _ _ hk.symm)⟩

end Sys2Proof.Machine
end

section
/-! SUPPORT. Start-up (R201, R202, R205, R223, R383): which rows find no repair and what the spares in use become, the training
of channels and ports, and the state in which start-up ends. -/

namespace Sys2Proof.Machine

open Sys2Proof.Config Sys2Proof.Claims

/-- From `s` to `t` only what repairs and training count change: the memory units, the replacement flag, and the log of
events (R201, R203, R205). -/
def Repairs (s t : State) : Prop :=
  t = { s with
    health := { s.health with units := t.health.units }
    dev := { s.dev with replace := t.dev.replace }
    mgmt := { s.mgmt with log := t.mgmt.log, dropped := t.mgmt.dropped, seqs := t.mgmt.seqs } }

theorem Repairs.refl (s : State) : Repairs s s := rfl

theorem Repairs.trans {a b c : State} (h : Repairs a b) (k : Repairs b c) : Repairs a c := by
  unfold Repairs at *; rw [h] at k; exact k

theorem Repairs.frame {s t : State} (h : Repairs s t) : sideOnly s t ∧ t.pins = s.pins ∧
    t.dev = { s.dev with replace := t.dev.replace } ∧ t.health = { s.health with units := t.health.units } := by
  rw [Repairs] at h
  refine ⟨⟨?_, ?_, ?_, ?_, ?_, ?_⟩, ?_, ?_, ?_⟩ <;> rw [h]

theorem raiseEv_repairs (s : State) (src : Nat) (c : Ev) (args : List Nat) : Repairs s (raiseEv s src c args) := by
  unfold raiseEv pushLog Repairs; dsimp only; split <;> rfl

theorem applyRepair_repairs (bolt : Bool) (s : State) (u : Nat) : Repairs s (applyRepair bolt s u) :=
  Repairs.trans (b := modMemUnit s _ _) rfl (raiseEv_repairs ..)

theorem flagIf_repairs (s : State) (b : Bool) : Repairs s (flagIf s b) := rfl

/-! ### Rows of LPDDR5X -/

theorem repairChannels_repairs : ∀ (cs done : List Nat) (s : State), Repairs s (repairChannels cs done s)
  | [], _, s => .refl s
  | c :: cs, done, s => by
    unfold repairChannels
    split
    · exact (applyRepair_repairs false s c).trans (repairChannels_repairs cs _ _)
    · exact (flagIf_repairs s true).trans (repairChannels_repairs cs _ _)

/-- Some channel has more rows listed than its packages repaired. -/
def unrepaired (cs done : List Nat) : Bool := cs.any (fun c => decide (done.count c < cs.count c))

theorem unrepaired_iff {cs done : List Nat} : unrepaired cs done = true ↔ ∃ c, done.count c < cs.count c := by
  simp only [unrepaired, List.any_eq_true, decide_eq_true_eq]
  exact ⟨fun ⟨c, _, h⟩ => ⟨c, h⟩, fun ⟨c, h⟩ => ⟨c, List.count_pos_iff.mp (by omega), h⟩⟩

/-- A repair that is made takes a row and a repair away. -/
theorem unrepaired_erase {c : Nat} {cs done : List Nat} (h : c ∈ done) :
    unrepaired cs (done.erase c) = unrepaired (c :: cs) done := by
  rw [Bool.eq_iff_iff, unrepaired_iff, unrepaired_iff]
  refine exists_congr fun x => ?_
  have hpos := List.count_pos_iff.mpr h
  by_cases hx : x = c
  · subst hx
    rw [List.count_erase_self, List.count_cons_self]; omega
  · rw [List.count_erase_of_ne hx, List.count_cons_of_ne (Ne.symm hx)]

theorem repairChannels_replace : ∀ (cs done : List Nat) (s : State),
    (repairChannels cs done s).dev.replace = (s.dev.replace || unrepaired cs done)
  | [], _, s => by simp [repairChannels, unrepaired]
  | c :: cs, done, s => by
    unfold repairChannels
    split
    · rename_i h
      rw [repairChannels_replace cs, unrepaired_erase (by simpa using h)]
      rfl
    · rename_i h
      have hnone : done.count c = 0 := List.count_eq_zero.mpr (by simpa using h)
      have hflag : unrepaired (c :: cs) done = true :=
        unrepaired_iff.mpr ⟨c, by rw [hnone, List.count_cons_self]; omega⟩
      rw [repairChannels_replace cs, hflag]
      simp [flagIf]

theorem memUnitOf_applyRepair (s : State) (d k : Nat) : memUnitOf (applyRepair false s d) k =
    if 256 + d = k then { memUnitOf s k with sparesUsed := min 0xFFFF ((memUnitOf s k).sparesUsed + 1) }
    else memUnitOf s k := by
  have hkey : unitKey (d, false) = 256 + d := rfl
  rw [applyRepair, memUnitOf_raiseEv, memUnitOf_modMemUnit, hkey]
  split
  · rename_i h; rw [h]
  · rfl

theorem memUnitOf_flagIf (s : State) (b : Bool) (k : Nat) : memUnitOf (flagIf s b) k = memUnitOf s k := rfl

/-- The spares that a channel has in use after the repairs: those before, and one for each listed row that was repaired. -/
theorem repairChannels_sparesUsed {c : Nat} : ∀ (cs done : List Nat) (s : State),
    (memUnitOf s (256 + c)).sparesUsed + cs.length ≤ 0xFFFF →
    (memUnitOf (repairChannels cs done s) (256 + c)).sparesUsed =
      (memUnitOf s (256 + c)).sparesUsed + min (cs.count c) (done.count c)
  | [], _, s, _ => by simp [repairChannels]
  | d :: cs, done, s, hlen => by
    rw [List.length_cons] at hlen
    unfold repairChannels
    split
    · rename_i h
      have hpos := List.count_pos_iff.mpr (show d ∈ done by simpa using h)
      have hunit := memUnitOf_applyRepair s d (256 + c)
      by_cases hd : d = c
      · subst hd
        rw [if_pos rfl] at hunit
        have hused : (memUnitOf (applyRepair false s d) (256 + d)).sparesUsed = (memUnitOf s (256 + d)).sparesUsed + 1 := by
          rw [hunit]; exact Nat.min_eq_right (by omega)
        rw [repairChannels_sparesUsed cs _ _ (by omega), hused, List.count_erase_self, List.count_cons_self]
        omega
      · rw [if_neg (by omega)] at hunit
        rw [repairChannels_sparesUsed cs _ _ (by rw [hunit]; omega), hunit, List.count_erase_of_ne (Ne.symm hd),
          List.count_cons_of_ne hd]
    · rename_i h
      rw [repairChannels_sparesUsed cs done _ (by rw [memUnitOf_flagIf]; omega), memUnitOf_flagIf]
      by_cases hd : d = c
      · subst hd
        have hnone : done.count d = 0 := List.count_eq_zero.mpr (by simpa using h)
        rw [hnone, Nat.min_zero, Nat.min_zero]
      · rw [List.count_cons_of_ne hd]

/-! ### Rows of bolt memory -/

theorem repairRows_repairs : ∀ (rs used : List (Nat × Nat)) (s : State), Repairs s (repairRows rs used s)
  | [], _, s => .refl s
  | r :: rs, used, s => by
    unfold repairRows
    split
    · exact (applyRepair_repairs true s r.1).trans (repairRows_repairs rs _ _)
    · exact (flagIf_repairs s true).trans (repairRows_repairs rs _ _)

/-- Some layer of a slice has more failing rows than spares, with those in `used` taken already. -/
def outOfRows (rs used : List (Nat × Nat)) : Bool := rs.any (fun r => decide (32 < used.count r + rs.count r))

theorem outOfRows_cons {r : Nat × Nat} {rs used : List (Nat × Nat)} (h : used.count r < 32) :
    outOfRows rs (r :: used) = outOfRows (r :: rs) used := by
  have hcount : ∀ x, (r :: used).count x + rs.count x = used.count x + (r :: rs).count x := fun x => by
    simp only [List.count_cons]; omega
  rw [Bool.eq_iff_iff]
  simp only [outOfRows, List.any_eq_true, decide_eq_true_eq, hcount, List.mem_cons]
  refine ⟨fun ⟨x, hx, hn⟩ => ⟨x, .inr hx, hn⟩, fun ⟨x, hx, hn⟩ => ⟨x, ?_, hn⟩⟩
  rcases hx with rfl | hx
  · refine List.count_pos_iff.mp ?_
    rw [List.count_cons_self] at hn
    omega
  · exact hx

theorem repairRows_replace : ∀ (rs used : List (Nat × Nat)) (s : State),
    (repairRows rs used s).dev.replace = (s.dev.replace || outOfRows rs used)
  | [], _, s => by simp [repairRows, outOfRows]
  | r :: rs, used, s => by
    have hcount : (used.filter (fun u => u == r)).length = used.count r := by
      rw [List.count_eq_length_filter]
    unfold repairRows
    rw [hcount]
    split
    · rename_i h
      rw [repairRows_replace rs, outOfRows_cons h]
      rfl
    · rename_i h
      have hmore : 32 < used.count r + (r :: rs).count r := by
        have hfull : 32 ≤ used.count r := Nat.not_lt.mp h
        rw [List.count_cons_self]; omega
      have hflag : outOfRows (r :: rs) used = true :=
        List.any_eq_true.mpr ⟨r, List.mem_cons_self, decide_eq_true hmore⟩
      rw [repairRows_replace rs, hflag]
      simp [flagIf]

/-! ### The spares before the repairs -/

theorem freeSpares_repairs (s : State) (bolt : Bool) : Repairs s (freeSpares s bolt) := rfl

theorem sparesUsed_freeSpares (s : State) (c : Nat) : (memUnitOf (freeSpares s false) (256 + c)).sparesUsed = 0 := by
  have hchannel : decide (256 + c < 256) = false := decide_eq_false (by omega)
  have h := tabGet_map (α := MemUnit) (d := {}) (k := 256 + c)
    (g := fun e => if decide (e.1 < 256) = false then (e.1, { e.2 with sparesUsed := 0 }) else e)
    (fun e => by dsimp only; split <;> rfl) (by simp only [hchannel]; rfl) s.health.units
  rw [memUnitOf, freeSpares, h]
  simp only [hchannel]
  rfl

/-! ### Training of the channels (R205) -/

/-- Channel `c` is trained, or it is among the `failed` ones. -/
def trainChannel (failed : List Nat) (t : State) (c : Nat) : State :=
  if failed.contains c then raiseEv t (srcMem false c) .memTrainFail [c]
  else modMemUnit t (256 + c) (fun u => { u with trained := true })

theorem trainChannel_repairs (failed : List Nat) (t : State) (c : Nat) : Repairs t (trainChannel failed t c) := by
  unfold trainChannel
  split
  · exact raiseEv_repairs ..
  · rfl

theorem trainChannel_dev (failed : List Nat) (t : State) (c : Nat) : (trainChannel failed t c).dev = t.dev := by
  unfold trainChannel; split <;> rfl

theorem memUnitOf_trainChannel (failed : List Nat) (t : State) (c k : Nat) : memUnitOf (trainChannel failed t c) (256 + k) =
    if c = k ∧ k ∉ failed then { memUnitOf t (256 + k) with trained := true } else memUnitOf t (256 + k) := by
  unfold trainChannel
  split
  · rename_i h
    rw [memUnitOf_raiseEv, if_neg (by rintro ⟨rfl, hk⟩; exact hk (by simpa using h))]
  · rename_i h
    rw [memUnitOf_modMemUnit]
    by_cases hck : c = k
    · subst hck
      rw [if_pos rfl, if_pos ⟨rfl, by simpa using h⟩]
    · rw [if_neg (by omega), if_neg (fun e => hck e.1)]

theorem memUnitOf_trainChannels (failed : List Nat) (k : Nat) : ∀ (l : List Nat) (t : State),
    memUnitOf (l.foldl (trainChannel failed) t) (256 + k) =
      if k ∈ l ∧ k ∉ failed then { memUnitOf t (256 + k) with trained := true } else memUnitOf t (256 + k)
  | [], t => by simp
  | c :: l, t => by
    rw [List.foldl_cons, memUnitOf_trainChannels failed k l, memUnitOf_trainChannel]
    by_cases hf : k ∈ failed
    · simp [hf]
    · by_cases hc : c = k
      · subst hc; simp [hf]
      · simp [hf, hc, Ne.symm hc]

theorem trainChannels_repairs (failed l : List Nat) (t : State) : Repairs t (l.foldl (trainChannel failed) t) :=
  foldl_related Repairs.refl Repairs.trans (trainChannel_repairs failed) l t

theorem trainChannels_dev (failed l : List Nat) (t : State) : (l.foldl (trainChannel failed) t).dev = t.dev :=
  foldl_related (R := fun a b => b.dev = a.dev) (fun _ => rfl) (fun h k => k.trans h) (trainChannel_dev failed) l t

/-- LPDDR_TRAINING before it counts the failed channels: spares freed, listed rows repaired, channels trained. -/
def lpddrWork (failed repaired : List Nat) (s : State) : State :=
  (List.range 128).foldl (trainChannel failed) (repairChannels (listedChannels s) repaired
    (freeSpares { s with health := { s.health with trainFrom := trainStart s } } false))

theorem lpddrWork_repairs (failed repaired : List Nat) (s : State) :
    Repairs { s with health := { s.health with trainFrom := trainStart s } } (lpddrWork failed repaired s) :=
  ((freeSpares_repairs _ false).trans (repairChannels_repairs ..)).trans (trainChannels_repairs ..)

theorem lpddrWork_replace (failed repaired : List Nat) (s : State) :
    (lpddrWork failed repaired s).dev.replace = (s.dev.replace || unrepaired (listedChannels s) repaired) := by
  rw [lpddrWork, trainChannels_dev, repairChannels_replace]
  rfl

theorem lpddrWork_unit (failed repaired : List Nat) (s : State) {c : Nat} (hc : c < 128) :
    (c ∉ failed → (memUnitOf (lpddrWork failed repaired s) (256 + c)).trained = true) ∧
    ((listedChannels s).length ≤ 1024 → (memUnitOf (lpddrWork failed repaired s) (256 + c)).sparesUsed =
      min ((listedChannels s).count c) (repaired.count c)) := by
  rw [lpddrWork, memUnitOf_trainChannels]
  refine ⟨fun hf => by rw [if_pos ⟨List.mem_range.mpr hc, hf⟩], fun hlen => ?_⟩
  have hzero := sparesUsed_freeSpares { s with health := { s.health with trainFrom := trainStart s } } c
  have hused := repairChannels_sparesUsed (c := c) (listedChannels s) repaired
    (freeSpares { s with health := { s.health with trainFrom := trainStart s } } false) (by rw [hzero]; omega)
  rw [hzero, Nat.zero_add] at hused
  rw [← hused]
  split <;> rfl

/-- The end of LPDDR_TRAINING: the failed channels, the values of a training without failure, and the next step. -/
def trainingEnds (failed values : List Nat) (u : State) : State :=
  { u with
    pins := { u.pins with startup := 6 }
    dev := { u.dev with replace := u.dev.replace || !failed.isEmpty }
    health := { u.health with training := if failed = [] then values else u.health.training } }

theorem exec_lpddrTraining_boot {s : State} (hst : s.dev.st = .boot) (hup : s.pins.startup = 5) (hrec : runsRecovery s = false)
    (failed repaired values : List Nat) : exec (.lpddrTraining failed repaired values) s =
      .next (trainingEnds failed values (lpddrWork failed repaired s)) := by
  have hexec : exec (.lpddrTraining failed repaired values) s = .next (modPins
      (if failed.isEmpty then { lpddrWork failed repaired s with
          health := { (lpddrWork failed repaired s).health with training := values } }
        else flagIf (lpddrWork failed repaired s) true) (fun p => { p with startup := 6 })) := by
    rw [exec_lpddrTraining, execLpddrTraining, if_pos (by simp [hst, hup, hrec])]
    rfl
  rw [hexec]
  cases failed with
  | nil => simp [modPins, trainingEnds]
  | cons => simp [modPins, flagIf, trainingEnds]

theorem lpddrTraining_boot {s : State} (hst : s.dev.st = .boot) (hup : s.pins.startup = 5) (hrec : runsRecovery s = false)
    (failed repaired values : List Nat) :
    ∃ t, exec (.lpddrTraining failed repaired values) s = .next t ∧ sideOnly s t ∧ t.pins = { s.pins with startup := 6 } ∧
      t.dev = { s.dev with replace := s.dev.replace || !failed.isEmpty || unrepaired (listedChannels s) repaired } ∧
      t.health.trainFrom = trainStart s ∧ t.health.training = (if failed = [] then values else s.health.training) ∧
      ∀ k, memUnitOf t k = memUnitOf (lpddrWork failed repaired s) k := by
  have hexec := exec_lpddrTraining_boot hst hup hrec failed repaired values
  obtain ⟨hside, hpins, hdev, hhealth⟩ := (lpddrWork_repairs failed repaired s).frame
  have hflag := lpddrWork_replace failed repaired s
  generalize lpddrWork failed repaired s = u at *
  refine ⟨_, hexec, hside, ?_, ?_, ?_, ?_, fun _ => rfl⟩
  · rw [trainingEnds, hpins]
  · rw [trainingEnds, hflag, hdev, Bool.or_right_comm]
  · rw [trainingEnds, hhealth]
  · rw [trainingEnds, hhealth]

/-! ### BOLT_SELF_TEST (R201, R223, R331) -/

theorem trainAll_frame (s : State) : trainAll s = { s with ports := (trainAll s).ports } :=
  foldl_related (R := fun a b => b = { a with ports := b.ports }) (fun _ => rfl) (fun h k => by rw [h] at k; exact k)
    (fun _ _ => rfl) _ s

theorem portOf_modPorts_ne {f : SeamPort → SeamPort} {q : Nat} : ∀ {l : List Nat}, q ∉ l → ∀ s : State,
    portOf (l.foldl (fun t k => modPort t k f) s) q = portOf s q
  | [], _, _ => rfl
  | k :: l, h, s => by
    rw [List.mem_cons, not_or] at h
    rw [List.foldl_cons, portOf_modPorts_ne h.2, portOf_modPort_ne _ _ _ _ (Ne.symm h.1)]

theorem portOf_modPorts {f : SeamPort → SeamPort} {q : Nat} : ∀ {l : List Nat}, l.Nodup → q ∈ l → ∀ s : State,
    portOf (l.foldl (fun t k => modPort t k f) s) q = f (portOf s q)
  | [], _, h, _ => nomatch h
  | k :: l, hl, h, s => by
    obtain ⟨hk, hl⟩ := List.nodup_cons.mp hl
    rw [List.foldl_cons]
    by_cases hq : k = q
    · subst hq
      rw [portOf_modPorts_ne hk, portOf_modPort_self]
    · rw [portOf_modPorts hl ((List.mem_cons.mp h).resolve_left (Ne.symm hq)), portOf_modPort_ne _ _ _ _ hq]

theorem portOf_trainAll (s : State) {q : Nat} (hq : q < 12) : portOf (trainAll s) q = untrained (portOf s q) :=
  portOf_modPorts List.nodup_range (List.mem_range.mpr hq) s

theorem boltSelfTest_runs {s : State} (hst : s.dev.st = .boot ∨ s.dev.st = .hibernate) (hup : s.pins.startup = 6)
    (slices layers : List Nat) :
    ∃ t, exec (.boltSelfTest slices layers) s = .next t ∧ t.mem = s.mem ∧ t.job = s.job ∧
      t.pins = { s.pins with startup := 7, trainedAt := none } ∧
      t.dev = { s.dev with replace := s.dev.replace || outOfRows (slices.zip layers ++ listedLayers s) [] } ∧
      ∀ q, q < 12 → portOf t q = untrained (portOf s q) := by
  have hexec : exec (.boltSelfTest slices layers) s = .next (modPins
      (trainAll (repairRows (slices.zip layers ++ listedLayers s) [] (freeSpares s true)))
      (fun p => { p with startup := 7, trainedAt := none })) := by
    rw [exec_boltSelfTest, execBoltSelfTest, if_pos (by rcases hst with h | h <;> simp [h, hup])]
  obtain ⟨⟨hmem, hjob, -, hports, -⟩, hpins, hdev, -⟩ :=
    ((freeSpares_repairs s true).trans (repairRows_repairs (slices.zip layers ++ listedLayers s) [] _)).frame
  have hflag := repairRows_replace (slices.zip layers ++ listedLayers s) [] (freeSpares s true)
  generalize repairRows (slices.zip layers ++ listedLayers s) [] (freeSpares s true) = u at *
  have hframe := trainAll_frame u
  refine ⟨_, hexec, ?_, ?_, ?_, ?_, fun q hq => ?_⟩
  · rw [modPins, hframe]; exact hmem
  · rw [modPins, hframe]; exact hjob
  · rw [modPins, hframe, hpins]
  · rw [modPins, hframe, hdev, hflag]; rfl
  · have hport : portOf u q = portOf s q := by rw [portOf, hports]; rfl
    exact (portOf_trainAll u hq).trans (congrArg untrained hport)

/-! ### LINK_TRAINING (R218, R221, R223) -/

theorem gateSent_st (p : SeamPort) (b : FlitBody) : (gateSent p b).st = p.st := by
  unfold gateSent switchLanes
  split
  · split <;> rfl
  · rfl

theorem wakePort_st (p : SeamPort) : (wakePort p).st = p.st := by
  unfold wakePort; split <;> rfl

theorem drainPort_st : ∀ (n : Nat) (p : SeamPort), (drainPort n p).st = p.st
  | 0, _ => rfl
  | n + 1, p => by
    unfold drainPort
    split
    · rfl
    · split
      · rw [drainPort_st n, wakePort_st, txFlit, gateSent_st]
      · rfl

/-- A flit that a port sends leaves its state. -/
theorem sendFlit_st (p : SeamPort) (b : FlitBody) : (sendFlit p b).st = p.st := by
  rw [sendFlit, flushPort, drainPort_st, wakePort_st]

/-- From `s` to `t` one port alone has changed. -/
def OnPort (port : Nat) (s t : State) : Prop := t = { s with ports := t.ports } ∧ ∀ q, q ≠ port → portOf t q = portOf s q

theorem OnPort.trans {port : Nat} {a b c : State} (h : OnPort port a b) (k : OnPort port b c) : OnPort port a c :=
  ⟨by have hk := k.1; rw [h.1] at hk; exact hk, fun q hq => (k.2 q hq).trans (h.2 q hq)⟩

theorem modPort_onPort (s : State) (port : Nat) (f : SeamPort → SeamPort) : OnPort port s (modPort s port f) :=
  ⟨rfl, fun _ hq => portOf_modPort_ne _ _ _ _ (Ne.symm hq)⟩

theorem newExchange_onPort (s : State) (port nonce : Nat) : OnPort port s (newExchange s port nonce) := by
  unfold newExchange seamSend
  exact (modPort_onPort ..).trans (modPort_onPort ..)

theorem newExchange_st (s : State) (port nonce : Nat) : (portOf (newExchange s port nonce) port).st = (portOf s port).st := by
  rw [newExchange, seamSend, portOf_modPort_self, sendFlit_st, portOf_modPort_self]

/-- A training that ends at full width links its port. -/
theorem trainPort_full {s : State} {port : Nat} (h : (portOf s port).st = .training) (late : Bool) (nonce : Nat) :
    OnPort port s (trainPort s port ⟨fullWidth port, late⟩ nonce) ∧
      (portOf (trainPort s port ⟨fullWidth port, late⟩ nonce) port).st = .linked := by
  have hnot : ¬ fullWidth port < fullWidth port := Nat.lt_irrefl _
  rw [trainPort, if_pos (.inl rfl), trained]
  simp only [if_neg hnot, if_pos h]
  refine ⟨(modPort_onPort s port fun _ => _).trans (newExchange_onPort ..), (newExchange_st ..).trans ?_⟩
  rw [portOf_setPort_self]

/-- The last port in training links, and step 7 of start-up ends. -/
theorem linkTraining_last {s : State} {port : Nat} (hup : s.pins.startup = 7) (hwait : boxesAt s .fitting = [])
    (hst : (portOf s port).st = .training) (hothers : ∀ q, q < 12 → q ≠ port → (portOf s q).st ≠ .training) (nonce : Nat) :
    ∃ t, exec (.linkTraining port ⟨fullWidth port, false⟩ nonce) s = .next t ∧ (portOf t port).st = .linked ∧
      t.pins = { s.pins with startup := 8, trainedAt := some s.nowUs } := by
  obtain ⟨⟨hframe, hports⟩, hlinked⟩ := trainPort_full hst false nonce
  have hexec : exec (.linkTraining port ⟨fullWidth port, false⟩ nonce) s =
      .next (retryLoad (endTraining (trainPort s port ⟨fullWidth port, false⟩ nonce))) := by
    rw [exec_linkTraining, execLinkTraining, if_pos (by simp [inTraining, hst])]
  generalize trainPort s port ⟨fullWidth port, false⟩ nonce = u at *
  have hdone : ∀ q, q < 12 → (portOf u q).st ≠ .training := fun q hq => by
    by_cases hqp : q = port
    · rw [hqp, hlinked]; decide
    · rw [hports q hqp]; exact hothers q hq hqp
  have hend : endTraining u = { u with pins := { u.pins with startup := 8, trainedAt := some u.nowUs } } :=
    if_pos (by
      have hpins : u.pins.startup = 7 := by rw [hframe]; exact hup
      simpa [hpins, allPorts] using hdone)
  have hretry : retryLoad (endTraining u) = endTraining u := by
    have hnone : boxesAt (endTraining u) .fitting = [] := by rw [hend, boxesAt, hframe]; exact hwait
    rw [retryLoad, hnone]
  refine ⟨_, hexec, ?_, ?_⟩
  · rw [hretry, hend]; exact hlinked
  · rw [hretry, hend, hframe]

/-! ### START_UP_COMPLETE (R327, R328, R331, R383) -/

theorem fitted_iff {s : State} : fitted s = true ↔
    (∀ q, q < 12 → (portOf s q).st ≠ .linked) ∨ ∃ x, s.pins.trainedAt = some x ∧ x + 5000000 ≤ s.nowUs := by
  change _ ↔ _ ∨ ∃ x, s.pins.trainedAt = some x ∧ x + fitUs ≤ s.nowUs
  simp [fitted, allPorts, Option.any_eq_true]

theorem exec_startUpComplete_waits {s : State} (hlinked : ∃ q, q < 12 ∧ (portOf s q).st = .linked)
    (hfit : ∀ x, s.pins.trainedAt = some x → s.nowUs < x + 5000000) : exec .startUpComplete s = .next s := by
  have hno : ¬ fitted s = true := by
    rw [fitted_iff]
    rintro (h | ⟨x, hx, hle⟩)
    · obtain ⟨q, hq, hst⟩ := hlinked
      exact h q hq hst
    · exact absurd (hfit x hx) (Nat.not_lt.mpr hle)
  rw [exec_startUpComplete, execStartUpComplete, if_neg (by simp [hno])]
  rfl

/-- Step 9 of start-up: it ends now, and the patrol scrub runs. -/
def startedUp (s : State) : State :=
  { s with pins := { s.pins with startup := 9, upAt := some s.nowUs }, health := { s.health with scrubbing := true } }

/-- The state that start-up ends in: BOOT goes on by what is due, HIBERNATE returns to the state it was entered from. -/
def startUpEnd (s : State) : State :=
  if s.dev.st = .boot then endBoot (startedUp s) else enterIdle (startedUp s) (if s.dev.hibSpare then .spare else .ready)

theorem exec_startUpComplete_fitted {s : State} (hup : s.pins.startup = 8) (hfit : fitted s = true)
    (hst : s.dev.st = .boot ∨ s.dev.st = .hibernate) : exec .startUpComplete s = .next (startUpEnd s) := by
  rw [exec_startUpComplete, execStartUpComplete, if_pos (by simp [hup, hfit]), startUpEnd]
  rcases hst with h | h <;> rw [h] <;> rfl

/-- The pins that a drain leaves: start-up stands where it stood. -/
theorem Drains.startup {s t : State} (h : Drains s t) : t.pins.startup = s.pins.startup ∧ t.pins.upAt = s.pins.upAt := by
  obtain ⟨h, -⟩ := h
  rw [h]
  exact ⟨rfl, rfl⟩

theorem endBoot_drains (s : State) : Drains s (endBoot s) := by
  unfold endBoot
  split
  · split
    · exact ⟨rfl, id, fun _ => id⟩
    · exact .trans (b := { s with dev := { s.dev with lostJob := false } }) ⟨rfl, id, fun _ => id⟩ (startDrain_drains ..)
  · split
    · exact ⟨rfl, id, fun _ => id⟩
    · split
      · exact ⟨rfl, id, fun _ => id⟩
      · exact enterIdle_drains ..

theorem startUpEnd_drains (s : State) : Drains (startedUp s) (startUpEnd s) := by
  unfold startUpEnd
  split
  · exact endBoot_drains _
  · exact enterIdle_drains ..

/-- A drain that is due at the end of BOOT goes on, or begins. -/
theorem endBoot_draining {s : State} (h : (drainCause s).isSome = true) : (endBoot s).dev.st = .draining := by
  obtain ⟨⟨code, unit⟩, hc⟩ := Option.isSome_iff_exists.mp h
  rw [endBoot, hc]
  dsimp only
  split
  · rfl
  · exact startDrain_st ..

theorem drainCause_sound {s : State} (h : sound s) : drainCause s = none := by
  obtain ⟨hsuspect, hdrain⟩ := h
  simp [drainCause, hsuspect, hdrain]

theorem enterIdle_sound_health {s : State} (h : sound s) (st : DevState) : (enterIdle s st).health = s.health := by
  unfold enterIdle
  extract_lets w
  rw [drainIfDue_sound (by simpa [sound] using h), goState_health]

/-- The three ends of BOOT where no drain is due: the replacement flag, the clearing of a lost job, READY (R20, R328, R331). -/
theorem endBoot_sound {s : State} (h : sound s) : (endBoot s).mem = s.mem ∧
    (s.dev.replace = true → (endBoot s).dev.st = .drained ∧ (endBoot s).health = s.health) ∧
    (s.dev.replace = false → s.dev.lostJob = true → (endBoot s).dev.work = .resetClear ∧ (endBoot s).dev.st = s.dev.st ∧
      (endBoot s).health = { s.health with scrubbing := false }) ∧
    (s.dev.replace = false → s.dev.lostJob = false → (endBoot s).dev.st = .ready ∧ (endBoot s).health = s.health) := by
  rw [endBoot, drainCause_sound h]
  cases hreplace : s.dev.replace with
  | true => exact ⟨rfl, fun _ => ⟨rfl, rfl⟩, nofun, nofun⟩
  | false =>
    cases hlost : s.dev.lostJob with
    | true => exact ⟨rfl, nofun, fun _ _ => ⟨rfl, rfl, rfl⟩, fun _ => nofun⟩
    | false =>
      obtain ⟨hst, hmem, -⟩ := enterIdle_sound h .ready
      exact ⟨hmem, nofun, fun _ => nofun, fun _ _ => ⟨hst, enterIdle_sound_health h .ready⟩⟩

/-- What a device finds at the end of start-up with no suspect recorded and no drain due. -/
theorem startUpEnd_sound {s : State} (hst : s.dev.st = .boot ∨ s.dev.st = .hibernate) (h : sound s) :
    (startUpEnd s).mem = s.mem ∧
    (startUpEnd s).health.scrubbing = !(s.dev.st == .boot && !s.dev.replace && s.dev.lostJob) ∧
    (s.dev.st = .hibernate → (startUpEnd s).dev.st = (if s.dev.hibSpare then .spare else .ready)) ∧
    (s.dev.st = .boot → (s.dev.replace = true → (startUpEnd s).dev.st = .drained) ∧
      (s.dev.replace = false → s.dev.lostJob = true → (startUpEnd s).dev.work = .resetClear ∧ (startUpEnd s).dev.st = .boot) ∧
      (s.dev.replace = false → s.dev.lostJob = false → (startUpEnd s).dev.st = .ready)) := by
  have hs : sound (startedUp s) := h
  rcases hst with hboot | hhib
  · obtain ⟨hmem, hdrained, hcleared, hready⟩ := endBoot_sound hs
    rw [startUpEnd, if_pos hboot]
    refine ⟨hmem, ?_, fun e => absurd (hboot.symm.trans e) (by decide), fun _ => ⟨fun hr => (hdrained hr).1, fun hr hl => ?_,
      fun hr hl => (hready hr hl).1⟩⟩
    · cases hr : s.dev.replace with
      | true => rw [(hdrained hr).2]; simp [startedUp]
      | false =>
        cases hl : s.dev.lostJob with
        | true => rw [(hcleared hr hl).2.2]; simp [hboot]
        | false => rw [(hready hr hl).2]; simp [startedUp]
    · obtain ⟨hwork, hsame, -⟩ := hcleared hr hl
      exact ⟨hwork, hsame.trans hboot⟩
  · obtain ⟨hsame, hmem, -⟩ := enterIdle_sound hs (if s.dev.hibSpare then .spare else .ready)
    rw [startUpEnd, if_neg (by rw [hhib]; decide)]
    refine ⟨hmem, ?_, fun _ => hsame, fun e => absurd (hhib.symm.trans e) (by decide)⟩
    rw [enterIdle_sound_health hs]
    simp [startedUp, hhib]

end Sys2Proof.Machine
end

section
/-! CERTIFICATES. The statements on the form of memory, status, device states, trust and start-up: O31, O40, O44, O54 and O59. -/

namespace Sys2Proof.Machine

open Sys2Proof.Config Sys2Proof.Claims

/-- Settles O59, by the cases of the command in front (`exec_keeps_queue_and_mem`). -/
theorem stepKeepsMemoryForm : Obligations.StepKeepsMemoryForm := fun _ _ hwf hstep => step_keeps_memForm hstep hwf

/-- Settles O31. Each of these messages only replies (`repliesOnly_of_reply`), with what it reads in the state in which it has
left those that wait to start, which holds the same records. That an unknown setting of a CONFIG_GET is answered BAD_SETTING
with no details is log entry 57. -/
theorem statusRequestsResult : Obligations.StatusRequestsResult := by
  intro s m
  refine ⟨fun h => ?_, fun h => ?_, fun h => ?_, fun h => ?_, fun h => ?_, fun h => ?_, fun h => ⟨fun hzero => ?_, fun hne => ?_⟩,
    fun h => ?_, fun h => ⟨fun hknown => ?_, fun hunknown => ?_⟩⟩
  · exact repliesOnly_of_reply (exec_identify m s) h rfl
  · exact repliesOnly_of_reply (exec_jobStatus m s) h rfl
  · have hword : sensorWord (takeRing s m) = sensorWord s := rfl
    exact repliesOnly_of_reply (exec_sensorRead m s) h (by simp only [hword, replyOk])
  · exact repliesOnly_of_reply (exec_lifetimeRead m s) h rfl
  · exact repliesOnly_of_reply (exec_calRead m s) h rfl
  · exact repliesOnly_of_reply (exec_certRead m s) h rfl
  · exact repliesOnly_of_reply (exec_attest m s) h (if_pos (by rw [hzero]; decide))
  · refine repliesOnly_of_reply (exec_attest m s) h (if_neg fun hall => hne ?_)
    exact List.eq_replicate_iff.mpr ⟨memBytes_length _ _ _, fun x hx => by simpa using List.all_eq_true.mp hall x hx⟩
  · exact repliesOnly_of_reply (exec_fwStatus m s) h rfl
  · exact repliesOnly_of_reply (exec_configGet m s) h (if_pos (List.all_eq_true.mpr hknown))
  · obtain ⟨n, hn, hno⟩ := hunknown
    exact repliesOnly_of_reply (exec_configGet m s) h (if_neg fun hall => by simp [List.all_eq_true.mp hall n hn] at hno)

/-- Refutes O40: its clause on DRAIN is about every state without a mailbox waiting for the end of a job or for fitting, and so
about one whose table lists mailbox 0 twice, the second time as waiting for a snapshot. The drain cancels the snapshot (R327
step 2) and answers ABORTED to every mailbox listed there, so that the OK of the DRAIN does not stand. Where no mailbox is
listed twice, the reply of the DRAIN has taken its mailbox out of those that wait. -/
theorem not_deviceStateRequests : ¬ Obligations.DeviceStateRequests := by
  intro h
  obtain ⟨-, -, -, hdrain, -⟩ := h drainListedTwice 0
  obtain ⟨t, hexec, -, -, -, hcases⟩ := hdrain drainListedTwice_accepted
  obtain ⟨-, -, -, hanswer, -⟩ := hcases rfl
  obtain ⟨u, hu, hsent⟩ := drainListedTwice_drain
  cases hexec.symm.trans hu
  have hok := congrArg Mailbox.sent (hanswer rfl rfl)
  rw [hsent] at hok
  exact absurd hok (by decide)

/-- Settles O44. A request that a check of its own refuses only replies; one that acts leaves what it set, for the reply that
follows reaches neither firmware nor memory, errors or ports (`Replies.units`, `Replies.firmware`). -/
theorem trustRequestsResult : Obligations.TrustRequestsResult := by
  intro s m
  refine ⟨fun h howner => ⟨fun hn => ?_, fun hn hbad => ?_, fun hn hkeys => exec_ownerSet_keys h howner hn hkeys⟩,
    fun h => ⟨fun htrial => ?_, fun htrial hload hpos hmax => ?_⟩, fun h w hload hkind hgot => ?_,
    fun h => ⟨fun hc => ?_, fun hc => exec_fwActivate_committed h hc⟩,
    fun h => ⟨fun ht => ?_, fun ht i hi => exec_fwConfirm_trial h ht hi⟩, fun h pat => ?_,
    fun h => ⟨fun hq => ?_, fun hq hup => ?_, fun hq hdown => exec_portRetrain_down h hq hdown⟩⟩
  · exact repliesOnly_of_reply (exec_ownerSet m s) h (setOwner_range (s := takeRing s m) howner hn m)
  · obtain ⟨k, hk, hno⟩ := hbad
    exact repliesOnly_of_reply (exec_ownerSet m s) h ((setOwner_within (s := takeRing s m) howner hn m).trans
      (if_neg fun hall => by simp [List.all_eq_true.mp hall k hk] at hno))
  · exact repliesOnly_of_reply (exec_fwBegin m s) h (if_pos htrial)
  · obtain ⟨t, hexec, hanswer, hreply⟩ := exec_acts (exec_fwBegin m s) h
      (beginFw_opens (s := takeRing s m) htrial hload hpos hmax m) rfl
    exact ⟨t, hexec, hanswer, hreply.firmware.2, hreply.firmware.1, hreply.units.1⟩
  · obtain ⟨t, f, hexec, ⟨hclosed, hmem, rfl⟩, hactive, hdigest, hfault, htaken⟩ := exec_fwCommit_received h hload hkind hgot
    refine ⟨t, hexec, hclosed, hmem, hactive, hdigest, hfault, fun heq hnone hrec => ?_⟩
    obtain ⟨hanswer, hfw⟩ := htaken heq hnone hrec
    rw [hfw]
    exact ⟨hanswer, rfl, (putInactive_slots s.fw _).2⟩
  · exact repliesOnly_of_reply (exec_fwActivate m s) h (if_neg (Bool.eq_false_iff.mp hc))
  · exact repliesOnly_of_reply (exec_fwConfirm m s) h (if_neg (Bool.eq_false_iff.mp ht))
  · intro u bolt hu hl hpat
    obtain ⟨t, hexec, hanswer, hreply⟩ := exec_acts (exec_memInject m s) h
      (injectError_applies (s := takeRing s m) hu hl hpat m) rfl
    obtain ⟨hmem, hhealth, -, hjob, -⟩ := hreply.units
    refine ⟨t, hexec, hanswer, hmem, hjob, ?_, fun l hne => ?_⟩
    · rw [hhealth]; exact tabGet_withPattern ..
    · rw [hhealth]; exact (tabFind_withPattern ..).trans (if_neg hne.symm)
  · exact repliesOnly_of_reply (exec_portRetrain m s) h (if_pos hq)
  · exact repliesOnly_of_reply (exec_portRetrain m s) h ((if_neg (Nat.not_le.mpr hq)).trans (if_neg hup))

/-- Settles O54. The repairs of a row list are counted against the repairs made (`unrepaired_erase`) and against the 32 spares of
a layer (`outOfRows_cons`). What is due at the end of BOOT decides the state entered, a pending drain before the replacement
flag (log entry 51); the condition of step 8 is log entry 53. -/
theorem startUpResult : Obligations.StartUpResult := by
  intro s k failed repaired values slices layers
  refine ⟨fun hst hup => ?_, fun hst hup hrec => ?_, fun hst hup => ?_,
    fun port nonce hup hwait hst hothers => linkTraining_last hup hwait hst hothers nonce,
    fun _ hlinked hfit => exec_startUpComplete_waits hlinked hfit, fun hup hfit hst => ?_⟩
  · exact if_pos (by simp [hst, hup])
  · obtain ⟨t, hexec, hside, hpins, hdev, hfrom, hvalues, hunits⟩ := lpddrTraining_boot hst hup hrec failed repaired values
    refine ⟨t, hexec, hside, hpins, hdev, hfrom.trans (by simp only [trainStart, List.isEmpty_iff]; rfl), hvalues,
      fun c hc => ?_⟩
    rw [hunits]
    exact lpddrWork_unit failed repaired s hc
  · obtain ⟨t, hexec, hmem, hjob, hpins, hdev, hports⟩ := boltSelfTest_runs hst hup slices layers
    exact ⟨t, hexec, hmem, hjob, hpins, hdev.trans (by simp [outOfRows]), hports⟩
  · obtain ⟨hnine, hat⟩ := (startUpEnd_drains s).startup
    refine ⟨_, exec_startUpComplete_fitted hup (fitted_iff.mpr hfit) hst, hnine, hat, startUpEnd_sound hst,
      fun hboot _ hdue => ?_⟩
    rw [startUpEnd, if_pos hboot]
    exact endBoot_draining hdue

end Sys2Proof.Machine
end
